-- ==== Sys2Proof/Word.lean ====
section
/-! DEFINITION. Words, ticks and saturating counters (R7, R8, R73): the types every other file uses. -/

namespace Sys2Proof

/-- One byte. -/
abbrev Byte := BitVec 8
/-- A 16-bit word, the unit of packets, records and queues. -/
abbrev W16 := BitVec 16
/-- A 32-bit register or stroke count. -/
abbrev W32 := BitVec 32
/-- A 64-bit timestamp or counter as a record carries it. -/
abbrev W64 := BitVec 64
/-- An instant or a span in ticks of 1/1.5 GHz. Instants are compared as integers (log 16). -/
abbrev Tick := Int
/-- A complex number whose parts are integers of one scale. -/
structure Cx where
  re : Int
  im : Int
  deriving DecidableEq, Repr

/-- A hardware string of bits, first bit sent first. -/
abbrev Bits := List Bool

/-- A SAT or WRAP counter with its overflow bit (R73). Its width is given where it counts. -/
structure Ctr where
  val : Nat
  ovf : Bool
  deriving DecidableEq, Repr

/-- A cleared counter. -/
def Ctr.zero : Ctr := ⟨0, false⟩

end Sys2Proof
end

