-- ==== Sys2Proof/Syntax.lean ====
section
/-! DEFINITION. The commands of the block, one constructor per row of spec/opcode_table.json, and their operands.
Every command carries `dt`: the converter clock cycles since the command before it (log 1). -/

namespace Sys2Proof

/-- The two dies, or the two ends of the barrier (R21). -/
inductive Die where
  | line | host
  deriving DecidableEq, Repr

/-- The four command inputs (R304). -/
inductive Transport where
  | ring0 | ring1 | udp | sp0
  deriving DecidableEq, Repr

/-- An accepted Eclyn command packet less its opcode, which the row names (Table 11.1).
`params` holds word 3 onward, an expected epoch included when `expect` is set. -/
structure Cmd where
  via : Transport
  tag : W16
  clr : Bool
  expect : Bool
  params : List W16
  deriving DecidableEq, Repr

/-- What the impedance monitor takes in over one block (R128): its first symbol, the transmit and the receive voltage at the balls within the
channel's band in µV as phasors of one phase reference, and the residual receive power after cancelling the own transmission in µV². -/
structure ZBlock where
  symbol : Nat
  tx : Cx
  rx : Cx
  residual : Nat
  deriving DecidableEq, Repr

/-- What the current limit takes in over one window (R129): the mean square of the transmit and of the receive voltage at the balls, and the mean
of their product, in µV². -/
structure WindowObs where
  tx : Nat
  rx : Nat
  cross : Int
  deriving DecidableEq, Repr

/-- A clip sample of a port (R110), or with `tx` a sample that its clipper limited (R111), and its instant at the converter. -/
structure ClipSample where
  port : Nat
  tx : Bool
  at_ : Int
  deriving DecidableEq, Repr

/-- The head of a received PTP message (Tables 13.14, 13.15): its transport, Ethernet where `layer2`, its domainNumber and the port that sent it. -/
structure PtpHead where
  layer2 : Bool
  domain : Nat
  clock : W64
  port : W16
  deriving DecidableEq, Repr

/-- The grandmaster that an Announce tells, with its stepsRemoved (R357). -/
structure PtpGrade where
  priority1 : Nat
  clockClass : Nat
  accuracy : Nat
  variance : Nat
  priority2 : Nat
  grandmaster : W64
  steps : Nat
  deriving DecidableEq, Repr

/-- A Sync or Follow_Up (R357, R358): its sequenceId, its origin in ticks of the reference time with every correction taken in, and the servo offset
of Table 2.1 that the device has with it, in ticks. -/
structure PtpOrigin where
  seq : W16
  origin : Int
  servo : Int
  deriving DecidableEq, Repr

/-- A received PTP message (R357, R358). Of the delay messages `sent` is the follower tick at which the device's own request left the balls; `received` is
the instant at which the master took it in, in ticks of the reference time, and `turn` the ticks that the peer held it. -/
inductive PtpMsg where
  | announce (head : PtpHead) (grade : PtpGrade)
  | sync (head : PtpHead) (twoStep : Bool) (body : PtpOrigin)
  | followUp (head : PtpHead) (body : PtpOrigin)
  | delayResp (head : PtpHead) (sent received : Int)
  | pdelayResp (head : PtpHead) (sent turn : Int)
  | other
  deriving DecidableEq, Repr

/-- A comparator transition of a sense input (R53). `late` is the span from the first transition to this
command, `freqMhz` the frequency that the tracker has after the transition. -/
structure Crossing where
  positive : Bool
  held : Bool
  late : Nat
  freqMhz : Nat
  deriving DecidableEq, Repr

/-- The stroke source whose boundary falls (R59): the grid, or one port's local or synthetic strokes. -/
inductive BoundarySource where
  | grid
  | localOf (port : Nat)
  | synthetic
  deriving DecidableEq, Repr

/-- A stroke boundary (R59): whose it is, and the clip samples since the last ones reported (R110, R111). -/
structure Boundary where
  source : BoundarySource
  clips : List ClipSample
  deriving DecidableEq, Repr

/-- The end of a channel's frame on air (R246), and the clip samples since the last ones reported (R110, R236). -/
structure FrameEnd where
  channel : Nat
  clips : List ClipSample
  deriving DecidableEq, Repr

/-- What a passage of the local phase through a phase bin leaves (R253): the observed power of each frequency bin, and the clip samples since the
last ones reported (R110). -/
structure Passage where
  cells : List (Nat × Nat)
  clips : List ClipSample
  deriving DecidableEq, Repr

/-- What the channeliser of a channel takes in for a frame (R199, R200): the next received symbols, data symbols and pilots in order, as
matched-filter outputs at their instants after correction of the estimated carrier offset, in 2^-20 of port full scale; and the clip samples that
port and others have produced since the last ones reported (R110). -/
structure RxObs where
  symbols : List Cx
  clips : List ClipSample
  deriving DecidableEq, Repr

/-- The end of the frame of a channel's context (R202), with what the channeliser took in last. -/
structure ContextEnd where
  context : Nat
  rx : RxObs
  deriving DecidableEq, Repr

/-- What the acquisition takes in at a possible SYNC (R201): the implied launch instant at the port, the 320 matched-filter outputs at its symbol
instants after correction of the estimated carrier offset, in 2^-20 of port full scale, and that offset in mHz. -/
structure SyncCand where
  launch : Int
  sync : List Cx
  carrierMhz : W32
  deriving DecidableEq, Repr

/-- A header test (R204): the received symbols up to the header's last one, and the decoder's hard decisions at the end of each iteration. -/
structure HeaderObs where
  rx : RxObs
  iters : List Bits
  deriving DecidableEq, Repr

/-- A codeword's decoding (R190): its index and the decoder's hard decisions at the end of each iteration. -/
structure CodewordObs where
  index : Nat
  iters : List Bits
  deriving DecidableEq, Repr

/-- A master's access to bytes within one row or across rows (R397): a read of `len` bytes, or a write with byte enables. -/
inductive RowAccess where
  | read (len : Nat)
  | write (bytes : List (Option Byte))
  deriving DecidableEq, Repr

/-- One access at a bank's arbiter (R392). Banks are coded as in OWNER_FAULT. On a dual-port bank `portA` is the access
of a line sequencer in the same bank cycle (R398 to R400). -/
structure BankReq where
  master : Nat
  bank : Nat
  offset : Nat
  access : RowAccess
  portA : Option (Nat × Nat × RowAccess)
  deriving DecidableEq, Repr

/-- A failed compare of the march test (R404): step 3 or 5, the failing bytes, and what the group holds afterwards. -/
structure MarchFault where
  step : Nat
  mask : W32
  deriving DecidableEq, Repr

/-- The levels of SPn_RXD from a start edge on (R366, R380): the cycles of the port's 240 MHz oscillator after that edge at which the level
changes, in rising order. -/
structure CharObs where
  changes : List Nat
  deriving DecidableEq, Repr

/-- A transition of SPn_RXD (R366, R380): its port and the ball's levels before and after. -/
structure EdgeObs where
  port : Nat
  before : Bool
  after : Bool
  deriving DecidableEq, Repr

/-- A serial port and the levels of its SPn_RXD since the start edge of the present low (R381 to R383). -/
structure LineObs where
  port : Nat
  char : CharObs
  deriving DecidableEq, Repr

/-- A request of a ring over PCI Express (R353): the ring, and the bit of the AER uncorrectable error status with which the request ends, if it ends in
error. -/
structure RingReq where
  ring : Nat
  error : Option Nat
  deriving DecidableEq, Repr

/-- A transfer on the I2C target (R362): the bytes written, the pointer first, and how many bytes are read after them. -/
structure I2cTransfer where
  bytes : List Byte
  read : Nat
  deriving DecidableEq, Repr

/-- A start bit whose majority is 1 (R366): its serial port and the levels after its edge. -/
structure FalseStart where
  port : Nat
  char : CharObs
  deriving DecidableEq, Repr

/-- An Ethernet frame as far as the device reads it (R354, R355). -/
inductive EthPayload where
  | arpRequest (target sender : W32)
  | arpReply (sender : W32)
  | echoRequest (dest src : W32) (data : List Byte)
  | udp (dest src : W32) (destPort srcPort : W16) (fragment options : Bool) (data : List Byte)
  | other
  deriving DecidableEq, Repr

/-- An Ethernet frame: tagged or not, its length in bytes, its content. -/
structure EthFrame where
  tagged : Bool
  length : Nat
  payload : EthPayload
  deriving DecidableEq, Repr

/-- The instructions of the IEEE 1149.1 port (R363). -/
inductive JtagInstr where
  | bypass | idcode | samplePreload | extest | clamp | highz
  deriving DecidableEq, Repr

/-- The commands, in the order of spec/opcode_table.json. -/
inductive Instr where
  /-- Command 0x000 echoes its parameter words in the reply (R317). -/
  | nop (dt : Nat) (cmd : Cmd)
  /-- Command 0x001 returns part code, stepping, grade, firmware releases, serial number, node ID and port allowance (R317). -/
  | identify (dt : Nat) (cmd : Cmd)
  /-- Command 0x002 returns the mode, rung, line presence, barrier state and active alarm sources (R317). -/
  | deviceStatus (dt : Nat) (cmd : Cmd)
  /-- Command 0x003 sets node ID, NETWORK_ID, STAGE_AHEAD, LINK_AGE and REPORT_PERIOD in CONFIG and produces DEVICE_CONFIG (R318). -/
  | deviceConfigure (dt : Nat) (cmd : Cmd)
  /-- Command 0x004 schedules a listed mode transition as a class 1 action, or is refused MODE or NO_RESOURCE (R29). -/
  | modeSet (dt : Nat) (cmd : Cmd)
  /-- Command 0x005 clears inactive latched alarms and moves QUARANTINE to CONFIG or SAFE, or is refused QUARANTINED (R462). -/
  | quarantineRelease (dt : Nat) (cmd : Cmd)
  /-- Command 0x006 moves the device to a permitted power rung with a wake-source mask, or is refused MODE or BUSY (R484). -/
  | rungSet (dt : Nat) (cmd : Cmd)
  /-- Command 0x007 schedules entry into MAINTAIN and the loading of a line firmware image from BAR2 (R479). -/
  | lineFirmwareUpdate (dt : Nat) (cmd : Cmd)
  /-- Command 0x008 starts programming the unused flash slot of a region from a BAR2 source (R479). -/
  | flashProgram (dt : Nat) (cmd : Cmd)
  /-- Command 0x009 is answered and then resets the host side, the line side or both (R471). -/
  | reset (dt : Nat) (cmd : Cmd)
  /-- Command 0x100 returns source, stratum, E, mains data, cox, time parent, grid stroke and time counters (R317). -/
  | timeStatus (dt : Nat) (cmd : Cmd)
  /-- Command 0x101 writes the time and stroke settings of Table 2.2 and produces DEVICE_CONFIG (R317). -/
  | timeConfigure (dt : Nat) (cmd : Cmd)
  /-- Command 0x102 names the TAI second of the next pulse and waits for that pulse to take effect (R46). -/
  | timeSet (dt : Nat) (cmd : Cmd)
  /-- Command 0x103 sets a port's STROKE_SRC, SENSE_INPUT and SENSE_OFFSET (R68). -/
  | portTiming (dt : Nat) (cmd : Cmd)
  /-- Command 0x104 moves named sense inputs to OFF or out of OFF (R54). -/
  | senseControl (dt : Nat) (cmd : Cmd)
  /-- Command 0x108 cancels every pending action with the named tag that has enough lead (R93). -/
  | actionCancel (dt : Nat) (cmd : Cmd)
  /-- Command 0x109 returns pending action and relay counts and the scheduler counters (R317). -/
  | scheduleStatus (dt : Nat) (cmd : Cmd)
  /-- Command 0x040 writes port settings, with idle-only changes refused outside IDLE modes, and produces PORT_STATE and PORT_CONFIG (R115). -/
  | portConfigure (dt : Nat) (cmd : Cmd)
  /-- Command 0x041 schedules a port mute with a CPL field as a class 2 action (R120). -/
  | portMute (dt : Nat) (cmd : Cmd)
  /-- Command 0x042 schedules a port unmute as a class 2 action (R120). -/
  | portUnmute (dt : Nat) (cmd : Cmd)
  /-- Command 0x043 clears FAULT of a port, or is refused BUSY while the fault persists (R121). -/
  | portRearm (dt : Nat) (cmd : Cmd)
  /-- Command 0x044 writes a port's allowed bands and notches, or is refused BUSY naming a placed channel that would fail (R136). -/
  | portMask (dt : Nat) (cmd : Cmd)
  /-- Command 0x045 returns a port's settings, flags, mask, Z values, peak current and counters (R317). -/
  | portStatus (dt : Nat) (cmd : Cmd)
  /-- Command 0x048 schedules a channel placement as a class 3 action after checking its conditions (R133). -/
  | channelPlace (dt : Nat) (cmd : Cmd)
  /-- Command 0x049 schedules a change of the channel settings of Table 11.15 as a class 3 action (R320). -/
  | channelMode (dt : Nat) (cmd : Cmd)
  /-- Command 0x04A returns a channel's placement, settings, RELAY_VIA and counters (R317). -/
  | channelStatus (dt : Nat) (cmd : Cmd)
  /-- Command 0x060 writes a port's noise-map settings, clearing cells on a change of slot or bins (R255). -/
  | noiseMapConfigure (dt : Nat) (cmd : Cmd)
  /-- Command 0x061 returns a rectangle of noise-map cells sampled at one instant (R256). -/
  | noiseMapRead (dt : Nat) (cmd : Cmd)
  /-- Command 0x062 returns link table entries from a first index (R260). -/
  | linkTableRead (dt : Nat) (cmd : Cmd)
  /-- Command 0x063 raises a link entry's verdict offset and evaluates the entry (R270). -/
  | linkVerdict (dt : Nat) (cmd : Cmd)
  /-- Command 0x064 sets or clears a link entry's pin step (R271). -/
  | linkPin (dt : Nat) (cmd : Cmd)
  /-- Command 0x140 accepts one frame for transmission at its launch instant, or refuses it (R230). -/
  | frameSubmit (dt : Nat) (cmd : Cmd)
  /-- Command 0x141 accepts up to 64 frames under one launch specifier, or refuses them (R230). -/
  | hamperSubmit (dt : Nat) (cmd : Cmd)
  /-- Command 0x142 ends the frame on air on a channel on every port (R242). -/
  | transmitAbort (dt : Nat) (cmd : Cmd)
  /-- Command 0x180 writes the relay settings and RELAY_VIA of a channel (R278). -/
  | relayConfigure (dt : Nat) (cmd : Cmd)
  /-- Command 0x182 creates, changes or removes a flood-group entry (R278). -/
  | floodGroupSet (dt : Nat) (cmd : Cmd)
  /-- Command 0x183 returns the flood-group entries (R317). -/
  | floodGroupRead (dt : Nat) (cmd : Cmd)
  /-- Command 0x184 writes a static hop entry, clears STATIC or removes an entry (R276). -/
  | relayTableWrite (dt : Nat) (cmd : Cmd)
  /-- Command 0x185 returns hop table entries from a first index (R295). -/
  | relayTableRead (dt : Nat) (cmd : Cmd)
  /-- Command 0x186 returns the relay engine counters (R296). -/
  | relayStatus (dt : Nat) (cmd : Cmd)
  /-- Command 0x1C0 returns each line bank's owner, VITAL and test state and the line memory counters (R409). -/
  | lineMemoryStatus (dt : Nat) (cmd : Cmd)
  /-- Command 0x1C1 starts or stops the background test or marks or clears VITAL on line banks (R403). -/
  | marchControl (dt : Nat) (cmd : Cmd)
  /-- Command 0x1C2 joins a transmit port's converter input to a receive port's path in TEST (R317). -/
  | testLoopback (dt : Nat) (cmd : Cmd)
  /-- Command 0x1C3 returns words of a line bank in TEST (R392). -/
  | lineMemoryRead (dt : Nat) (cmd : Cmd)
  /-- Command 0x200 returns state, key length, epoch and remaining nonce count of key slots (R317). -/
  | keySlotStatus (dt : Nat) (cmd : Cmd)
  /-- Command 0x201 erases the named key slots and ends operations that use them (R420). -/
  | keyErase (dt : Nat) (cmd : Cmd)
  /-- Command 0x202 queues a CTR, CCM or GCM operation on BAR2 buffers (R429). -/
  | cipherRun (dt : Nat) (cmd : Cmd)
  /-- Command 0x203 writes TAMPER enables, polarities and debounce time (R459). -/
  | alarmConfigure (dt : Nat) (cmd : Cmd)
  /-- Command 0x204 returns active and latched alarm sources and the last alarm (R317). -/
  | alarmStatus (dt : Nat) (cmd : Cmd)
  /-- Command 0x205 returns the counters of every cipher engine (R317). -/
  | cipherStatus (dt : Nat) (cmd : Cmd)
  /-- Command 0x240 routes a serial port's block records also to UDP stream 3 (R374). -/
  | serialRoute (dt : Nat) (cmd : Cmd)
  /-- Command 0x241 returns a serial port's counters (R317). -/
  | serialStatus (dt : Nat) (cmd : Cmd)
  /-- Command 0x300 returns die margins, temperatures and transport counters (R317). -/
  | diagStatus (dt : Nat) (cmd : Cmd)
  /-- Command 0x301 returns barrier and lane state and barrier counters (R317). -/
  | barrierStatus (dt : Nat) (cmd : Cmd)
  /-- Command 0x302 changes the destination of the event or receive frame queue at a record boundary (R319). -/
  | routeSet (dt : Nat) (cmd : Cmd)
  /-- A host write of H_Rr_PROD on a command ring makes the command processor read packets up to PROD (R351). -/
  | commandRingDoorbell (dt : Nat) (request : RingReq) (prod : W32)
  /-- A command datagram is taken, its packets checked and accepted, or discarded from the first bad packet (R306). -/
  | udpDatagramReceive (dt : Nat) (src : W32) (port : W16) (bytes : List Byte)
  /-- A flag-delimited frame on SP0 is unescaped, checked and accepted as a command, or discarded and counted (R307). -/
  | sp0FrameReceive (dt : Nat) (bytes : List Byte)
  /-- At its launch instant a commanded mode change takes effect, drops frames the new mode does not carry and produces the mode-change event (R31). -/
  | modeChangeAtLaunch (dt : Nat) (action : Nat)
  /-- At the launch instant of LINE_FIRMWARE_UPDATE the device enters MAINTAIN, keeping pending frames (R34). -/
  | enterMaintain (dt : Nat) (action : Nat)
  /-- When the new line firmware starts the device returns to the mode held before MAINTAIN and ACTION_DONE OK follows (R29). -/
  | lineFirmwareStarted (dt : Nat)
  /-- A line firmware image that fails its check returns the device to the prior mode with ACTION_DONE ABORTED (R29). -/
  | firmwareImageFailed (dt : Nat)
  /-- At its launch instant a mute sets MUTED, ends frames on the port and applies the CPL level (R120). -/
  | portMuteTakesEffect (dt : Nat) (action : Nat)
  /-- At its launch instant an unmute clears MUTED (R120). -/
  | portUnmuteTakesEffect (dt : Nat) (action : Nat)
  /-- At its launch instant a placement is rechecked and applied, restarting preamble search, or dropped ABORTED (R134). -/
  | placementTakesEffect (dt : Nat) (action : Nat)
  /-- At its launch instant a channel mode change applies its settings (R320). -/
  | channelModeTakesEffect (dt : Nat) (action : Nat)
  /-- A retune or channel mode change deferred by a frame on air takes effect at that frame's end (R89). -/
  | deferredChannelAction (dt : Nat) (action : Nat)
  /-- At L minus 1 ms a STROKE or ANGLE action's launch instant is fixed and judged, slipping or dropping it when late (R79). -/
  | fixPoint (dt : Nat) (action : Nat)
  /-- At L minus 40 µs a frame not resident in a line-side bank is late and slips or is dropped (R85). -/
  | residencyCheck (dt : Nat) (action : Nat) (index : Nat)
  /-- The host side sends a ready frame as FRAME_DOWN once it is within STAGE_AHEAD and the staging pool has room (R232). -/
  | frameDownSend (dt : Nat)
  /-- The line side writes a FRAME_DOWN frame into a bank and the encoder array builds its codewords (R195). -/
  | frameDownReceive (dt : Nat)
  /-- LPnn_DRVEN rises DRV_LEAD before the first sample of a scheduled transmission leaves the converter (R122). -/
  | drvenRise (dt : Nat) (port : Nat) (channel : Nat)
  /-- At its launch instant a frame passes the on-air, epoch, placement and port checks and starts on every transmitting port (R237). -/
  | frameLaunch (dt : Nat) (action : Nat) (index : Nat)
  /-- At a frame's end the port set stops and the transmit completion record or relay record is produced (R246). -/
  | transmitFrameEnd (dt : Nat) (ending : FrameEnd)
  /-- LPnn_DRVEN falls DRV_TAIL after the last sample, drop or slip decision unless another transmission holds it (R122). -/
  | drvenFall (dt : Nat) (port : Nat)
  /-- The 750-tick fade of an on-air ending completes and the port's contribution is zero (R241). -/
  | onAirEndingComplete (dt : Nat) (port : Nat) (channel : Nat)
  /-- A low on LPnn_DRVFLT starts the 1 µs acceptance filter (R125). -/
  | drvfltAssert (dt : Nat) (port : Nat)
  /-- An accepted driver fault ends the port's frames, drives LPnn_DRVEN low and sets FAULT (R126). -/
  | drvfltAccepted (dt : Nat) (port : Nat)
  /-- Each 10 µs window computes the rms current and trips the port after four windows above ILIM (R129). -/
  | ilimWindow (dt : Nat) (port : Nat) (window : WindowObs)
  /-- Each block of 64 transmitted symbols yields a load impedance and may produce IMP_STEP (R128). -/
  | impedanceBlock (dt : Nat) (port : Nat) (channel : Nat) (block : ZBlock)
  /-- After CPL_SETTLE the port's receive hold ends and preamble search resumes (R127). -/
  | cplSettleEnd (dt : Nat) (port : Nat)
  /-- 10 µs after the last transmitted sample, held channels resume preamble search (R135). -/
  | selfOverlapHoldEnd (dt : Nat) (channel : Nat)
  /-- A captured PPS_IN edge, less PPS_DELAY and lane delay, qualifies or disciplines PPS_REF and applies a waiting TIME_SET (R45). -/
  | ppsEdge (dt : Nat) (highNs : Nat)
  /-- No PPS pulse for 1.5 s loses PPS_REF, possibly entering HOLDOVER (R45). -/
  | ppsLossTimeout (dt : Nat)
  /-- A received PTP message is timestamped and updates the servo, qualifying or losing PTP (R357). -/
  | ptpMessage (dt : Nat) (msg : PtpMsg)
  /-- No Sync message for 3 s loses PTP (R45). -/
  | ptpSyncTimeout (dt : Nat)
  /-- No successful time transfer for eight periods loses BEACON (R45). -/
  | beaconSourceTimeout (dt : Nat)
  /-- At its announced instant the timebase steps forward and actions in the skipped interval are re-judged (R43). -/
  | timebaseStep (dt : Nat)
  /-- Every 100 µs the line side sends TIME_SYNC to the host-side follower (R43). -/
  | timeSyncSend (dt : Nat)
  /-- The follower corrects itself from a TIME_SYNC, setting itself at the first one of a new run (R43). -/
  | timeSyncReceive (dt : Nat)
  /-- When the follower reaches a whole second the host side drives a rising PPS_OUT edge (R44). -/
  | ppsOutEdge (dt : Nat)
  /-- No pulse within 1.1 s answers TIME_SET ABORTED (R46). -/
  | timeSetTimeout (dt : Nat)
  /-- The 10 MHz reference appearing or leaving tolerance switches the converter clock source, altering only c (R39). -/
  | ref10mChange (dt : Nat) (inTolerance : Bool) (rate : Int)
  /-- A comparator transition on a sense input is accepted or rejected and may change its state and the reference (R53). -/
  | zeroCrossing (dt : Nat) (input : Nat) (edge : Crossing)
  /-- No accepted crossing for 45 ms puts the input in LOST, possibly producing MAINS_LOST (R54). -/
  | senseLossTimeout (dt : Nat) (input : Nat)
  /-- A stroke boundary of a stroke source ends the stroke and emits the per-stroke clip and decoder-load events (R59). -/
  | strokeBoundary (dt : Nat) (boundary : Boundary)
  /-- At the first boundary of an adopted schedule the grid count changes and scheduled actions are re-judged (R66). -/
  | gridStep (dt : Nat)
  /-- At the first boundary of a new stroke source the port takes its count and produces STROKE_SOURCE (R68). -/
  | strokeSource (dt : Nat) (port : Nat)
  /-- The cox issues a segment and originates a beacon in each grid stroke divisible by P_b (R62). -/
  | beaconOriginate (dt : Nat)
  /-- A received beacon is validated, its segments held and its cox rank taken into the election (R169). -/
  | beaconReceived (dt : Nat)
  /-- A cox rank not heard within 8 × P_b strokes leaves the election (R64). -/
  | coxRankExpiry (dt : Nat) (node : W32)
  /-- In its assigned stroke the requester launches a time-transfer request at the start of the catch (R173). -/
  | timeTransferRequest (dt : Nat)
  /-- A parent that decodes a request schedules its reply or sends none (R173). -/
  | timeTransferRequestReceived (dt : Nat)
  /-- The parent launches its reply on the request's channel and port at the planned instant (R174). -/
  | timeTransferReply (dt : Nat)
  /-- The requester computes offset and path delay from a reply or discards the exchange (R175). -/
  | timeTransferReplyReceived (dt : Nat)
  /-- HOLDOVER_LIMIT after the last source loss stops crew launch and drops pending crew copies (R70). -/
  | crewHold (dt : Nat)
  /-- ISLAND_DELAY after the last source loss enters ISLAND and moves GRID ports to LOCAL (R71). -/
  | islandDelayExpiry (dt : Nat)
  /-- A SYNC metric at or above DET_THR declares a candidate that takes, displaces or is dropped from a context (R201). -/
  | syncCandidate (dt : Nat) (channel : Nat) (cand : SyncCand)
  /-- At a hypothesis's completion instant the header is combined and decoded and the frame commits or the context frees (R204). -/
  | headerTest (dt : Nat) (channel : Nat) (context : Nat) (test : HeaderObs)
  /-- A pilot interval whose noise, gain or phase steps beyond thresholds opens or extends a wash span and produces WASH (R210). -/
  | wash (dt : Nat) (channel : Nat) (context : Nat) (rx : RxObs)
  /-- A decoder engine ends a codeword as CONVERGED, MAX_ITER, STALL or GRANT (R190). -/
  | codewordEnd (dt : Nat) (channel : Nat) (frame : W16) (end_ : CodewordObs)
  /-- At a committed frame's end its context becomes free (R202). -/
  | committedFrameEnd (dt : Nat) (channel : Nat) (ending : ContextEnd)
  /-- A passage of the local phase through a phase bin updates the cells it may observe (R253). -/
  | noiseMapObservation (dt : Nat) (port : Nat) (phaseBin : Nat) (passage : Passage)
  /-- The relay engine takes up a GOOD frame and decides whether to deliver, relay or discard it (R274). -/
  | relayEngineTakeUp (dt : Nat)
  /-- Before residency the staged copy's check is recomputed with the kept DEST and SEQ and the new hop header written (R290). -/
  | relayStageCheck (dt : Nat) (copy : Nat) (staged : List Byte)
  /-- At L minus 1 ms a crew copy is re-judged for R72 and E_crew (R283). -/
  | relayFixCheck (dt : Nat) (copy : Nat)
  /-- At L minus 40 µs a relay copy not resident is dropped with cause LATE (R283). -/
  | relayResidencyCheck (dt : Nat) (copy : Nat)
  /-- At its instant a crew copy passes its final checks and launches, or is dropped with RELAY_DROP (R283). -/
  | relayLaunch (dt : Nat) (copy : Nat)
  /-- A pending unicast leg not withdrawn launches at its slot instant (R289). -/
  | unicastLegLaunch (dt : Nat) (copy : Nat)
  /-- In its assigned stroke a channel sends a link report after the catch, or skips it (R262). -/
  | linkReportSend (dt : Nat) (channel : Nat)
  /-- A valid link report updates the sender's entry and evaluates its held step and rate advice (R264). -/
  | linkReportReceived (dt : Nat)
  /-- LINK_AGE strokes without a frame make an entry STALE (R257). -/
  | linkAgeExpiry (dt : Nat) (index : Nat)
  /-- 4 × LINK_AGE strokes without a frame remove a link entry (R257). -/
  | linkRemoval (dt : Nat) (index : Nat)
  /-- VERDICT_HOLD strokes without a verdict lower the verdict offset by 1 (R270). -/
  | verdictDecay (dt : Nat) (index : Nat)
  /-- A learned hop entry not updated for HOP_AGE is removed (R276). -/
  | hopAgeExpiry (dt : Nat) (index : Nat)
  /-- Every 100 µs each die measures its fabric margin and may produce MARGIN_LOW or MARGIN_OK (R95). -/
  | marginMeasure (dt : Nat) (die : Die) (margin : W16)
  /-- Every 10 µs each powered side sends a HEARTBEAT with its boot ID (R456). -/
  | heartbeatSend (dt : Nat) (die : Die)
  /-- A valid HEARTBEAT is counted towards declaring the barrier up (R456). -/
  | heartbeatReceive (dt : Nat) (die : Die) (valid : Bool)
  /-- 30 µs without a valid HEARTBEAT declares BARRIER_DOWN (R451). -/
  | heartbeatTimeout (dt : Nat) (die : Die)
  /-- A message unacknowledged for 2 µs is repeated, and after seven retries BARRIER_DOWN is declared (R448). -/
  | retryTimeout (dt : Nat) (die : Die) (seq : W16)
  /-- A barrier message is checked, acknowledged and delivered in sequence, or discarded on CRC failure (R447). -/
  | barrierMessageReceive (dt : Nat) (die : Die) (lane : Nat) (seq : W16) (crcOk : Bool)
  /-- Every 1 ms a down lane is retrained and returns after 16 good messages (R449). -/
  | laneRetrain (dt : Nat) (die : Die) (lane : Nat) (good : Nat)
  /-- Failure of the timing lane loses PPS_REF and the 10 MHz reference without BARRIER_DOWN (R450). -/
  | timingLaneFail (dt : Nat)
  /-- At bring-up and once per second the timing-lane delay is measured by loopback (R360). -/
  | timingLaneMeasure (dt : Nat) (delay : Nat)
  /-- 1 s after BARRIER_DOWN the host side closes every open frame and action note with status BARRIER (R455). -/
  | barrierNoteClose (dt : Nat)
  /-- A received frame or segment crossing as FRAME_UP is placed in the receive queue or passed to a cipher engine (R425). -/
  | frameUpReceive (dt : Nat)
  /-- A line-side record crossing as EVENT is placed in its host-side queue (R22). -/
  | eventMessageReceive (dt : Nat)
  /-- A REPLY_LINE is placed as the command's reply, or discarded if the command was already answered BARRIER (R457). -/
  | replyLineReceive (dt : Nat)
  /-- The line side receiving ALARM ends frames, drops relay copies and mutes every port (R460). -/
  | alarmMessageReceive (dt : Nat)
  /-- An alarm source becoming active is latched, erases all keys, enters QUARANTINE and produces ALARM_RAISED (R460). -/
  | alarmRaised (dt : Nat) (source : Nat)
  /-- A die whose rails have stood in range for 2 ms is released from power-on reset (R466). -/
  | diePowered (dt : Nat) (die : Die)
  /-- A rail leaving its range puts its die in reset within 10 µs (R466). -/
  | railOutOfRange (dt : Nat) (die : Die)
  /-- RESET_N low for 1 µs resets host and line, the line by the reset pattern (R472). -/
  | resetN (dt : Nat)
  /-- PERST_N assertion resets the PCI Express configuration, ring blocks, MSI-X and interrupt registers (R471). -/
  | perstN (dt : Nat)
  /-- A host watchdog not served for 100 ms resets the host side (R471). -/
  | hostWatchdog (dt : Nat)
  /-- A line watchdog not served for 100 ms resets the line side (R471). -/
  | lineWatchdog (dt : Nat)
  /-- The line barrier receiver detecting the reset pattern holds the line die in reset (R472). -/
  | resetPattern (dt : Nat)
  /-- The host ROM's check of region 0 starts host firmware or leaves the device in BOOT (R480). -/
  | hostFirmwareCheck (dt : Nat)
  /-- The line ROM checks the crossed image, places it in LB62–LB63 and starts line firmware (R480). -/
  | lineImageLoaded (dt : Nat)
  /-- Line firmware reporting ready moves BOOT to CONFIG, or QUARANTINE under R30 (R480). -/
  | lineReady (dt : Nat)
  /-- The line not ready 500 ms after the reference instant enters SAFE (R480). -/
  | lineNotReady (dt : Nat)
  /-- A named wake source, BAR access or command below ROW returns the device to ROW and produces RUNG_CHANGE (R486). -/
  | rungWake (dt : Nat) (source : Nat)
  /-- Completion of flash programming produces FLASH_DONE with OK or ABORTED (R479). -/
  | flashDone (dt : Nat)
  /-- A write of OWNER in H_HBnn_OWN orders a handover at the arbiter and sets PENDING (R394). -/
  | bankHandover (dt : Nat) (bank : Nat) (value : W32)
  /-- Writing 1 to FAILED of H_HBnn_OWN resumes the background test of the bank (R404). -/
  | marchFailedClear (dt : Nat) (bank : Nat)
  /-- When the last in-flight access drains the new owner takes effect and BANK_OWNER is produced (R394). -/
  | bankOwner (dt : Nat) (bank : Nat)
  /-- A PCI Express request through BAR2 is served row by row, each row judged against its bank's owner (R397). -/
  | bar2Access (dt : Nat) (offset : Nat) (access : RowAccess)
  /-- A master's access to a bank is judged at its place in the arbiter's order and served or refused (R392). -/
  | bankAccess (dt : Nat) (request : BankReq)
  /-- The march tester borrows a group, tests it with complement writes and returns it (R402). -/
  | marchBorrow (dt : Nat) (die : Die) (fail : Option MarchFault)
  /-- A read of H_Qn_DATA takes the head word, or returns at once or stalls on an empty queue (R330). -/
  | queueWindowRead (dt : Nat) (queue : Nat)
  /-- A stalled window read completes with the next word the producer writes (R330). -/
  | stalledReadComplete (dt : Nat) (queue : Nat)
  /-- A stalled read reaching STALL_LIMIT completes as a FLAG read with UNDERRUN (R330). -/
  | stallLimitExpiry (dt : Nat) (queue : Nat)
  /-- Writing RESET in H_Qn_CTRL empties the queue, applies pending settings and produces QUEUE_RESET (R339). -/
  | queueReset (dt : Nat) (queue : Nat)
  /-- When space frees a held packet enters its queue, preceded by QUEUE_LOSS after losses (R334). -/
  | queueHoldDrain (dt : Nat) (queue : Nat)
  /-- A read of H_Qn_LOST returns the lost count and overflow bit and clears them (R15). -/
  | queueLostRead (dt : Nat) (queue : Nat)
  /-- A read of H_Qn_HWM returns the high-water level and clears it (R15). -/
  | queueHwmRead (dt : Nat) (queue : Nat)
  /-- When ring slots are free the device writes a whole packet to a device ring and advances PROD (R352). -/
  | deviceRingWrite (dt : Nat) (request : RingReq)
  /-- Writing ENABLE in H_Rr_CTRL starts a ring with PROD and CONS at 0, or stops it at a packet boundary (R353). -/
  | ringEnable (dt : Nat) (ring : Nat) (value : W32)
  /-- At the end of HOLDOFF a ring advance within it sets the ring's cause bit (R352). -/
  | ringHoldoffEnd (dt : Nat) (ring : Nat)
  /-- A write of H_INT_CAUSE clears bits and resends a vector whose group value stays 1 (R348). -/
  | intCauseWrite (dt : Nat) (value : W32)
  /-- A write of H_INT_MASK changes masking and resends a vector whose group value is 1 (R348). -/
  | intMaskWrite (dt : Nat) (value : W32)
  /-- A read of H_TIME_LO returns the follower's low bits and latches the high bits into H_TIME_HI (R349). -/
  | timeLoRead (dt : Nat)
  /-- A read of H_MEM_CDATA returns the selected counter, latches OVF_LAST and clears both (R410). -/
  | memCdataRead (dt : Nat)
  /-- A write to a register without a row of its own sets its fields by their access codes (R13). -/
  | registerWrite (dt : Nat) (offset : Nat) (value : W32)
  /-- A start edge on a serial receive line begins a character and may wake the device (R366). -/
  | serialStartEdge (dt : Nat) (edge : EdgeObs)
  /-- At the middle of its first stop bit a character is complete with its error flags and enters the receive buffer (R366). -/
  | serialCharacter (dt : Nat) (port : Nat) (char : CharObs)
  /-- The receive DMA writes a buffered character into the filling block, closing it when full (R371). -/
  | serialRxDma (dt : Nat) (port : Nat)
  /-- RXTO character times without a start edge close the block with cause TIMEOUT (R373). -/
  | serialRxTimeout (dt : Nat) (port : Nat)
  /-- The line low for two character times enters BREAK, stores a BRK entry and closes the block (R382). -/
  | serialBreak (dt : Nat) (line : LineObs)
  /-- The line low for STUCK_TIME enters STUCK, stopping the DMA and disarming wake (R382). -/
  | serialStuck (dt : Nat) (line : LineObs)
  /-- The line high for one character time returns BREAK or STUCK to IDLE (R383). -/
  | serialIdle (dt : Nat) (line : LineObs)
  /-- A write of H_SPn_RXREL releases the oldest HELD blocks (R372). -/
  | serialRxRelease (dt : Nat) (port : Nat) (value : W32)
  /-- A write of H_SPn_TXD queues a transmit descriptor, or is discarded with DROP when 16 are pending (R375). -/
  | serialTxDescriptor (dt : Nat) (port : Nat) (value : W32)
  /-- The last stop bit of a sent character ends and the next character or descriptor completion follows (R375). -/
  | serialTxCharacterEnd (dt : Nat) (port : Nat)
  /-- Writing TX_BRK to 1 holds SPn_TXD low after the character in the shifter (R376). -/
  | serialTxBreakSet (dt : Nat) (port : Nat)
  /-- Writing TX_BRK to 0 ends the break once two character times have passed (R376). -/
  | serialTxBreakClear (dt : Nat) (port : Nat)
  /-- Two character times after a break began, a cleared break drives 1 for one bit time (R376). -/
  | serialBreakHoldEnd (dt : Nat) (port : Nat)
  /-- Writing TX_EN to 0 stops the transmitter after the character in the shifter (R376). -/
  | serialTxDisable (dt : Nat) (port : Nat)
  /-- Writing RX_EN to 0 closes the filling block with cause DISABLE (R371). -/
  | serialRxDisable (dt : Nat) (port : Nat)
  /-- A write of rate or format reaches the port at one tick and each direction takes it up at its next character (R369). -/
  | serialFormatChange (dt : Nat) (port : Nat) (rateReg : Bool) (value : W32)
  /-- DE_TAIL after the last stop bit with no character ready SPn_DE falls (R377). -/
  | serialDeTailEnd (dt : Nat) (port : Nat)
  /-- SPn_CTS_N going low releases a character held by flow control (R379). -/
  | serialCtsChange (dt : Nat) (port : Nat) (high : Bool)
  /-- A read of H_SPn_RXQ takes the head word of the port's receive queue (R374). -/
  | serialRxqRead (dt : Nat) (port : Nat)
  /-- Writing RESET in H_SPn_RXQCTRL resets the receive queue and releases every block (R374). -/
  | serialRxqReset (dt : Nat) (port : Nat)
  /-- A free engine takes up the waiting operation of highest class and copies the slot's key and counter (R415). -/
  | cipherOpStart (dt : Nat) (engine : Nat)
  /-- At a block boundary a lower-class operation is suspended for a waiting higher-class one (R416). -/
  | cipherSuspend (dt : Nat) (engine : Nat)
  /-- A STREAM operation places a RELEASE record for each released portion of plaintext (R430). -/
  | cipherRelease (dt : Nat) (engine : Nat)
  /-- An operation ends and places its FINAL or result record, or begins zeroing on tag failure (R433). -/
  | cipherOpEnd (dt : Nat) (engine : Nat)
  /-- Completion of zeroing after a tag failure places the RETRACT record (R431). -/
  | cipherZeroingDone (dt : Nat) (engine : Nat)
  /-- A write to H_KSnn_KEYw stages key bytes and counts towards KEY_PROBE (R417). -/
  | keyStagingWrite (dt : Nat) (slot : Nat) (word : Nat) (value : W32)
  /-- A write of H_KSnn_COMMIT with GUARD 0xA5 loads the staged key, resets the nonce counter and produces KEY_STATE (R417). -/
  | keyCommit (dt : Nat) (slot : Nat) (value : W32)
  /-- Writing GO starts a check run that latches the unit's settings (R439). -/
  | cuGo (dt : Nat) (unit : Nat) (value : W32)
  /-- Writing ABORT stops a running check after the row in progress (R442). -/
  | cuAbort (dt : Nat) (unit : Nat)
  /-- A check run completes, stores RESULT, compares and sets DONE (R441). -/
  | cuRunDone (dt : Nat) (unit : Nat)
  /-- A read of H_CUu_STATUS returns and clears MISCOUNT and its overflow bit (R446). -/
  | cuStatusRead (dt : Nat) (unit : Nat)
  /-- An Ethernet frame is accepted or discarded and answered as ARP, echo or UDP traffic (R355). -/
  | ethFrameReceive (dt : Nat) (frame : EthFrame)
  /-- Once per second the device retries ARP for an unresolved record destination (R355). -/
  | arpRetry (dt : Nat)
  /-- A change of PCS block lock changes LINK and sets ETH of H_INT_CAUSE (R354). -/
  | ethLinkChange (dt : Nat) (up : Bool)
  /-- An I2C write transfer sets the pointer and writes data bytes (R362). -/
  | i2cWrite (dt : Nat) (transfer : I2cTransfer)
  /-- Writing 0xA5 then 0x5A to RESET_REQ in one transfer resets host and line (R362). -/
  | i2cResetReq (dt : Nat)
  /-- An IEEE 1149.1 instruction is loaded, stopping host links under EXTEST, CLAMP or HIGHZ (R363). -/
  | jtagInstruction (dt : Nat) (instr : JtagInstr)
  /-- LPnn_DRVFLT returning high ends the acceptance filter of a short pulse, which is ignored, and lifts the BUSY condition on re-arm (R125). -/
  | drvfltDeassert (dt : Nat) (port : Nat)
  /-- An alarm source such as a TAMPER input or an over-temperature condition ceases to be active, so that QUARANTINE_RELEASE can clear its latch (R462). -/
  | alarmSourceInactive (dt : Nat) (source : Nat)
  /-- The line die's glitch detector fires or its junction exceeds 140 °C, and the line side latches it and sends ALARM to the host side, at bring-up if the barrier is down (R458). -/
  | lineAlarmDetected (dt : Nat)
  /-- At the sampling of a start bit whose majority is 1, the receiver discards it as a false start, counts it, resumes or expires a stopped timeout, and marks a false wake (R366). -/
  | serialFalseStart (dt : Nat) (start : FalseStart)
  /-- RESET_N returning high releases the host die, which starts its boot ROM, and ends the reset pattern, releasing the line die 1 µs later (R472). -/
  | resetNRelease (dt : Nat)
  deriving DecidableEq, Repr

end Sys2Proof
end

