-- ==== Sys2Proof/Config.lean ====
section
/-! DEFINITION. What an implementation fixes or the specification leaves open: the free values (log 5), the signature and digest
checks of the boot image (log 7) and the constants of the part. No free value has a body. -/

namespace Sys2Proof.Config

/-- The `n`-th free 16-bit value: what the specification calls unpredictable or drawn at random (R4, R522). -/
opaque freeWord : Nat → BitVec 16
/-- The `n`-th free 32-bit value (R4). -/
opaque freeLong : Nat → BitVec 32
/-- The `n`-th free byte (R4, R497). -/
opaque freeByte : Nat → BitVec 8
/-- The `n`-th start value that a commit draws for a nonce counter, below 2^63 (R422). -/
opaque freeNonce : Nat → BitVec 63
/-- The `n`-th follower error: 0 to 4 stand for -2 to +2 ticks (R43). Larger values are taken modulo 5. -/
opaque freeError : Nat → BitVec 8
/-- The rate of the host-side reference against the timebase while no TIME_SYNC comes, of the last TIME_SYNC's instant (R43): taken modulo 429,497,
its distance from 214,748 is the rate in 2^-32. -/
opaque hostRate : Int → BitVec 32
/-- TXB of a completion record whose frame was never sent, of channel, SEQ and tag (Table 8.4 gives it as sent). -/
opaque freeTxb : Nat → Nat → Nat → BitVec 4
/-- s_eff in Q8.8 dB from SNR and EVM words of which one, or both, are not available (R250, R268; log 101). -/
opaque freeSEff : BitVec 16 → BitVec 16 → BitVec 16
/-- LEN_M1 less 15, modulo 32,753, that an evaluation of a link entry of an index takes at an instant when no frame has given it one (R269;
log 46). -/
opaque freeEvalLen : Nat → Nat → BitVec 15
/-- SHA-256 of a body (FIPS 180-4), by reference (R476). -/
opaque sha256 : List Byte → List Byte
/-- Whether SIG over header bytes 0 to 63 verifies under the boot public key (R477). -/
opaque sigVerifies : List Byte → List Byte → Bool

end Sys2Proof.Config
end

