-- ==== Sys2Proof/Machine/State.lean ====
section
/-! DEFINITION. The state of the block: everything the specification gives the two dies, the barrier and the host
links, with the value of each piece after reset. INVENTORY.md lists each field with its rule and its reset value. -/

namespace Sys2Proof.Machine

/-- The twelve device modes (Table 1.6). -/
inductive Mode where
  | boot | config | survey | headend | relay | corridor | holdover | island | test | maintain | quarantine | safe
  deriving DecidableEq, Repr

/-- The five power rungs (Table 19.7). -/
inductive Rung where
  | row | paddle | drift | moored | ashore
  deriving DecidableEq, Repr

/-- Why a step faults. -/
inductive Fault where
  /-- Raised by no command: the specification gives the block no trap, and every access outside a bank is a host error
  whose bytes are free or discarded (R497). Safe: nothing stops. -/
  | noTrap
  deriving DecidableEq, Repr

/-- Why a step is refused. -/
inductive Refusal where
  /-- Raised by an arm of exec whose command has no meaning in this model yet. Safe: the step stops. -/
  | notModelled (mnemonic : String)
  deriving DecidableEq, Repr

/-! ## Memory -/

/-- Bytes of an address space as a list of cells: addresses strictly rising, no cell equal to 0x00, which is what an
unlisted address reads as (R407 gives no value; log 8). -/
abbrev Memory := List Host.Cell

/-! ## Packets, frames and actions -/

/-- A record or reply as it enters a queue (R325, R326): its words, and whether its last word carries PEND. -/
structure Packet where
  words : List W16
  pend : Bool
  to_ : W32 × W16 := (0, 0)
  deriving DecidableEq, Repr

/-- The frame descriptor of Table 8.1 with what the device adds at acceptance (R230, R267, R522). -/
structure FrameDesc where
  chan : Nat
  ofs : Nat
  mod : Nat
  rate : Nat
  lift : Nat
  sec : Bool
  type : Nat
  level : Nat
  slot : Nat
  dest : W32
  hopsToGo : Nat
  floodK : Nat
  floodId : W16
  dataLen : Nat
  dataOfs : Nat
  expEpoch : Option W16
  seq : W16
  src : W32
  deriving DecidableEq, Repr

/-- A frame of a pending action on the line side: descriptor, payload bytes from the hop header on once it is resident (R85) with the
SEED taken then (R156, R229), whether it has launched or otherwise ended, and whether the
host has written its data bytes since the acceptance (R231). -/
structure TxFrame where
  desc : FrameDesc
  payload : Option (List Byte)
  seed : Nat
  launched : Bool
  ended : Bool
  touched : Bool
  deriving DecidableEq, Repr

/-- A frame in the transmit frame queue (R337): its action, its index there, its command, the launch instant, its payload
once the data are read and secured, whether a cipher operation has it, and whether a full staging pool has held it. -/
structure HostFrame where
  action : Nat
  index : Nat
  tag : W16
  via : Transport
  accepted : Tick
  launch : Tick
  slipped : Nat
  desc : FrameDesc
  payload : Option (List Byte)
  ciphering : Bool
  waited : Bool
  deriving DecidableEq, Repr

/-- A channel's placement (R131). -/
structure Placement where
  rxPort : Nat
  portSet : List Nat
  f : W32
  rateK : Nat
  deriving DecidableEq, Repr

/-- What a scheduled action does (R76, Table 3.3). -/
inductive ActKind where
  | modeSet (target : Mode)
  | lineFirmware (offset len : Nat)
  | mute (port : Nat) (cpl : Nat)
  | unmute (port : Nat)
  | place (chan : Nat) (placement : Option Placement)
  | chanMode (chan : Nat) (mask : Nat) (values : List W16)
  | frames (hamper : Bool)
  deriving DecidableEq, Repr

/-- The forms of a launch specifier (Table 3.1). -/
inductive Form where
  | next | time | stroke | angle
  deriving DecidableEq, Repr

/-- A launch specifier (R76). -/
structure LaunchSpec where
  form : Form
  slip : Bool
  slipMax : Nat
  time : Tick
  n : W32
  ofs : Int
  angle : W16
  deriving DecidableEq, Repr

/-- A pending scheduled action (R76 to R94). `deferred` is the frame end at which a deferred channel action takes effect (R89), `late` that the
action is in 'Actions late' (Table 3.10). -/
structure Action where
  id : Nat
  tag : W16
  via : Transport
  kind : ActKind
  spec : LaunchSpec
  refPort : Nat
  accepted : Tick
  n0 : W32
  slipped : Nat
  launch : Tick
  fixed : Bool
  expEpoch : Option W16
  deferred : Option Tick
  late : Bool
  frames : List TxFrame
  deriving DecidableEq, Repr

/-- A received frame record (class 1), cut-through segment (3) or retract record (4) on its way up: the record's words
before its payload (Tables 7.6, 7.8, 7.9), the payload bytes carried from offset `ofs`, the payload string's length LEN_M1 + 1,
and what the host side judges it by (R425 to R427). -/
structure FrameUp where
  kind : Nat
  head : List W16
  body : List Byte
  chan : Nat
  rxId : W16
  sec : Bool
  cut : Bool
  status : Nat
  ofs : Nat
  frameLen : Nat
  deriving DecidableEq, Repr

/-- A command accepted and not yet answered (R308). `crossed` says that its CMD_LINE has been sent (R452); `touched` are the frames of a submission whose
data bytes the host has written since the acceptance (R231). -/
structure Accepted where
  cmd : Cmd
  opcode : Nat
  at_ : Tick
  crossed : Bool
  src : W32 × W16
  touched : List Nat := []
  deriving DecidableEq, Repr

/-- What the host side notes of a frame or action sent to the line side (R455): the command's tag and transport, the action and the frame's
index in it, and what the record that closes it tells: class, epoch kind and unit, planned launch, strokes slipped, SEQ and LEVEL. `closed`
says that the host side has closed it with a record of its own. -/
structure Note where
  tag : W16
  via : Transport
  action : Nat
  index : Nat
  frame : Bool
  cls : Nat
  kind : Nat
  unit : Nat
  ofs : Nat
  planned : Tick
  slipped : Nat
  seq : W16
  level : Nat
  closed : Bool
  deriving DecidableEq, Repr

/-- The reply of the line side to one command (R301, R314), with what the host side takes in from it: the note of an accepted action (R455) and
the accepted frames, which enter the transmit frame queue (R337). -/
structure LineReply where
  via : Transport
  tag : W16
  words : List W16
  note : Option Note
  frames : List HostFrame
  deriving DecidableEq, Repr

/-- The barrier messages of Table 1.3. HEARTBEAT carries no state of its own here: its row gives its arrival. `outcome` of an EVENT names the
action and the frame whose one outcome record it is (R94). `frameGone` and `retracted` are internal messages like the SEQ grants of R522: a frame
that the host side has dropped with a cause before it crossed, and a channel one of whose frames the host side has retracted (log 84). -/
inductive Msg where
  | cmdLine (a : Accepted)
  | frameDown (action index : Nat) (payload : List Byte)
  | frameGone (action index chan cause : Nat)
  | retracted (chan : Nat)
  | frameUp (up : FrameUp)
  | lineReset (code : Nat)
  | replyLine (r : LineReply)
  | event (p : Packet) (outcome : Option (Nat × Nat))
  | timeSync (timebase : Tick) (step : Option (Tick × Nat))
  | alarm
  deriving DecidableEq, Repr

/-! ## The device -/

/-- A rung exit in progress (R483, R486): when it began, and the source of the earliest wake. -/
structure RungExit where
  began : Tick
  source : Nat
  deriving DecidableEq, Repr

/-- Device control and the always-on domain (R26, R459, R488). `owedBoot` lists the entries into BOOT whose mode-change event is to come: old
mode, new epoch, cause (R520). `owedDone` lists the resets whose RESET_DONE is to come, `owedKeys` the slots whose KEY_STATE of a host-side reset
is to come: slot, state before, new epoch. `bootDigest` and `bootGen` are the copy of R488, `pattern` the source that drives the reset pattern
(R472). -/
structure Dev where
  mode : Mode
  modeEpoch : W16
  held : Mode
  islandAuto : Bool
  owedBoot : List (Mode × W16 × Nat)
  owedDone : List Nat
  owedKeys : List (Nat × Nat × W16)
  bootDigest : List Byte
  bootGen : Nat
  rung : Rung
  wakeMask : W16
  exit : Option RungExit
  gradeE : Bool
  serial : W64
  nid : BitVec 26
  strap : Nat
  i2cPointer : Byte
  i2cRead : List Byte := []
  resetPin : Bool
  hostRails : Bool
  lineRails : Bool
  lineReset : Bool
  pattern : Option Nat
  linePwrLow : Bool
  bootDeadline : Option Tick
  alarmActive : W16
  alarmLatched : W16
  lineAlarm : Bool
  alarmAt : Tick
  alarmLast : Nat
  tamperEnable : BitVec 4
  tamperHigh : BitVec 4
  debounce : Nat
  deriving DecidableEq, Repr

/-! ## Host side -/

/-- Where a queue delivers (R319, R333). -/
inductive Dest where
  | pcie | udp | sp0
  deriving DecidableEq, Repr

/-- A packet as it stands in a queue: its remaining entries with their marks, whether it is provisional (R327),
whether its first entry is an unread length slot (R328), whether its first word has been taken through the window, and where a reply on UDP goes. -/
structure QPacket where
  entries : List (W16 × BitVec 2)
  prov : Bool
  slot : Bool
  begun : Bool
  to_ : W32 × W16 := (0, 0)
  deriving DecidableEq, Repr

/-- An access to a queue's register block that waits behind a stalling read (R331, R343): a read of H_Qn_DATA, H_Qn_LOST or H_Qn_HWM, or a write of
a register at an offset of the block. -/
inductive QAccess where
  | read | lost | hwm
  | write (reg : Nat) (value : W32)
  deriving DecidableEq, Repr

/-- One message queue (R322 to R343). `kept` names the frames, by channel and RX_ID, for whose retract record 18 words are reserved (R335). `waiting` are the
accesses that wait, the stalling read at the head, and `stallEnd` the instant at which that read has waited STALL_LIMIT (R330). -/
structure Queue where
  pkts : List QPacket
  hold : List Packet
  kept : List (Nat × W16)
  lastWord : W16
  lastMark : BitVec 2
  lost : Ctr
  lostSince : Nat
  hwm : Nat
  epoch : W16
  loss : Bool
  underrun : Bool
  access : Bool
  framing : Bool
  baseF : W32
  depthF : Nat
  ctrl : W32
  base : W32
  depth : W32
  waiting : List QAccess
  stallEnd : Tick
  dest : Dest
  destAddr : W32
  destPort : W16
  deriving DecidableEq, Repr

/-- A ring in host memory (R350 to R353). -/
structure Ring where
  baseLo : W32
  baseHi : W32
  ctrl : W32
  prod : W32
  cons : W32
  holdoffEnd : Tick
  owedCause : Bool
  deriving DecidableEq, Repr

/-- A frame of which records have crossed and whose final record has not (R219, R220, R335, R340): segments placed and their
bytes, its SYNC reference instant, channel epoch. `closed` after a queue reset, `lossy` after a lost segment, `drop` when a
NO_KEY or FORMAT record has ended it, `sec` when a cipher engine takes its segments. -/
structure CutFrame where
  chan : Nat
  rxId : W16
  closed : Bool
  lossy : Bool
  drop : Bool
  sec : Bool
  segments : Nat
  bytes : Nat
  sync : List W16
  epoch : W16
  deriving DecidableEq, Repr

/-- The received records of a channel in order behind a secured frame that waits for its engine (R428). -/
inductive RxSlot where
  | pending (chan : Nat) (rxId : W16)
  | ready (up : FrameUp)
  deriving DecidableEq, Repr

/-- A UDP datagram that left the device: where it goes, and its payload bytes in the order in which they travel (R9, R306). -/
structure Datagram where
  dest : W32
  port : W16
  bytes : List Byte
  deriving DecidableEq, Repr

/-- What the Ethernet port sends of its own (R355): an ARP request, an ARP reply or an echo reply, and to whom. -/
inductive EthAnswer where
  | arpRequest (target : W32)
  | arpReply (to_ : W32)
  | echoReply (to_ : W32) (data : List Byte)
  deriving DecidableEq, Repr

/-- A command packet of a datagram that waits in the receive buffer of the port (R336, R356): where it came from, the receipt of its datagram, its words, and
the bytes of the buffer that are free again once it is read. -/
structure NetPacket where
  src : W32 × W16
  at_ : Tick
  words : List W16
  size : Nat
  deriving DecidableEq, Repr

/-- The Ethernet port (R354 to R356): `arp` lists the addresses resolved, `buffered` the frames that wait in DRIFT, `waiting` the command packets
that no command processor has read yet. -/
structure Eth where
  ctrl : W32
  ipv4 : W32
  link : Bool
  arp : List W32
  buffered : List EthFrame
  waiting : List NetPacket := []
  dseq : List W16
  sent : List Datagram
  answers : List EthAnswer
  deriving DecidableEq, Repr

/-- The PTP clock (R357, R358): H_PTP_CTRL and the value of it in force; whether PTP has still to qualify again; the grandmaster; the port that it is
followed through with what its Announce tells; the mean path delay in ticks, once measured; a two-step Sync that waits for its Follow_Up, with the
sequenceId and the capture of the Sync; and the last Sync whose origin is known, with its capture. -/
structure Ptp where
  ctrl : W32
  inForce : W32 := 0
  requalify : Bool
  grandmaster : W64
  best : Option (PtpHead × PtpGrade) := none
  path : Option Int := none
  open_ : Option (W16 × Tick) := none
  last : Option (Int × Tick) := none
  deriving DecidableEq, Repr

/-- The line of a serial port (R381). -/
inductive LineState where
  | idle | brk | stuck
  deriving DecidableEq, Repr

/-- What a block of the receive region is (R371): its index and entries when it closed. -/
structure Filling where
  block : Nat
  entries : List W16
  firstEdge : Tick
  lastAt : Tick
  deriving DecidableEq, Repr

/-- A character in the receive buffer (R370): its entry, its start edge and its completion, and the cause with which a block closes behind it, where a
timeout or a disable has come while it waited (R371, R373). -/
structure RxEntry where
  entry : W16
  edge : Tick
  done : Tick
  closes : Option Nat := none
  deriving DecidableEq, Repr

/-- A transmit descriptor (R375): byte offset, entries, entries already sent. -/
structure TxDesc where
  ofs : Nat
  count : Nat
  sent : Nat
  deriving DecidableEq, Repr

/-- A serial port (R364 to R388). `lowSince` is the start edge of the low that the line is in, `queueWaiting` the reads of the receive queue that wait with the
instant `queueStallEnd` at which the first has waited STALL_LIMIT, and `txAfter` the end of the bit time of 1 behind a break (R376). -/
structure Serial where
  ctrl : W32
  rate : W32
  line : W32
  limits : W32
  status : BitVec 6
  ie : W32
  rxbuf : W32
  rxbufF : W32
  rxqCtrl : W32
  rxFormat : W32 × W32
  txFormat : W32 × W32
  rxd : Bool
  lineState : LineState
  lowSince : Option Tick := none
  edge : Option Tick
  edgeFormat : W32 × W32
  timeout : Option Tick
  stoppedTimeout : Option Tick
  fifo : List RxEntry
  lostPending : Bool
  lostSince : Nat
  wakePending : Option Rung
  filling : Option Filling
  nextBlock : Nat
  held : Nat
  queue : List QPacket
  queueLast : W16 × BitVec 2
  queueEpoch : W16
  queueWaiting : Nat
  queueStallEnd : Tick
  descs : List TxDesc
  shifter : Option (BitVec 9)
  shiftAt : Tick
  txAfter : Tick
  breakFrom : Option Tick
  breakEnding : Bool
  de : Bool
  tailFrom : Option Tick
  rts : Bool
  cts : Bool
  done : W16
  drop : Bool
  route : Bool
  ctrs : List Ctr
  deriving DecidableEq, Repr

/-- The three states of a key slot (R418). -/
inductive SlotState where
  | empty | loaded | exhausted
  deriving DecidableEq, Repr

/-- A key slot (R417 to R422). -/
structure KeySlot where
  staging : List W32
  cfg : W32
  state : SlotState
  key : List Byte
  len : Nat
  keyId : W16
  txEn : Bool
  rxEn : Bool
  rxStream : Bool
  counter : Nat
  epoch : W16
  writes : List Tick
  deriving DecidableEq, Repr

/-- Cipher modes (R411). -/
inductive CMode where
  | ctr | ccm | gcm
  deriving DecidableEq, Repr

/-- Where a cipher operation comes from (Table 16.4, ORIGIN). -/
inductive Origin where
  | tx (action index : Nat)
  | rx (chan : Nat) (rxId : W16)
  | run
  deriving DecidableEq, Repr

/-- A cipher operation, waiting or in a context (R415 to R419). `input` holds the data or frame bytes already read, or the hop header of a frame to send, `segs` the
segments of a frame not yet released, `final` the line's final record, `erased` that its slot was erased and whether by an alarm,
`touched` that host software has written its buffers (R429). -/
structure CipherOp where
  origin : Origin
  tag : W16
  mode : CMode
  decrypt : Bool
  stream : Bool
  slot : Nat
  tagLen : Nat
  aadLen : Nat
  src : Nat
  dst : Nat
  len : Nat
  nonce : List Byte
  accepted : Tick
  launch : Tick
  frameEnd : Tick
  key : List Byte
  keyLen : Nat
  keyId : W16
  slotEpoch : W16
  keyChanged : Bool
  erased : Option Bool
  input : List Byte
  released : Nat
  written : Nat
  segs : List FrameUp
  final : Option FrameUp
  zeroing : Bool
  touched : Bool := false
  deriving DecidableEq, Repr

/-- A cipher engine: active and suspended contexts and the counters of Table 16.7. -/
structure Engine where
  active : Option CipherOp
  suspended : Option CipherOp
  ctrs : List Ctr
  deriving DecidableEq, Repr

/-- The settings that a check run latched (R439). -/
structure CuRun where
  ctrl : W32
  src : Nat
  len : Nat
  addr : W32
  fold : W32
  expect : W32
  deriving DecidableEq, Repr

/-- A check unit (R437 to R446). -/
structure CheckUnit where
  ctrl : W32
  src : W32
  len : W32
  addr : W32
  fold : W32
  expect : W32
  result : W32
  status : BitVec 5
  misCount : Ctr
  run : Option CuRun
  deriving DecidableEq, Repr

/-- An access that waits for a handover or for the return from MOORED (R394, R406), with the bytes that its earlier rows have read (R397). -/
structure HeldAccess where
  req : BankReq
  got : List Byte
  deriving DecidableEq, Repr

/-- A handover in progress (R394): original owner, instant of the first OWNER write, accesses in flight and waiting. -/
structure Handover where
  original : Nat
  began : Tick
  inFlight : Nat
  waiting : List HeldAccess
  deriving DecidableEq, Repr

/-- H_HBnn_OWN and the test of one host bank (R394, R404, Table 15.7). -/
structure HostBank where
  owner : Nat
  march : Bool
  vital : Bool
  shared : Bool
  reservedBits : W32
  failed : Bool
  handover : Option Handover
  faults : Ctr
  deriving DecidableEq, Repr

/-- When a master last had a conflict report of one kind, and how many were suppressed since (R408). -/
structure Report where
  master : Nat
  kind : Nat
  last : Tick
  suppressed : Nat
  deriving DecidableEq, Repr

/-- Where a march tester stands (R401): bank, groups done in it, and the direction of the pass. -/
structure March where
  bank : Nat
  done : Nat
  down : Bool
  last : Option Tick
  deriving DecidableEq, Repr

/-- The host memory registers, counters, march tester, and the accesses that wait while the banks are retained (R401, R406, R408, R410). -/
structure HostMem where
  banks : List HostBank
  status : BitVec 5
  ie : W32
  csel : W32
  conflicts : List (Nat × Ctr)
  marchFails : Ctr
  reports : List Report
  march : March
  held : List HeldAccess
  deriving DecidableEq, Repr

/-- A flash slot: header bytes and body bytes (Table 19.5). -/
structure FlashSlot where
  header : List Byte
  body : List Byte
  deriving DecidableEq, Repr

/-- A FLASH_PROGRAM in progress (R479). -/
structure FlashJob where
  tag : W16
  via : Transport
  region : Nat
  ok : Bool
  image : FlashSlot
  deriving DecidableEq, Repr

/-- The read modes of the flash (R361): the lines of command, address and data. -/
inductive FlashMode where
  | x111 | x114 | x144
  deriving DecidableEq, Repr

/-- What the SFDP table of the flash lists (R361): its size in MiB, the faster read modes, and the page-program and erase commands. -/
structure Sfdp where
  size : Nat
  modes : List FlashMode
  program : Byte
  erase : Byte
  deriving DecidableEq, Repr

/-- The flash, the slots in use and the programming job (R361, R475 to R479): its SFDP table where it has one, the read mode and the bound on its clock in
MHz, and the commands that the device has given it since its reset. -/
structure Flash where
  slots : List FlashSlot
  sfdp : Option Sfdp
  readMode : FlashMode := .x111
  clock : Nat := 25
  issued : List Byte := []
  inUse : List (Option Nat)
  job : Option FlashJob
  deriving DecidableEq, Repr

/-- The host's interrupt registers and MSI-X (R348). -/
structure Ints where
  cause : W32
  mask : W32
  msixTable : List W32
  msixPending : W16
  msixEnable : Bool
  functionMask : Bool
  busMaster : Bool
  d3hot : Bool
  sent : List Nat
  deriving DecidableEq, Repr

/-- The PCI Express configuration space beside what `Ints` holds (R344, R345; log 11): Command without Bus Master Enable, the BARs, Device Control with the
payload and read request sizes, Link Control with ASPM, and AER: status, mask and severity of uncorrectable errors, status and mask of correctable
ones, and the control of ECRC. -/
structure PciConfig where
  command : W16
  bar0 : W32
  bar2 : W64
  devCtl : W16
  linkCtl : W16
  uncStatus : W32
  uncMask : W32
  uncSeverity : W32
  corStatus : W32
  corMask : W32
  aerCtl : W32
  deriving DecidableEq, Repr

/-- Host-side state reached by no other structure. `readsDone` are the values that reads which waited have returned, `tdo` the data register that the test port
shifts out (R363), `sp0Buf` the characters in CP0's buffer of SP0 with their instants, `sp0Skip` whether the frame under way is discarded, and `sp0Out` the
frame that SP0 sends with the characters already sent (R386). `followerAhead` and `followerBehind` are the ticks that the follower has still to hold back or to
take in, `followerFree` the ticks that it has run from the host-side reference since the last TIME_SYNC (R43), `followerCoarse` how far it is from the
time it keeps while that moves in steps of 30 (R483). -/
structure HostSide where
  running : Bool
  bootId : W16
  follower : Tick
  followerCoarse : Int
  followerFree : Nat
  followerAhead : Nat
  followerBehind : Nat
  inSync : Bool
  firstSync : Bool
  lastSync : Tick
  syncStep : Option (Tick × Nat)
  timeHi : W32
  ppsOut : Option Tick
  accepted : List Accepted
  queues : List Queue
  txq : List HostFrame
  txHwm : Nat
  cuts : List CutFrame
  rxOrder : List RxSlot
  notes : List Note
  downAt : Option Tick
  discarded : Nat
  ints : Ints
  pci : PciConfig := ⟨0, 0, 0, 0x2000, 0, 0, 0, 0x462030, 0, 0x2000, 0⟩
  jtag : JtagInstr := .bypass
  tdo : List Bool := [false]
  rings : List Ring
  eth : Eth
  ptp : Ptp
  serials : List Serial
  sp0Buf : List (Byte × Tick)
  sp0Skip : Bool := false
  sp0Out : Option (List Byte × Nat) := none
  sp0Sent : List (List Byte)
  keys : List KeySlot
  engines : List Engine
  cipherQ : List CipherOp
  ceStatus : BitVec 6
  ceIe : W32
  cus : List CheckUnit
  mem : HostMem
  flash : Flash
  stamps : List (Nat × Tick)
  adjusted : Ctr
  seqNext : W16
  transport : List Ctr
  margins : List (Tick × W16)
  marginLow : Bool
  marginOwed : Bool
  marginOkFrom : Option Tick
  readData : W32
  readsDone : List W32 := []
  readBytes : List Byte
  nodeIdSeen : W32
  freeCtr : Nat
  deriving DecidableEq, Repr

/-! ## Line side -/

/-- The timebase (R37 to R41). `tb` is its 64-bit WRAP count with the wraps counted on (log 16), `frac` its 32 fraction bits; the rate correction `c` in 2^-32, the offset still to slew in
ticks with the part of the last of them already done in 2^-32, and `coarse` how far the count shown is from the accumulator while time moves in steps of 30. `nco` counts what the
factor 1 + c has gained since the reset in 2^-32 ticks, without the steps: every NCO turns by it (R39, R144). -/
structure Clock where
  tb : Tick
  frac : Nat
  c : Int
  slew : Int
  slewAcc : Nat
  coarse : Int
  disciplined : Bool
  ref10m : Bool
  nco : Nat
  deriving DecidableEq, Repr

/-- The line-side banks: VITAL and test marks, counters (R403, R409), reports and march tester; what the last reads on port B, or the only port, and on port A have
returned, and whether the last access of port B received WRITE_LOST (R399, R400). -/
structure LineMem where
  vital : List Bool
  marked : List Bool
  conflicts : List Ctr
  writeLost : List Ctr
  faults : List Ctr
  marchFails : Ctr
  reports : List Report
  march : March
  readBytes : List Byte
  readBytesA : List Byte
  lostB : Bool
  deriving DecidableEq, Repr

/-! ### Grid time -/

/-- A segment of the grid schedule (R60), with the P_B of the beacon that carried it; 0 for a provisional one (R521). -/
structure Seg where
  nEff : W32
  bEff : Tick
  pRaw : Nat
  pb : Nat
  deriving DecidableEq, Repr

/-- The states of a sense input (Table 2.3). -/
inductive SenseState where
  | valid | lost | noisy | off
  deriving DecidableEq, Repr

/-- A sense input and its tracker (R53 to R55): `anchor` is the last accepted crossing and its angle, `freq` in mHz, `accepted` the
consecutive accepted crossings, `rejected` those refused in the cycle that began at `cycleFrom`, `noisy` the noisy cycles before it,
`samples` the last 64 angles of positive crossings on the ZXA1 tracker. -/
structure Sense where
  state : SenseState
  anchor : Option (Tick × W16)
  freq : Nat
  accepted : Nat
  rejected : Nat
  cycleFrom : Tick
  noisy : Nat
  offset : Option W16
  samples : List W16
  deriving DecidableEq, Repr

/-- A cox rank heard (R64): the schedule that its beacon carried, and the grid stroke in which it was heard. -/
structure Rank where
  node : W32
  stratum : Nat
  heard : W32
  pb : Nat
  segs : List Seg
  deriving DecidableEq, Repr

/-- A neighbour that answered a time-transfer request (R50), with the E that this node has below it (R49). -/
structure TtAnswer where
  node : W32
  stratum : Nat
  e : Nat
  below : Nat
  deriving DecidableEq, Repr

/-- An open time-transfer request (R171). -/
structure TtOpen where
  exch : W16
  stroke : W32
  t1 : Tick
  parent : W32
  deriving DecidableEq, Repr

/-- A frame that the device itself originates (R170, R174, R262): where and when it launches, and what it carries. -/
structure OwnFrame where
  chan : Nat
  port : Option Nat
  type : Nat
  mod : Nat
  rate : Nat
  lift : Nat
  bytes : List Byte
  launch : Tick
  deriving DecidableEq, Repr

/-- A waiting TIME_SET (R46). -/
structure TimeSet where
  cmd : Accepted
  second : Nat
  reached : Tick
  deriving DecidableEq, Repr

/-- The time unit (R37 to R75). `cfg` holds the 16 device rows of Table 2.2 as TIME_CONFIGURE encodes them. `eBase` is E while a
source disciplines and at the loss of the last one; `lostAt` that loss; `entryAt` the entry into HOLDOVER without a loss (R33); `blindEnd` the last instant at which no
sense input was VALID (R58); `firstStep` that the step of the first source is still to be made (R40). -/
structure Time where
  cfg : List Nat
  epoch : W16
  source : Nat
  stratum : Nat
  eBase : Nat
  lostAt : Option Tick
  entryAt : Option Tick
  faulted : Bool
  offset : Int
  stepDue : Option Nat
  firstStep : Bool
  stepAt : Option Tick
  ppsQual : Bool
  ppsGood : Nat
  ppsBad : Nat
  ppsLast : Option Tick
  second : Option Nat
  ptpQual : Bool
  ptpGood : Nat
  ptpLast : Option Tick
  ptpOffset : Int
  bcnQual : Bool
  bcnStrokes : List W32
  bcnDelays : List Int
  bcnOffset : Int
  parentE : Nat
  parentStratum : Nat
  timeSet : Option TimeSet
  laneDelay : Nat
  sense : List Sense
  blindEnd : Tick
  ref : Nat
  segs : List Seg
  adopting : Option (Tick × List Seg)
  gridLast : Option W32
  synthLast : Option W32
  ranks : List Rank
  cox : Option (W32 × Nat)
  isCox : Bool
  answers : List TtAnswer
  parent : Option W32
  exch : W16
  open_ : Option TtOpen
  planned : List OwnFrame
  crewHeld : Bool
  ctrs : List Ctr
  deriving DecidableEq, Repr

/-! ### Ports and channels -/

/-- The magnitude, as a word, and the angle of a load impedance, and its exact squared magnitude as a ratio (R128, R130). -/
structure Impedance where
  mag : W16
  angle : W16
  square : Nat × Nat
  deriving DecidableEq, Repr

/-- The last load impedance of a transmitting channel with its block's first symbol (R128), and the reliable block of its frame, which launched at `frame`, that
IMP_STEP compares with (R130). -/
structure ZEntry where
  chan : Nat
  mag : W16
  angle : W16
  at_ : Tick
  frame : Tick
  symbol : Nat
  last : Option Impedance
  deriving DecidableEq, Repr

/-- An on-air ending that goes on after its frame is over, because another port carried the frame to its end: the channel, the instant at which the ending
began at the converter, its cause, and the frame's placement (R241). -/
structure LateEnd where
  chan : Nat
  at_ : Tick
  cause : Nat
  f : W32
  rateK : Nat
  deriving DecidableEq, Repr

/-- A line port (R115 to R130). `cfg` holds the 14 rows of Table 4.2 as PORT_CONFIGURE encodes them; `holders` the channels whose
transmission holds LPnn_DRVEN high, one entry a transmission, `fallAt` when it falls; `faultDue` the FAULT that
follows an ending under way, with its cause; `lateEnds` the endings under way of frames that are over, `tails` the bands of transmissions that have ended, each with
the end of its hold 10 µs later (R135); `src` the configured STROKE_SRC, `srcNow` the source in force, `srcNext`
the source that waits for its first boundary since the instant beside it; `lastI` the squared rms of I in mA² over the last window, as a ratio, and `windowAt` that
window's end (R129); `clips` the clip samples of the stroke under way (R110, R111), `airEnd` and `markEnd` the last instants of a transmission and of a marked
sample on the port (R253); `locCount`, `locB`, `locHalf` the count, boundary and half-cycle of local strokes. -/
structure Port where
  cfg : List Nat
  muted : Bool
  fault : Bool
  cause : Nat
  cpl : Bool
  drven : Bool
  holders : List Nat
  fallAt : Option Tick
  fltSince : Option Tick
  fltTaken : Bool
  faultDue : Option (Tick × Nat)
  bands : List (Nat × Nat)
  notches : List (Nat × Nat)
  epoch : W16
  src : Nat
  input : Nat
  sofs : Nat
  srcNow : Nat
  srcNext : Option (Nat × Tick)
  locCount : W32
  locB : Tick
  locHalf : Bool
  lateEnds : List LateEnd
  tails : List (Tick × Int × Int)
  zs : List ZEntry
  peak : Nat
  overRun : Nat
  lastI : Nat × Nat
  windowAt : Tick
  clips : List ClipSample
  airEnd : Tick
  markEnd : Tick
  settle : Option Tick
  mapSlot : Nat
  mapF0 : Nat
  mapBinw : Nat
  mapAvg : Nat
  loop : Option Nat
  ctrs : List Ctr
  deriving DecidableEq, Repr

/-- A complex number with rational parts. -/
structure Cq where
  re : Rat
  im : Rat
  deriving DecidableEq, Repr

/-- A soft value as the decoder takes it in (R189): a known 0 of the largest reliability, or the combined value, 0 for no reliability. -/
inductive Soft where
  | known
  | value (x : Rat)
  deriving DecidableEq, Repr

/-- What SYNC gives of a frame (R201, R208): its launch instant at the port, the square of the metric M, carrier offset in mHz, the initial gain G and
the initial noise variance. -/
structure Lock where
  launch : Tick
  square : Rat
  carrier : W32
  gain : Cq
  noise : Rat
  deriving DecidableEq, Repr

/-- A payload codeword that the decoder array holds (R192): its frame, index, class and frame end, its soft values, and whether it is on an engine
or waits for one. -/
structure Job where
  chan : Nat
  rxId : W16
  index : Nat
  cls : Nat
  endAt : Tick
  soft : List Soft
  engine : Bool
  deriving DecidableEq, Repr

/-- A header codeword in the decoder array whose context has been freed (R194): it is finished and counted all the same. `at_` is the instant at which
its header was complete, `marks` are the marked samples of its channel. -/
structure HeaderWord where
  chan : Nat
  ctx : Nat
  at_ : Tick
  rep : Nat
  lock : Lock
  rateK : Nat
  syms : List Cx
  marks : List (Tick × Tick)
  cfg : List Nat
  deriving DecidableEq, Repr

/-- A codeword that has ended (R190, Table 7.7). -/
structure CwEnd where
  bits : Bits
  status : Nat
  iters : Nat
  erased : Nat
  evm : W16
  deriving DecidableEq, Repr

/-- A wash span in data symbols, both ends included (R211): its KIND and its noise and gain steps in Q8.8 dB, `rest` while it has not settled,
`told` when its event is out or none is due (R212). -/
structure WashSpan where
  first : Nat
  last : Nat
  rest : Bool
  kind : Nat
  noise : Int
  gain : Int
  told : Bool
  deriving DecidableEq, Repr

/-- A committed frame in reception (R205 to R221), its instants less RX_TRIM (R113). `lock` is what SYNC gave, `syms` the data symbols and pilots
received so far, in order; `hdr` is the PHY header, `cfg` the channel settings
at the commit, `endAt` the frame end or the truncation instant, `trunc` that instant (R207), `erased` the erased symbols once they are
counted, `closed` that the barrier went down after a segment had crossed (R220). -/
structure RxFrame where
  rxId : W16
  ctx : Nat
  epoch : W16
  launch : Tick
  hdr : Nat
  rep : Nat
  lock : Lock
  syms : List Cx
  cfg : List Nat
  port : Nat
  rateK : Nat
  f : W32
  endAt : Tick
  trunc : Option Tick
  overlap : Bool
  erased : Nat
  spans : List WashSpan
  washes : Nat
  phase : W16
  stroke : W32
  ofs : Int
  cws : List (Option CwEnd)
  segs : Nat
  segBytes : Nat
  cutOff : Bool
  closed : Bool
  snr : W16
  evm : W16
  power : W16
  deriving DecidableEq, Repr

/-- What a received frame record tells beside the frame itself: its status, CUT, bytes and received check (R223). -/
structure FinalRecord where
  status : Nat
  cut : Bool
  bytes : List Byte
  check : W32
  deriving DecidableEq, Repr

/-- A frame whose decoding is over while a candidate that may meet it is still to pass or fail: its record, once it is due, waits for OVERLAP (R203). -/
structure EndedFrame where
  frame : RxFrame
  owed : Option FinalRecord
  deriving DecidableEq, Repr

/-- A preamble context in use (R202): an uncommitted candidate with its declaration, the hypotheses still to test, the data symbols and pilots
received and the soft values of the last header test (R189), or a committed frame until its end. -/
inductive Ctx where
  | cand (k : Lock) (declared : Tick) (todo : List Nat) (syms : List Cx) (soft : List Soft)
  | committed (rxId : W16) (endAt : Tick)
  deriving DecidableEq, Repr

/-- One entry of a port set during a frame (R235, R237, R241): its level in 0.25 dB below full scale, whether it started, and the instant and cause of an early ending. -/
structure TxEntry where
  port : Nat
  trim : Nat
  level : Nat
  started : Bool
  ended : Option (Tick × Nat)
  complete : Bool
  deriving DecidableEq, Repr

/-- A relayed copy (R282 to R291): its relay channel `chan` and receiving channel `rx`, the received PHY header, check and LEN_M1, DEST and
SEQ as kept at the decision, the hop fields it will carry, and the bytes to send once it is checked and resident. -/
structure Copy where
  id : Nat
  type : Nat
  chan : Nat
  rx : Nat
  hdr : Nat
  check : W32
  len : Nat
  dest : W32
  src : W32
  seq : W16
  floodId : W16
  htg : Nat
  hc : Nat
  launch : Tick
  stroke : W32
  spread : Nat
  decided : Tick
  resident : Option (List Byte)
  deriving DecidableEq, Repr

/-- What is on air (R246, R294): a host frame, a relayed copy, or a frame of the device's own. -/
inductive AirKind where
  | host (tag : W16) (action index slipped : Nat) (seq : W16) (level : Nat)
  | relay (copy : Copy)
  | own (type : Nat)
  deriving DecidableEq, Repr

/-- A frame on air (R237 to R246): its PHY header, its payload string with the frame check, from which the symbols follow
(R159 to R163), and its entries. `data` is the range of the host banks that a host frame's data bytes came from, and their place in `bytes` (R231). `clip` is its CLIP flag, `epoch` is the channel epoch at L (Table 8.4), `size` its payload in the staging pool, `nco`
the count of `Clock.nco` at L (R144). -/
structure OnAir where
  kind : AirKind
  epoch : W16
  hdr : Nat
  bytes : List Byte
  data : Option (Nat × Nat × Nat)
  launch : Tick
  endAt : Tick
  symbols : Nat
  txb : Nat
  entries : List TxEntry
  steps : Nat
  clip : Bool
  size : Nat
  f : W32
  rateK : Nat
  nco : Nat
  deriving DecidableEq, Repr

/-- A modem channel. `marks` holds the finished intervals whose samples are marked (R127, R135), `ctxEnd` the last instant at which a context was in
use (R253), `lastEnd` the latest end of a frame
whose decoding is over, `ended` those of them that a candidate may still meet. `cfg` holds the 33 settings of Table 11.15 as CHANNEL_MODE encodes them; the counter lists are those of Tables
4.8, 6.11, 7.11, 8.5 and 9.9, WRAP rows left out. -/
structure Chan where
  place : Option Placement
  cfg : List Nat
  via : Nat
  epoch : W16
  ctx : List (Option Ctx)
  frames : List RxFrame
  rxCount : W16
  holdFrom : Option Tick
  holdUntil : Option Tick
  marks : List (Tick × Tick)
  ctxEnd : Tick
  lastEnd : Tick
  ended : List EndedFrame
  onAir : Option OnAir
  origin : W16
  grants : Nat
  grantMin : Nat
  distRun : Nat
  headRun : Nat
  adviceAt : Option W32
  reportAt : Option W32
  ctrs4 : List Ctr
  ctrs6 : List Ctr
  ctrs7 : List Ctr
  ctrs8 : List Ctr
  ctrs9 : List Ctr
  deriving DecidableEq, Repr

/-! ### Relay engine and link table -/

/-- A GOOD frame on its way through the relay engine (R274): its receive state, payload bytes, received check and measures. -/
structure GoodFrame where
  chan : Nat
  frame : RxFrame
  bytes : List Byte
  check : W32
  deriving DecidableEq, Repr

/-- A flood-group entry (Table 10.2). -/
structure FloodGroup where
  id : W16
  relay : Bool
  deliver : Bool
  floor : Int
  spread : Nat
  deriving DecidableEq, Repr

/-- A hop table entry (R276). -/
structure HopEntry where
  index : Nat
  node : W32
  hops : Nat
  static : Bool
  updated : Tick
  deriving DecidableEq, Repr

/-- A duplicate cache entry (R275). -/
structure DupEntry where
  src : W32
  seq : W16
  stroke : Option W32
  deriving DecidableEq, Repr

/-- The relay engine (R274 to R296). -/
structure Relay where
  ucRelay : Bool
  ucFloor : Int
  hopAge : Nat
  report : Nat
  groups : List FloodGroup
  dups : List DupEntry
  early : Nat
  earlyAge : Nat
  earlyIn : Option W32
  hops : List HopEntry
  epochs : List (Nat × W16)
  inbox : List GoodFrame
  copies : List Copy
  nextId : Nat
  ctrs : List Ctr
  drops : List Ctr
  hwm : Ctr
  deriving DecidableEq, Repr

/-- A neighbour's report about this node (R264). -/
structure PeerReport where
  snr : W16
  evm : W16
  iter : Nat
  wash : Nat
  at_ : W32
  deriving DecidableEq, Repr

/-- A link entry (Table 9.2). The averages are exact (R258), in dB, none until a frame had the measure (R250), and iterations; `heardStroke` ages
it, `washed` lists the strokes with a wash, `dropped` is wash_drop as last evaluated (R268), `lastLen` the LEN_M1 of the last frame whose step it gave. -/
structure LinkEntry where
  index : Nat
  node : W32
  chan : Nat
  stale : Bool
  held : Nat
  snr : Option Rat
  evm : Option Rat
  iter : Rat
  washed : List W32
  heard : Ctr
  since : Nat
  heardAt : Tick
  heardStroke : W32
  report : Option PeerReport
  hyp : Nat
  profile : List Nat
  pin : Option Nat
  offset : Nat
  offsetAt : W32
  ups : Nat
  dropped : Nat
  lastLen : Option Nat
  deriving DecidableEq, Repr

/-- The link table (R257 to R273). -/
structure Links where
  entries : List LinkEntry
  epochs : List (Nat × W16)
  refused : Ctr
  inbox : List GoodFrame
  deriving DecidableEq, Repr

/-- The scheduler (R76 to R94): pending actions and the SAT counters of Table 3.10 but the adjusted timestamps. `lost` are the frames that had not arrived
when the barrier was lost: no record of the line side has counted them (R247). -/
structure Sched where
  actions : List Action
  nextId : Nat
  ctrs : List Ctr
  lost : List (Nat × Nat) := []
  deriving DecidableEq, Repr

/-- A line firmware update in MAINTAIN (R29, R34): the action, and where its image lies. -/
structure FwUpdate where
  action : Action
  offset : Nat
  len : Nat
  deriving DecidableEq, Repr

/-- The line side. It has no place for a key (R23). `jobs` holds the payload codewords in the decoder array (R192), `maps` the held powers of
the noise-map cells that have an observation, keyed by slot × 32768 + phase bin × 128 + frequency bin. -/
structure Line where
  ports : List Port
  chans : List Chan
  time : Time
  sched : Sched
  relay : Relay
  links : Links
  jobs : List Job
  headers : List HeaderWord
  maps : List (Nat × Rat)
  mapCtrs : List Ctr
  mem : LineMem
  clock : Clock
  stamps : List (Nat × Tick)
  adjusted : Ctr
  nodeId : W32
  netId : W16
  stageAhead : Nat
  linkAge : Nat
  reportLog : Nat
  seqs : List (W16 × Nat)
  beacons : List GoodFrame
  ttIn : List GoodFrame
  running : Bool
  ready : Bool
  bootId : W16
  release : W32
  lastReset : Nat
  down : Bool
  margins : List (Tick × W16)
  marginLow : Bool
  marginOwed : Bool
  marginOkFrom : Option Tick
  fw : Option FwUpdate
  out : List Msg
  hold : List Msg
  holdLost : Nat
  holdDiscarded : Nat
  deriving DecidableEq, Repr

/-! ## The barrier -/

/-- A message under way (R447, R448): `sent` is the instant at which it was sent last, `received` says that it is acknowledged and waits for its turn. -/
structure InFlight where
  msg : Msg
  sent : Tick
  retries : Nat
  received : Bool
  deriving DecidableEq, Repr

/-- One end of the barrier (R447 to R457): what this die has declared, heard and received. `flight` holds what it has sent,
oldest first, the first having sequence number `seq`. `lanes` and `fails` are of its receive lanes, `owed` what it
sends first at the next bring-up, and `beat` says that a HEARTBEAT of its own is on its way. -/
structure BarrierEnd where
  up : Bool
  heard : Nat
  lastValid : Tick
  missedFrom : Nat
  lanes : List Bool
  fails : List Nat
  flight : List InFlight
  seq : W16
  inbox : List Msg
  bootHeard : W16
  bootAtDown : W16
  firstUp : Bool
  owed : List Msg
  beat : Bool
  deriving DecidableEq, Repr

/-- The barrier: both ends, the timing lane and the counters of Table 18.5. -/
structure Link where
  host : BarrierEnd
  line : BarrierEnd
  timingUp : Bool
  suspended : Bool
  ctrs : List Ctr
  deriving DecidableEq, Repr

/-- The whole block. `hbMem` is the host-side banks by BAR2 offset, `lbMem` the line-side banks, `hostRam` the memory of
the host computer that the rings reach. -/
structure State where
  dev : Dev
  host : HostSide
  line : Line
  link : Link
  hbMem : Memory
  lbMem : Memory
  hostRam : Memory
  pending : List Instr
  deriving DecidableEq, Repr

/-! ## Reset

Each `reset` below is the value after reset: the specification's where it gives one, else the value that the named log
entry chooses. -/

/-- The device after host power-up: BOOT, epoch 1, both dies powered (R520; logs 9, 10, 11). -/
def Dev.reset : Dev :=
  { mode := .boot, modeEpoch := 1, held := .boot, islandAuto := false,
    owedBoot := [(.boot, 1, 0)], owedDone := [0, 1], owedKeys := [], bootDigest := [],
    bootGen := 0, rung := .row, wakeMask := 0, exit := none, gradeE := false, serial := 0, nid := 0,
    strap := 0, i2cPointer := 0, resetPin := true, hostRails := true, lineRails := true, lineReset := false, pattern := none,
    linePwrLow := false, bootDeadline := none, alarmActive := 0, alarmLatched := 0, lineAlarm := false,
    alarmAt := 0, alarmLast := 0, tamperEnable := 0, tamperHigh := 0, debounce := 1 }

/-- An empty queue with region `base` of `depth` words (Tables 12.1, 12.5 to 12.12; log 13). -/
def Queue.reset (base depth : Nat) : Queue :=
  { pkts := [], hold := [], kept := [], lastWord := 0, lastMark := 0, lost := Ctr.zero, lostSince := 0, hwm := 0, epoch := 0,
    loss := false, underrun := false, access := false, framing := false, baseF := BitVec.ofNat 32 base, depthF := depth,
    ctrl := 0x2810, base := BitVec.ofNat 32 base, depth := BitVec.ofNat 32 depth, waiting := [], stallEnd := 0, dest := .pcie, destAddr := 0,
    destPort := 0 }

/-- Queues 0 to 5 (Table 12.1). -/
def queuesReset : List Queue :=
  [Queue.reset 0x700000 65536, Queue.reset 0x740000 262144, Queue.reset 0x7C0000 16384, Queue.reset 0x7C8000 16384,
   { Queue.reset 0x7D0000 16384 with dest := .udp }, { Queue.reset 0x7D8000 16384 with dest := .sp0 }]

/-- A ring after reset (Tables 13.7 to 13.11). -/
def Ring.reset : Ring :=
  { baseLo := 0, baseHi := 0, ctrl := 6, prod := 0, cons := 0, holdoffEnd := 0, owedCause := false }

/-- The Ethernet port after reset (Tables 13.12, 13.13; log 9). -/
def Eth.reset : Eth :=
  { ctrl := 0x5E25, ipv4 := 0, link := false, arp := [], buffered := [], dseq := [0, 0, 0, 0], sent := [], answers := [] }

/-- Port SPn after reset (Tables 14.7 to 14.18). -/
def Serial.reset (n : Nat) : Serial :=
  let ctrl : W32 := if n = 0 then 0x183 else 0x180
  { ctrl := ctrl, rate := 0x8235, line := if n < 6 then 0x404010 else 0x400000,
    limits := if n < 6 then 0x64 else 0x04010064, status := 0, ie := 0, rxbuf := 0x07000008, rxbufF := 0x07000008,
    rxqCtrl := 0x500, rxFormat := (ctrl, 0x8235), txFormat := (ctrl, 0x8235), rxd := true, lineState := .idle, edge := none,
    edgeFormat := (ctrl, 0x8235), timeout := none, stoppedTimeout := none, fifo := [], lostPending := false, lostSince := 0,
    wakePending := none, filling := none, nextBlock := 0, held := 0, queue := [], queueLast := (0, 0), queueEpoch := 0,
    queueWaiting := 0, queueStallEnd := 0, descs := [], shifter := none, shiftAt := 0, txAfter := 0, breakFrom := none, breakEnding := false, de := false, tailFrom := none,
    rts := false, cts := false, done := 0, drop := false, route := false, ctrs := List.replicate 14 Ctr.zero }

/-- An EMPTY slot (R418, Tables 16.8 to 16.12). -/
def KeySlot.reset : KeySlot :=
  { staging := List.replicate 8 0, cfg := 0, state := .empty, key := [], len := 0, keyId := 0, txEn := false, rxEn := false,
    rxStream := false, counter := 0, epoch := 0, writes := [] }

/-- An idle engine (Table 16.13). -/
def Engine.reset : Engine := { active := none, suspended := none, ctrs := List.replicate 10 Ctr.zero }

/-- An idle check unit (Tables 17.4 to 17.11). -/
def CheckUnit.reset : CheckUnit :=
  { ctrl := 3, src := 0, len := 0, addr := 0, fold := 0, expect := 0, result := 0, status := 0, misCount := Ctr.zero, run := none }

/-- A host bank after a host-side reset (Tables 15.1, 15.7). -/
def HostBank.reset (nn : Nat) : HostBank :=
  { owner := if nn < 28 then 0x10 else 0x12, march := false, vital := false, shared := decide (nn < 28), reservedBits := 0,
    failed := false, handover := none, faults := Ctr.zero }

/-- A tester at the start of an ascending pass. -/
def March.reset : March := { bank := 0, done := 0, down := false, last := none }

/-- The host memory registers after reset (R407, Tables 15.8 to 15.11). -/
def HostMem.reset : HostMem :=
  { banks := (List.range 32).map HostBank.reset, status := 0, ie := 0, csel := 0x20, conflicts := [], marchFails := Ctr.zero,
    reports := [], march := March.reset, held := [] }

/-- The configuration space after reset (R344; log 11): no decoding enabled, payload 128 and read request 512 bytes, errors as PCI Express leaves them. -/
def PciConfig.reset : PciConfig :=
  { command := 0, bar0 := 0, bar2 := 0, devCtl := 0x2000, linkCtl := 0, uncStatus := 0, uncMask := 0, uncSeverity := 0x462030, corStatus := 0,
    corMask := 0x2000, aerCtl := 0 }

/-- A flash of 16 MiB whose slots are empty: the part and its contents lie outside the device (R361; log 15). -/
def Flash.reset : Flash :=
  { slots := List.replicate 6 { header := [], body := [] }, sfdp := some { size := 16, modes := [.x111, .x114, .x144], program := 0x12, erase := 0x21 }, inUse := [none, none, none], job := none }

/-- Interrupt registers and MSI-X after reset (Tables 13.3, 13.4; log 11): every vector masked. -/
def Ints.reset : Ints :=
  { cause := 0, mask := 0xFFFFFFFF, msixTable := (List.replicate 16 [0, 0, 0, 1]).flatten, msixPending := 0,
    msixEnable := false, functionMask := false, busMaster := false, d3hot := false, sent := [] }

/-- The host side after host power-up (R407, R434, R443, R471). -/
def HostSide.reset : HostSide :=
  { running := false, bootId := 0, follower := 0, followerCoarse := 0, followerFree := 0, followerAhead := 0, followerBehind := 0, inSync := false, firstSync := true, lastSync := 0,
    syncStep := none, timeHi := 0, ppsOut := none, accepted := [], queues := queuesReset, txq := [], txHwm := 0, cuts := [], rxOrder := [],
    notes := [], downAt := none, discarded := 0, ints := Ints.reset, pci := PciConfig.reset, jtag := .bypass, tdo := [false], rings := List.replicate 6 Ring.reset, eth := Eth.reset,
    ptp := { ctrl := 0, requalify := false, grandmaster := 0 }, serials := (List.range 8).map Serial.reset, sp0Buf := [],
    sp0Sent := [], keys := List.replicate 64 KeySlot.reset, engines := List.replicate 16 Engine.reset,
    cipherQ := [], ceStatus := 0, ceIe := 0, cus := List.replicate 8 CheckUnit.reset, mem := HostMem.reset, flash := Flash.reset,
    stamps := [], adjusted := Ctr.zero, seqNext := 0, transport := List.replicate 4 Ctr.zero, margins := [], marginLow := false,
    marginOwed := false, marginOkFrom := none, readData := 0, readBytes := [], nodeIdSeen := 0, freeCtr := 0 }

/-- The timebase as line-side reset is released (R38; log 9). -/
def Clock.reset : Clock :=
  { tb := 0, frac := 0, c := 0, slew := 0, slewAcc := 0, coarse := 0, disciplined := false, ref10m := false, nco := 0 }

/-- The line-side banks after a line-side reset (R407): LB62 and LB63 VITAL, none marked, counters clear. -/
def LineMem.reset : LineMem :=
  { vital := List.replicate 62 false ++ [true, true] ++ List.replicate 4 false, marked := List.replicate 68 false,
    conflicts := List.replicate 14 Ctr.zero, writeLost := List.replicate 4 Ctr.zero, faults := List.replicate 68 Ctr.zero,
    marchFails := Ctr.zero, reports := [], march := March.reset, readBytes := [], readBytesA := [], lostB := false }

/-- A sense input that has had no crossing (R54; logs 9, 12). -/
def Sense.reset : Sense :=
  { state := .lost, anchor := none, freq := 50000, accepted := 0, rejected := 0, cycleFrom := 0, noisy := 0, offset := none, samples := [] }

/-- The time unit as line-side reset is released (R38, Table 2.2; log 9). The provisional schedule is still to start (R521). -/
def Time.reset : Time :=
  { cfg := [7, 0, 50, 0, 1000, 10000, 20, 0, 64, 1, 64, 0, 0, 0xFE0C, 0xFF, 0], epoch := 0, source := 3, stratum := 15, eBase := 0xFFFF,
    lostAt := none, entryAt := none, faulted := false, offset := 0, stepDue := none, firstStep := false, stepAt := none, ppsQual := false, ppsGood := 0,
    ppsBad := 0, ppsLast := none, second := none, ptpQual := false, ptpGood := 0, ptpLast := none, ptpOffset := 0, bcnQual := false,
    bcnStrokes := [], bcnDelays := [], bcnOffset := 0, parentE := 0, parentStratum := 15, timeSet := none, laneDelay := 0,
    sense := List.replicate 6 Sense.reset, blindEnd := 0, ref := 0, segs := [], adopting := none, gridLast := none, synthLast := none, ranks := [],
    cox := none, isCox := false, answers := [], parent := none, exch := 0, open_ := none, planned := [], crewHeld := false,
    ctrs := List.replicate 16 Ctr.zero }

/-- A line port as line-side reset is released (R119, Tables 2.2, 4.2, 9.1; log 9). -/
def Port.reset : Port :=
  { cfg := [0, 0, 127, 0, 0, 10, 10, 0, 100, 1000, 100, 0, 6, 100], muted := true, fault := false, cause := 0, cpl := false, drven := false,
    holders := [], fallAt := none, fltSince := none, fltTaken := false, faultDue := none, bands := [], notches := [], epoch := 0, src := 0, input := 0,
    sofs := 0, srcNow := 0, srcNext := none, locCount := 0, locB := 0, locHalf := false, lateEnds := [], tails := [], zs := [], peak := 0, overRun := 0,
    lastI := (0, 1), windowAt := 0, clips := [], airEnd := 0, markEnd := 0, settle := none, mapSlot := 0xFF, mapF0 := 0, mapBinw := 7, mapAvg := 4, loop := none,
    ctrs := List.replicate 5 Ctr.zero }

/-- The default settings of Table 11.15. -/
def chanDefaults : List Nat :=
  [32, 1, 77, 7, 0, 8, 0, 0, 1, 12, 6, 20] ++ List.replicate 8 0 ++ [0, 1, 6, 0, 12, 2, 64, 12, 4, 2, 64, 12, 1]

/-- Channel `c` as line-side reset is released (R119, Tables 6.9, 7.1, 8.2, 9.6, 10.1; log 9). -/
def Chan.reset (c : Nat) : Chan :=
  { place := none, cfg := chanDefaults, via := c, epoch := 0, ctx := [none, none], frames := [], rxCount := 0, holdFrom := none,
    holdUntil := none, marks := [], ctxEnd := 0, lastEnd := 0, ended := [], onAir := none, origin := 0, grants := 0, grantMin := 0, distRun := 0, headRun := 0, adviceAt := none,
    reportAt := none, ctrs4 := List.replicate 2 Ctr.zero, ctrs6 := List.replicate 9 Ctr.zero,
    ctrs7 := List.replicate 17 Ctr.zero, ctrs8 := List.replicate 9 Ctr.zero, ctrs9 := List.replicate 6 Ctr.zero }

/-- The relay engine as line-side reset is released (Table 10.1). -/
def Relay.reset : Relay :=
  { ucRelay := true, ucFloor := 12, hopAge := 600, report := 0, groups := [], dups := [], early := 0, earlyAge := 0, earlyIn := none,
    hops := [], epochs := [], inbox := [], copies := [], nextId := 0, ctrs := List.replicate 13 Ctr.zero,
    drops := List.replicate 15 Ctr.zero, hwm := Ctr.zero }

/-- The line side as its reset is released (R38, R119, R318, R407, R470). -/
def Line.reset : Line :=
  { ports := List.replicate 96 Port.reset, chans := (List.range 256).map Chan.reset, time := Time.reset,
    sched := { actions := [], nextId := 0, ctrs := List.replicate 6 Ctr.zero }, relay := Relay.reset,
    links := { entries := [], epochs := [], refused := Ctr.zero, inbox := [] }, jobs := [], headers := [], maps := [], mapCtrs := List.replicate 32 Ctr.zero,
    mem := LineMem.reset, clock := Clock.reset, stamps := [], adjusted := Ctr.zero, nodeId := 0, netId := 0, stageAhead := 50,
    linkAge := 1024, reportLog := 8, seqs := [], beacons := [], ttIn := [], running := false, ready := false, bootId := 0, release := 0,
    lastReset := 1, down := false, margins := [], marginLow := false, marginOwed := false, marginOkFrom := none, fw := none, out := [], hold := [],
    holdLost := 0, holdDiscarded := 0 }

/-- A barrier end that is down and has heard nothing (R456; log 9). -/
def BarrierEnd.reset : BarrierEnd :=
  { up := false, heard := 0, lastValid := 0, missedFrom := 0, lanes := List.replicate 4 true, fails := List.replicate 4 0,
    flight := [], seq := 0, inbox := [], bootHeard := 0, bootAtDown := 0, firstUp := true, owed := [], beat := false }

/-- The barrier at power-up. -/
def Link.reset : Link :=
  { host := BarrierEnd.reset, line := BarrierEnd.reset, timingUp := true, suspended := false, ctrs := List.replicate 15 Ctr.zero }

/-- The block right after power-up of both dies: every field at its reset value, nothing queued, no memory cell listed. -/
def State.reset : State :=
  { dev := Dev.reset, host := HostSide.reset, line := Line.reset, link := Link.reset, hbMem := [], lbMem := [], hostRam := [],
    pending := [] }

end Sys2Proof.Machine
end

