-- ==== Sys2Proof/Machine/Ops.lean ====
section
/-! DEFINITION. The shared operations: words and bytes (R7 to R9), counters (R73), serial-number comparison (R74), memory in
its canonical form, checks (R298, R437), timestamps (R98) and the common event record (R103). -/

namespace Sys2Proof.Machine

/-- What a command answers. -/
abbrev Out := Host.Outcome State Fault Refusal

/-- The low 16 bits of a number. -/
def w (n : Nat) : W16 := BitVec.ofNat 16 n

/-- Bits `lo + n - 1 : lo` of a number (R7). -/
def bitsOf (v lo n : Nat) : Nat := v / 2 ^ lo % 2 ^ n

/-- Bit `i` of a number. -/
def bitOf (v i : Nat) : Bool := v / 2 ^ i % 2 == 1

/-- 0 or 1. -/
def b2n (b : Bool) : Nat := if b then 1 else 0

/-- `n` words of a value, least significant first (R8). -/
def wordsOf : Nat → Nat → List W16
  | 0, _ => []
  | n + 1, v => w v :: wordsOf n (v / 65536)

/-- The value of words, least significant first (R8). -/
def ofWords : List W16 → Nat
  | [] => 0
  | x :: xs => x.toNat + 65536 * ofWords xs

/-- An instant as the 64 bits of a record (R37, R97). -/
def tickNat (t : Tick) : Nat := (t % (2 ^ 64 : Int)).toNat

/-- The four words of a timestamp. -/
def tickWords (t : Tick) : List W16 := wordsOf 4 (tickNat t)

/-- A signed value of `n` bits (two's complement). -/
def toSigned (n v : Nat) : Int := if v % 2 ^ n < 2 ^ (n - 1) then (v % 2 ^ n : Nat) else ((v % 2 ^ n : Nat) : Int) - 2 ^ n

/-- The instant whose 64 bits are `v`, on the count that the present instant stands on: the one serially nearest to it (R74; log 16). -/
def nearTick (now : Tick) (v : Nat) : Tick := now + toSigned 64 (v + 2 ^ 64 - tickNat now)

/-- The two's complement of `n` bits of a signed value. -/
def ofSigned (n : Nat) (v : Int) : Nat := (v % (2 ^ n : Int)).toNat

/-- The bytes of words, least significant byte first (R9). -/
def wordBytes : List W16 → List Byte
  | [] => []
  | x :: xs => x.setWidth 8 :: (x >>> 8).setWidth 8 :: wordBytes xs

/-- The words of bytes, least significant byte first; a last single byte leaves its high byte 0 (R9, R223). -/
def byteWords : List Byte → List W16
  | [] => []
  | [a] => [w a.toNat]
  | a :: b :: t => w (a.toNat + 256 * b.toNat) :: byteWords t

/-- The value of bytes, most significant first. -/
def beNat (bs : List Byte) : Nat := bs.foldl (fun n b => n * 256 + b.toNat) 0

/-- `n` bytes of a value, most significant first. -/
def beBytes : Nat → Nat → List Byte
  | 0, _ => []
  | n + 1, v => BitVec.ofNat 8 (v / 256 ^ n) :: beBytes n v

/-- An instant rounded half to even from a ratio (R519). -/
def roundDiv (a : Int) (b : Nat) : Int :=
  let q := a / b
  let r := a % b
  if 2 * r < b then q else if 2 * r > b then q + 1 else if q % 2 == 0 then q else q + 1

/-! ## Counters -/

/-- `k` events at a SAT counter of `width` bits (R12, R73). -/
def satAdd (width k : Nat) (c : Ctr) : Ctr :=
  ⟨min (c.val + k) (2 ^ width - 1), c.ovf || decide (c.val + k > 2 ^ width - 1)⟩

/-- `k` events at counter `i` of a list. -/
def countAt (i width k : Nat) (cs : List Ctr) : List Ctr := cs.modify i (satAdd width k)

/-- Whether `b` is later than `a` as WRAP values of `n` bits (R12, R74, Table 2.8). -/
def later (a b n : Nat) : Bool :=
  let d := (b + 2 ^ n - a % 2 ^ n) % 2 ^ n
  decide (1 ≤ d ∧ d < 2 ^ (n - 1))

/-- The overflow words of a reply: bit i is the overflow bit of counter i (R300). -/
def overflowWords : Nat → List Ctr → List W16
  | 0, _ => []
  | n + 1, cs =>
    let here := cs.take 16
    w ((here.zipIdx.map fun p => b2n p.1.ovf * 2 ^ p.2).sum) :: overflowWords n (cs.drop 16)

/-- Counters as a reply carries them (R300). -/
def counterWords (cs : List Ctr) : List W16 :=
  cs.flatMap (fun c => wordsOf 2 c.val) ++ overflowWords ((cs.length + 15) / 16) cs

/-- A WRAP counter as a reply carries it: its overflow bit reads 0 (R300). -/
def wrapCtr (v : Nat) : Ctr := ⟨v, false⟩

/-- Every counter of a list cleared, as CLR does (R300). -/
def clearAll (clr : Bool) (cs : List Ctr) : List Ctr := if clr then cs.map (fun _ => Ctr.zero) else cs

/-! ## Memory -/

/-- The byte at an address; an unlisted address reads as 0x00 (log 8). -/
def Memory.read : Memory → Nat → Byte
  | [], _ => 0
  | (k, b) :: t, a => if k = a then b else Memory.read t a

/-- One byte written, the canonical form kept. -/
def Memory.write : Memory → Nat → Byte → Memory
  | [], a, b => if b = 0 then [] else [(a, b)]
  | (k, v) :: t, a, b =>
    if a < k then (if b = 0 then (k, v) :: t else (a, b) :: (k, v) :: t)
    else if k = a then (if b = 0 then t else (a, b) :: t)
    else (k, v) :: Memory.write t a b

/-- Every address of the list is above `a`. -/
def Memory.above (a : Nat) : Memory → Bool
  | [] => true
  | (k, _) :: t => decide (a < k) && Memory.above a t

/-- The canonical form: addresses strictly rising, no byte 0x00. -/
def Memory.wf : Memory → Bool
  | [] => true
  | (k, v) :: t => decide (v ≠ 0) && Memory.above k t && Memory.wf t

/-- `n` bytes from an address on. -/
def Memory.readN (m : Memory) (a : Nat) : Nat → List Byte
  | 0 => []
  | n + 1 => m.read a :: Memory.readN m (a + 1) n

/-- Bytes written from an address on. -/
def Memory.writeN : Memory → Nat → List Byte → Memory
  | m, _, [] => m
  | m, a, b :: t => Memory.writeN (m.write a b) (a + 1) t

/-- Bytes written from an address on under byte enables. -/
def Memory.writeSome : Memory → Nat → List (Option Byte) → Memory
  | m, _, [] => m
  | m, a, b :: t => Memory.writeSome (match b with | some x => m.write a x | none => m) (a + 1) t

/-! ## Checks -/

/-- One bit into a CRC register of `width` bits, most significant bit first. -/
def crcBit (width poly reg : Nat) (b : Bool) : Nat :=
  let top := bitOf reg (width - 1)
  let sh := reg * 2 % 2 ^ width
  if top != b then sh ^^^ poly else sh

/-- The bits of a byte, most significant first. -/
def msbBits (b : Byte) : List Bool := [b.getLsbD 7, b.getLsbD 6, b.getLsbD 5, b.getLsbD 4, b.getLsbD 3, b.getLsbD 2, b.getLsbD 1, b.getLsbD 0]

/-- The bits of a byte, least significant first. -/
def lsbBits (b : Byte) : List Bool := (msbBits b).reverse

/-- The number whose bits, most significant first, are given. -/
def bitsNat (bs : List Bool) : Nat := bs.foldl (fun n b => 2 * n + b2n b) 0

/-- The `n` low bits of a number, most significant first. -/
def natBits (n v : Nat) : List Bool := ((List.range n).map (bitOf v)).reverse

/-- A check of Table 17.1 over bytes (R437). -/
def crc (width poly init : Nat) (reflected : Bool) (final : Nat) (bs : List Byte) : Nat :=
  let reg := bs.foldl (fun r b => (if reflected then lsbBits b else msbBits b).foldl (crcBit width poly) r) init
  (if reflected then bitsNat (natBits width reg).reverse else reg) ^^^ final

/-- CRC-16/CCITT (R298, R150). -/
def crc16 (bs : List Byte) : Nat := crc 16 0x1021 0xFFFF false 0 bs
/-- CRC-24 (Table 17.1). -/
def crc24 (bs : List Byte) : Nat := crc 24 0x864CFB 0xB704CE false 0 bs
/-- CRC-32 (Table 17.1). -/
def crc32 (bs : List Byte) : Nat := crc 32 0x04C11DB7 0xFFFFFFFF true 0xFFFFFFFF bs
/-- CRC-32C (R182, R447). -/
def crc32c (bs : List Byte) : Nat := crc 32 0x1EDC6F41 0xFFFFFFFF true 0xFFFFFFFF bs

/-! ## Codes -/

/-- The mode codes of Table 1.6. -/
def modeCode : Mode → Nat
  | .boot => 0 | .config => 1 | .survey => 2 | .headend => 3 | .relay => 4 | .corridor => 5 | .holdover => 6
  | .island => 7 | .test => 8 | .maintain => 9 | .quarantine => 10 | .safe => 11

/-- The mode of a code; 0xC to 0xF are reserved. -/
def modeOf : Nat → Option Mode
  | 0 => some .boot | 1 => some .config | 2 => some .survey | 3 => some .headend | 4 => some .relay
  | 5 => some .corridor | 6 => some .holdover | 7 => some .island | 8 => some .test | 9 => some .maintain
  | 10 => some .quarantine | 11 => some .safe | _ => none

/-- The rung codes of Table 19.7. -/
def rungCode : Rung → Nat
  | .row => 0 | .paddle => 1 | .drift => 2 | .moored => 3 | .ashore => 4

/-- The rung of a code. -/
def rungOf : Nat → Option Rung
  | 0 => some .row | 1 => some .paddle | 2 => some .drift | 3 => some .moored | 4 => some .ashore | _ => none

/-- The traffic modes (Table 1.6). -/
def isTraffic : Mode → Bool
  | .headend => true | .relay => true | .corridor => true | _ => false

/-- The mode that decides traffic: in HOLDOVER the mode held before (R27). -/
def Dev.trafficMode (d : Dev) : Mode := match d.mode with | .holdover => d.held | m => m

/-- Status codes (Table 11.3). -/
inductive Status where
  | ok | accepted | late | busy | noResource | epochStale | aborted | mode | barrier | quarantined
  deriving DecidableEq, Repr

/-- The value of a status (Table 11.3). -/
def statusCode : Status → Nat
  | .ok => 0 | .accepted => 1 | .late => 2 | .busy => 3 | .noResource => 4 | .epochStale => 5 | .aborted => 6
  | .mode => 7 | .barrier => 8 | .quarantined => 9

/-- The command processor of a transport (R304). -/
def cpOf : Transport → Nat
  | .ring0 => 0 | .ring1 => 1 | .udp => 1 | .sp0 => 0

/-- The reply queue of a transport (Table 12.1). -/
def replyQueue : Transport → Nat
  | .ring0 => 2 | .ring1 => 3 | .udp => 4 | .sp0 => 5

/-! ## Timestamps and records -/

/-- A timestamp for an event of a source at an instant, with ADJ when it is later than the event (R98). -/
def stampAt (stamps : List (Nat × Tick)) (src : Nat) (t : Tick) : Tick × Bool × List (Nat × Tick) :=
  let set (v : Tick) := (src, v) :: stamps.filter (fun p => p.1 != src)
  match stamps.lookup src with
  | none => (t, false, set t)
  | some last => if t ≤ last then (last + 1, true, set (last + 1)) else (t, false, set t)

/-- The common event record (R103, Table 3.6). Codes and sources are those of R99 and R104; reserved bits are 0 (R6). -/
def eventWords (code src kind : Nat) (changed adj : Bool) (ts : Tick) (epoch : W16) (unit : Nat) (fields : List W16) : List W16 :=
  [w (0x2000 + code), w (10 + fields.length), w src, w (kind * 256 + b2n changed * 2 + b2n adj)]
    ++ tickWords ts ++ [epoch, w unit] ++ fields

/-- The words of a reply (Table 11.2); its values and its epoch are those of one instant (R105). -/
def replyWords (opcode : Nat) (tag : W16) (adj : Bool) (mode : Mode) (st : Status) (src : Nat) (ts : Tick) (kind : Nat)
    (epoch : W16) (unit : Nat) (a : Tick) (result : List W16) : List W16 :=
  [w (opcode * 64 + 32 + b2n adj), tag, w (16 + result.length), w (modeCode mode * 4096 + statusCode st), w src]
    ++ tickWords ts ++ [w (kind * 256), epoch, w unit] ++ tickWords a ++ result

/-! ## Lists -/

/-- The `i`-th element as it is, or `d` where there is none. -/
def nth {α : Type} (l : List α) (i : Nat) (d : α) : α := l.getD i d

end Sys2Proof.Machine

namespace Sys2Proof

/-- Word `i` of a packet's parameters, counted as packet words: the first parameter is word 3 (Table 11.1). -/
def Cmd.word (c : Cmd) (i : Nat) : Nat := (c.params.getD (i - 3) 0).toNat

/-- Words `i` to `i + n - 1` as one value, least significant first (R8). -/
def Cmd.value (c : Cmd) (i n : Nat) : Nat := Machine.ofWords ((c.params.drop (i - 3)).take n)

end Sys2Proof
end

