-- ==== Sys2Proof/Machine/Formats.lean ====
section
/-! DEFINITION. The character formats of the serial ports and the times of their characters (R365, R367, R380), and the shifter of SP0, which the
queues feed (R386). -/

namespace Sys2Proof.Machine

/-- Data bits of a format (Table 14.7). -/
def dataBits (ctrl : W32) : Nat := 5 + bitsOf ctrl.toNat 7 3

/-- PARITY of a format: 0 none, 1 odd, 2 even, 3 mark, 4 space. -/
def parityOf (ctrl : W32) : Nat := bitsOf ctrl.toNat 10 3

/-- Twice the bits of a character frame, 1.5 stop bits being 3 halves (R365). -/
def frameHalfBits (ctrl : W32) : Nat :=
  2 * (1 + dataBits ctrl + (if parityOf ctrl = 0 then 0 else 1)) + (2 + bitsOf ctrl.toNat 16 2)

/-- `n` sixteenths of a bit in ticks, rounded up: a bit is 100 × DIV / 256 ticks (R367). -/
def sixteenths (rate : W32) (n : Nat) : Tick := (((n * 100 * bitsOf rate.toNat 0 28 + 4095) / 4096 : Nat) : Int)

/-- `n` character times of a format in ticks, rounded up (R365, R367). -/
def charTimes (fmt : W32 × W32) (n : Nat) : Tick := sixteenths fmt.2 (8 * n * frameHalfBits fmt.1)

/-- The field DIV × 256 of a rate register. -/
def divOf (rate : W32) : Nat := bitsOf rate.toNat 0 28

/-- IR_MODE of a format (R380). -/
def irMode (ctrl : W32) : Nat := bitsOf ctrl.toNat 18 2

/-- Whether IR_MODE is used outside 2,400 to 115,200 Bd, a host error whose characters are unpredictable (R380). -/
def irBad (fmt : W32 × W32) : Bool := irMode fmt.1 != 0 && !decide (33333 ≤ divOf fmt.2 ∧ divOf fmt.2 ≤ 1600000)

/-- Port SPn. -/
def HostSide.sp (h : HostSide) (n : Nat) : Serial := nth h.serials n (Serial.reset 1)

/-- Port SPn changed. -/
def HostSide.modSp (n : Nat) (f : Serial → Serial) (h : HostSide) : HostSide := { h with serials := h.serials.modify n f }

/-- Whether the transmitter may start a character: enabled, no break, the shifter empty, CTS granted (R375, R376, R379). -/
def Serial.mayStart (n : Nat) (p : Serial) : Bool :=
  p.ctrl.getLsbD 1 && !p.ctrl.getLsbD 21 && p.breakFrom.isNone && p.shifter.isNone &&
    (n < 6 || !p.ctrl.getLsbD 23 || p.cts)

/-- A character goes to the shifter under the values in force (R369, R375): SPn_DE rises, and the start bit waits for DE_LEAD where it was low (R377), and
for the bit time of 1 behind a break (R376). -/
def Serial.load (n : Nat) (now : Tick) (c : BitVec 9) (p : Serial) : Serial :=
  let lead := if n < 6 ∧ p.de = false then sixteenths p.rate (bitsOf p.line.toNat 0 10) else 0
  { p with shifter := some c, shiftAt := max (now + lead) p.txAfter, txFormat := (p.ctrl, p.rate), de := decide (n < 6), tailFrom := none }

/-- The character that goes out for a value, and how many free values it spends: the bits of the format, or a free value under a host error of IR_MODE
(R365, R380). -/
def Serial.outChar (v free : Nat) (p : Serial) : BitVec 9 × Nat :=
  let bad := irBad (p.ctrl, p.rate)
  (BitVec.ofNat 9 ((if bad then (Config.freeWord free).toNat else v) % 2 ^ dataBits p.ctrl), b2n bad)

/-- The next character of the frame that SP0 sends goes to its shifter, when its transmitter may start one (R375, R386). -/
def HostSide.sp0Load (h : HostSide) : HostSide :=
  match h.sp0Out.bind fun f => f.1[f.2]? with
  | none => h
  | some b =>
    if !(h.sp 0).mayStart 0 then h
    else
      let c := (h.sp 0).outChar b.toNat h.freeCtr
      { h.modSp 0 (Serial.load 0 h.follower c.1) with freeCtr := h.freeCtr + c.2 }

end Sys2Proof.Machine
end

