-- ==== Sys2Proof/Machine/HostOps.lean ====
section
/-! DEFINITION. The shared operations of the host side: interrupts (R348), queues (R322 to R342), events and replies (R301,
R303), the mode change (R28) and the judgement of bank accesses (R392, R397, R408). -/

namespace Sys2Proof.Machine

/-! ## Interrupts -/

/-- The cause bits of an MSI-X vector (R348). -/
def groupMask (v : Nat) : W32 :=
  if v < 6 then 1 <<< (7 + v) else if v = 6 then 0x7F else if v = 7 then 0xFF0000 else if v = 8 then 1 <<< 14
  else if v = 9 then 1 <<< 15 else if v = 10 then 1 <<< 13 else if v = 11 then 1 <<< 31 else if v = 12 then 0x60000000
  else if v = 13 then 1 <<< 28 else 0

/-- The vector of a cause bit (R348). -/
def vectorOf (bit : Nat) : Nat :=
  if bit < 7 then 6 else if bit < 13 then bit - 7 else if bit = 13 then 10 else if bit = 14 then 8 else if bit = 15 then 9
  else if bit < 24 then 7 else if bit = 28 then 13 else if bit = 31 then 11 else 12

/-- The group value of a vector (R348). -/
def Ints.group (i : Ints) (v : Nat) : Bool := decide ((i.cause &&& ~~~i.mask &&& groupMask v) ≠ 0)

/-- Whether the vector mask or the function mask withholds a vector (R348). -/
def Ints.masked (v : Nat) (i : Ints) : Bool := i.functionMask || (i.msixTable.getD (4 * v + 3) 1).getLsbD 0

/-- Whether the function may issue a message: Bus Master Enable, D0, and the link runs (R346, R363). -/
def Ints.maySend (link : Bool) (i : Ints) : Bool := link && i.busMaster && !i.d3hot

/-- A vector's message, once MSI-X is enabled (R346, R348): sent, or pending while it is masked; also while the function may issue no request (log 134). -/
def Ints.sendVec (link : Bool) (v : Nat) (i : Ints) : Ints :=
  if !i.msixEnable then i
  else if i.masked v || !i.maySend link then { i with msixPending := i.msixPending ||| (1 <<< v) }
  else { i with sent := i.sent ++ [v] }

/-- A cause bit sets; its vector is sent when the group value changes from 0 to 1 (R348). -/
def Ints.raise (link : Bool) (bit : Nat) (i : Ints) : Ints :=
  let j := { i with cause := i.cause ||| (1 <<< bit) }
  if !i.group (vectorOf bit) && j.group (vectorOf bit) then j.sendVec link (vectorOf bit) else j

/-- After a write of H_INT_CAUSE or H_INT_MASK every vector whose group value is 1 is sent, and one whose group value is 0 is pending no more (R348; log 134). -/
def Ints.resend (link : Bool) (i : Ints) : Ints :=
  (List.range 14).foldl (fun j v =>
    if j.group v then j.sendVec link v else { j with msixPending := j.msixPending &&& ~~~((1 : W16) <<< v) }) i

/-- Every vector that is pending and that nothing withholds any more sends its message (R348). -/
def Ints.sendPending (link : Bool) (i : Ints) : Ints :=
  (List.range 16).foldl (fun j v =>
    if j.msixEnable && j.msixPending.getLsbD v && !j.masked v && j.maySend link then
      { j with msixPending := j.msixPending &&& ~~~((1 : W16) <<< v), sent := j.sent ++ [v] } else j) i

/-- The host links stand still: EXTEST, CLAMP or HIGHZ is in force on the test port (R363). -/
def HostSide.linksStopped (h : HostSide) : Bool :=
  match h.jtag with
  | .extest => true | .clamp => true | .highz => true
  | .bypass => false | .idcode => false | .samplePreload => false

/-- The interrupt registers changed; `f` is told whether the link runs. -/
def HostSide.modInts (f : Bool → Ints → Ints) (h : HostSide) : HostSide := { h with ints := f (!h.linksStopped) h.ints }

/-- A cause bit of H_INT_CAUSE sets. -/
def HostSide.raise (bit : Nat) (h : HostSide) : HostSide := h.modInts fun link i => i.raise link bit

/-- A cause bit that a local enable gates. -/
def HostSide.raiseIf (on : Bool) (bit : Nat) (h : HostSide) : HostSide := if on then h.raise bit else h

/-! ## Outputs -/

/-- A byte sequence escaped for SP0 (R307). -/
def escape : List Byte → List Byte
  | [] => []
  | b :: t => if b = 0x7E ∨ b = 0x7D then 0x7D :: (b ^^^ 0x20) :: escape t else b :: escape t

/-- A packet as a frame on SP0, its CHECK appended (R307). -/
def sp0Frame (stream : Byte) (words : List W16) : List Byte :=
  [0x7E] ++ escape ([stream] ++ wordBytes (words ++ [w (crc16 (wordBytes words))])) ++ [0x7E]

/-- The bytes of a UDP payload: the transport header with the stream and its DSEQ, then the words, each least significant byte first (R9, R306). -/
def udpBytes (stream : Nat) (dseq : W16) (words : List W16) : List Byte := wordBytes ([w (0x100 + stream), dseq] ++ words)

/-- A datagram leaves on a stream; its DSEQ is the stream's count (R306). While ADDR is 0 none is sent (Table 13.13). -/
def Eth.send (dest : W32) (port : W16) (stream : Nat) (words : List W16) (e : Eth) : Eth :=
  if e.ipv4 = 0 then e
  else { e with dseq := e.dseq.modify stream (· + 1),
                sent := e.sent ++ [{ dest := dest, port := port, bytes := udpBytes stream (nth e.dseq stream 0 + 1) words }] }

/-- The largest UDP payload (R306). -/
def Eth.udpLimit (e : Eth) : Nat := if e.ctrl.getLsbD 30 then 8972 else 1472

/-- Whether a record of so many words fits one datagram with its transport header (R306). -/
def Eth.carries (e : Eth) (n : Nat) : Bool := decide (4 + 2 * n ≤ e.udpLimit)

/-! ## Owners of banks -/

/-- The owner class of a master (Table 15.3); 0 for the march testers and reserved IDs. -/
def classOf (m : Nat) : Nat :=
  if m < 8 then 1 else if m < 12 then 2 else if m = 12 then 3 else if m = 13 then 4
  else if m = 0x20 then 0x10 else if m = 0x21 ∨ m = 0x22 ∨ m = 0x23 then 0x11 else if m = 0x24 then 0x12
  else if 0x30 ≤ m ∧ m < 0x48 then 0x11 else if 0x50 ≤ m ∧ m < 0x58 then 0x13 else 0

/-- Whether a host bank serves an access of a class (R392). -/
def HostBank.serves (b : HostBank) (cls : Nat) (write : Bool) : Bool :=
  b.owner ≠ 0 && (b.owner == cls || (!write && b.shared))

/-- Whether an access to a host bank waits for a handover: it comes from the new owner's class and is no SHARED_READ read (R394). -/
def HostBank.holdsBack (b : HostBank) (m : Nat) (write : Bool) : Bool := b.handover.isSome && classOf m == b.owner && !(b.shared && !write)

/-- Host bank `nn`. -/
def HostSide.bank (h : HostSide) (nn : Nat) : HostBank := nth h.mem.banks nn (HostBank.reset 0)

/-- One more conflict of a master (Table 15.6). -/
def countConflict (m : Nat) (cs : List (Nat × Ctr)) : List (Nat × Ctr) :=
  (m, satAdd 32 1 ((cs.lookup m).getD Ctr.zero)) :: cs.filter (fun p => p.1 != m)

/-- `n` free words, for what a host error leaves unpredictable (R5, R496). -/
def HostSide.freeWords (n : Nat) (h : HostSide) : List W16 × HostSide :=
  ((List.range n).map fun i => Config.freeWord (h.freeCtr + i), { h with freeCtr := h.freeCtr + n })

/-- Size of the BAR2 window in bytes (R345). -/
def bar2Size : Nat := 0x800000

/-! ## Queues -/

/-- LEVEL: words that can be read (R327). -/
def Queue.level (q : Queue) : Nat := (q.pkts.map fun p => p.entries.length).sum

/-- PROV: provisional packets, saturating at 255 (R327). -/
def Queue.prov (q : Queue) : Nat := min 255 ((q.pkts.filter fun p => p.prov).length)

/-- A packet that is no provisional one. -/
def Packet.plain (words : List W16) : Packet := { words := words, pend := false }

/-- Words waiting in the hold (R334). -/
def Queue.holdWords (q : Queue) : Nat := (q.hold.map fun p => p.words.length).sum

/-- A packet's entries with their marks, or behind a length slot under FRAMING (R326, R328). -/
def packetEntries (framing : Bool) (p : Packet) : List (W16 × BitVec 2) :=
  if framing then (w (p.words.length + (if p.pend then 32768 else 0)), 0) :: p.words.map (fun x => (x, 0))
  else
    match p.words.reverse with
    | [] => []
    | z :: r => (r.reverse.map fun x => (x, 0)) ++ [(z, if p.pend then 2 else 1)]

/-- The space that a packet needs (R328). -/
def Queue.need (q : Queue) (p : Packet) : Nat := p.words.length + b2n q.framing

/-- The source of a record. -/
def Packet.source (p : Packet) : Nat := (nth p.words 2 0).toNat

/-- The class of a record. -/
def Packet.cls (p : Packet) : Nat := (nth p.words 0 0).toNat / 4096

/-- The frame, by channel and RX_ID, whose segments, releases or final record a record of the receive frame queue is (Tables 7.6, 7.8, 7.9, 16.4): none
for a received frame record without CUT and for a result that releases nothing. -/
def Packet.frame (p : Packet) : Option (Nat × W16) :=
  let x (i : Nat) := nth p.words i 0
  let flags := (x 3).toNat
  if p.cls = 3 ∨ (p.cls = 1 ∧ bitOf flags 7) then some ((x 9).toNat, x 14)
  else if p.cls = 4 then some ((x 9).toNat, x 10)
  else if p.cls = 7 ∧ bitsOf flags 1 2 = 1 ∧ bitsOf flags 6 2 ≠ 0 then some ((x 10).toNat, x 11) else none

/-- The frames for which 18 words stay reserved once a record is placed: one more with a frame's first segment, one less with its final record (R335). -/
def Queue.keptWith (q : Queue) (p : Packet) : List (Nat × W16) :=
  match p.frame with
  | none => q.kept
  | some f => if p.cls = 3 then (if nth p.words 15 0 = 0 then f :: q.kept else q.kept) else q.kept.erase f

/-- The words that so many retract records to come need. -/
def Queue.reserve (q : Queue) (n : Nat) : Nat := (18 + b2n q.framing) * n

/-- The words reserved for retract records (R335). -/
def Queue.reserved (q : Queue) : Nat := q.reserve q.kept.length

/-- Whether a packet fits beside what stays reserved with it (R334, R335). -/
def Queue.fits (q : Queue) (keep : Nat) (p : Packet) : Bool :=
  decide (q.level + q.reserve (q.keptWith p).length + keep + q.need p ≤ q.depthF)

/-- The packet as the queue holds it. -/
def Queue.entry (q : Queue) (p : Packet) : QPacket :=
  { entries := packetEntries q.framing p, prov := p.pend, slot := q.framing, begun := false, to_ := p.to_ }

/-- A packet enters the queue; HWM follows LEVEL (R325, Table 12.4). -/
def Queue.push (p : Packet) (q : Queue) : Queue :=
  let q' := { q with pkts := q.pkts ++ [q.entry p], kept := q.keptWith p }
  { q' with hwm := min (2 ^ 19 - 1) (max q.hwm q'.level) }

/-- Queue `n`. -/
def HostSide.queue (h : HostSide) (n : Nat) : Queue := nth h.queues n (Queue.reset 0 0)

/-- Queue `n` changed. -/
def HostSide.modQueue (n : Nat) (f : Queue → Queue) (h : HostSide) : HostSide := { h with queues := h.queues.modify n f }

/-- The host banks that hold a part of a queue's region (R323). -/
def Queue.banks (q : Queue) : List Nat :=
  let first := bitsOf q.baseF.toNat 4 19 * 16
  (List.range 32).filter fun b => decide (first < (b + 1) * 0x40000 ∧ b * 0x40000 < first + 2 * q.depthF)

/-- The banks of a queue's region that the queue master, 0x24, does not own (R323, R392). -/
def HostSide.foreign (n : Nat) (h : HostSide) : List Nat := (h.queue n).banks.filter fun b => !(h.bank b).serves (classOf 0x24) true

/-- A non-owner access of a master to a host bank is counted (R392, Table 15.6). -/
def HostSide.countFault (m nn : Nat) (h : HostSide) : HostSide :=
  { h with mem := { h.mem with conflicts := countConflict m h.mem.conflicts,
                               banks := h.mem.banks.modify nn fun b => { b with faults := satAdd 16 1 b.faults } } }

/-- The words of a packet as the banks keep them: where the queue master does not own a bank of the region its writes there are discarded, so that the words
are free values (R323, R392; log 130). -/
def HostSide.stored (n : Nat) (p : Packet) (h : HostSide) : Packet × HostSide :=
  if (h.foreign n).isEmpty then (p, h)
  else
    let r := h.freeWords p.words.length
    ({ p with words := r.1 }, (h.foreign n).foldl (fun h b => h.countFault 0x24 b) r.2)

/-- A cause bit of H_MEM_STATUS sets (R410). -/
def HostSide.memStatus (bit : Nat) (h : HostSide) : HostSide :=
  { h with mem := { h.mem with status := h.mem.status ||| (1 <<< bit) } }.raiseIf (h.mem.ie.getLsbD bit) 13

/-- A cause bit of H_CE_STATUS sets (R436). -/
def HostSide.ceRaise (bit : Nat) (h : HostSide) : HostSide :=
  { h with ceStatus := h.ceStatus ||| (1 <<< bit) }.raiseIf (h.ceIe.getLsbD bit) 14

/-- The bit of H_MEM_STATUS that the placing of a memory event sets (Tables 15.5, 15.8). -/
def Packet.memBits (p : Packet) : List Nat :=
  match (nth p.words 0 0).toNat with
  | 0x21C0 => [if p.source = 0x30 then 1 else 0]
  | 0x21C1 => [2]
  | 0x21C2 => [3]
  | 0x21C3 => [4]
  | _ => []

/-- The bits of H_CE_STATUS that the placing of a cipher result record sets, by its CSTAT, KEY_CHANGED and KIND (Tables 16.4, 16.14). -/
def Packet.ceBits (p : Packet) : List Nat :=
  if p.cls ≠ 7 then []
  else
    let cstat := (nth p.words 0 0).toNat % 4096
    let flags := (nth p.words 3 0).toNat
    (if cstat = 1 then [0] else if cstat = 2 then [2] else if 3 ≤ cstat ∧ cstat ≤ 6 then [3] else [])
      ++ (if bitOf flags 4 then [1] else []) ++ (if bitsOf flags 6 2 = 2 then [4] else [])

/-- What the placing of a record shows in H_MEM_STATUS and H_CE_STATUS (R410, R436). -/
def HostSide.notePlaced (p : Packet) (h : HostSide) : HostSide :=
  p.ceBits.foldl (fun h b => h.ceRaise b) (p.memBits.foldl (fun h b => h.memStatus b) h)

/-- A packet enters queue `n`; PKTS rising from 0 may interrupt (R343). -/
def HostSide.enqueue (n : Nat) (p : Packet) (h : HostSide) : HostSide :=
  let first := (h.queue n).pkts.isEmpty
  let r := h.stored n p
  ((r.2.modQueue n fun q => { q.push r.1 with kept := q.keptWith p }).raiseIf (first && (h.queue n).ctrl.getLsbD 7) n).notePlaced p

/-- A host-side timestamp (R97, R98); an adjusted one is counted (Table 3.10). -/
def HostSide.stamp (src : Nat) (t : Tick) (h : HostSide) : Tick × Bool × HostSide :=
  let r := stampAt h.stamps src t
  (r.1, r.2.1, { h with stamps := r.2.2, adjusted := satAdd 32 (b2n r.2.1) h.adjusted })

/-- A lost packet is counted and reported (R334). -/
def HostSide.lose (n : Nat) (h : HostSide) : HostSide :=
  (h.modQueue n fun q => { q with lost := satAdd 31 1 q.lost, lostSince := min (2 ^ 32 - 1) (q.lostSince + 1), loss := true }).raiseIf
    ((h.queue n).ctrl.getLsbD 9) n

/-- The words of a queue that no packet but a QUEUE_LOSS event takes: 64 of the event queue (R334). -/
def lossReserve (n : Nat) : Nat := if n = 0 then 64 else 0

/-- A packet waits in the hold of its queue. -/
def HostSide.holdPacket (n : Nat) (p : Packet) (h : HostSide) : HostSide := h.modQueue n fun q => { q with hold := q.hold ++ [p] }

/-- A packet enters its queue, waits in the hold, or is lost (R334). Reply queues have room by R336; a reply for which a smaller DEPTH has left none waits
(R338; log 131). -/
def HostSide.place (n : Nat) (p : Packet) (h : HostSide) : HostSide :=
  let q := h.queue n
  if q.hold.isEmpty && q.fits (lossReserve n) p then h.enqueue n p
  else if n ≥ 2 ∨ q.holdWords + p.words.length ≤ 32768 then h.holdPacket n p
  else h.lose n

/-- Whether the records of a queue can leave by UDP: ADDR set and the destination resolved (R355). -/
def HostSide.udpReady (h : HostSide) (q : Queue) : Bool := h.eth.ipv4 ≠ 0 && h.eth.arp.contains q.destAddr

/-- The words of a queued packet without a length slot (R333). -/
def QPacket.words (p : QPacket) : List W16 := (p.entries.drop (b2n p.slot)).map (·.1)

/-- The packets that leave whole: all but one of which words have been taken through the window (R319, R333). -/
def Queue.whole (q : Queue) : List QPacket := q.pkts.filter fun p => !p.begun

/-- A whole packet leaves a queue: the first of which no word has been taken. The last word taken is its last one (R329, R333). -/
def Queue.takeWhole (p : QPacket) (q : Queue) : Queue :=
  let last := p.entries.getLastD (q.lastWord, q.lastMark)
  { q with pkts := q.pkts.erase p, lastWord := last.1, lastMark := last.2 }

/-- The words of a whole packet as its consumer reads them: free values from a region of which the queue master does not own every bank, and 0 from one of
which it owns none (R323, R392; log 130). -/
def HostSide.fetched (n : Nat) (ws : List W16) (h : HostSide) : List W16 × HostSide :=
  let out := h.foreign n
  if out.isEmpty then (ws, h)
  else
    let h := out.foldl (fun h b => h.countFault 0x24 b) h
    if out.length = (h.queue n).banks.length then (ws.map fun _ => 0, h) else h.freeWords ws.length

/-- The first whole packet of a queue whose destination is UDP leaves (R306, R333; log 17), a reply to where its command came from, with its CHECK. A record
longer than the largest UDP payload is lost (log 85). -/
def HostSide.deliverDatagram (n : Nat) (p : QPacket) (h : HostSide) : HostSide :=
  let q := h.queue n
  let r := (h.modQueue n (Queue.takeWhole p)).fetched n p.words
  if n ≥ 2 then { r.2 with eth := r.2.eth.send p.to_.1 p.to_.2 0 (r.1 ++ [w (crc16 (wordBytes r.1))]) }
  else if h.eth.carries p.words.length then { r.2 with eth := r.2.eth.send q.destAddr q.destPort (n + 1) r.1 }
  else r.2.lose n

/-- Whether a queue's datagrams can leave: replies while the device has an address, records once their destination is resolved too (R355,
Table 13.13). -/
def HostSide.datagramsLeave (n : Nat) (h : HostSide) : Bool := if n ≥ 2 then h.eth.ipv4 ≠ 0 else h.udpReady (h.queue n)

/-- The first whole packet of a queue whose destination is SP0 is the frame that SP0 sends next, once the one before has left (R307, R386). -/
def HostSide.deliverSerial (n : Nat) (p : QPacket) (h : HostSide) : HostSide :=
  let r := (h.modQueue n (Queue.takeWhole p)).fetched n p.words
  { r.2 with sp0Out := some (sp0Frame (if n = 0 then 1 else 0) r.1, 0) }.sp0Load

/-- A queue whose destination is UDP or SP0 delivers its whole packets, while the host links run (R333, R363). -/
def HostSide.deliver (n : Nat) (h : HostSide) : HostSide :=
  if h.linksStopped then h
  else match (h.queue n).dest with
    | .pcie => h
    | .udp => if h.datagramsLeave n then (h.queue n).whole.foldl (fun h p => h.deliverDatagram n p) h else h
    | .sp0 =>
      match (h.queue n).whole with
      | [] => h
      | p :: _ => if h.sp0Out.isSome then h else h.deliverSerial n p

/-- An event record of the host side in the event queue (R97, R103): its instant, code, source, epoch and fields. -/
def HostSide.eventAt (t : Tick) (code src kind : Nat) (changed : Bool) (epoch : W16) (unit : Nat) (fields : List W16) (h : HostSide) : HostSide :=
  let r := h.stamp src t
  (r.2.2.place 0 (.plain (eventWords code src kind changed r.2.1 r.1 epoch unit fields))).deliver 0

/-- An event at the present follower time. -/
def HostSide.event (code src kind : Nat) (changed : Bool) (epoch : W16) (unit : Nat) (fields : List W16) (h : HostSide) : HostSide :=
  h.eventAt h.follower code src kind changed epoch unit fields

/-- A record stamped anew among those of a source, at an instant: source, ADJ and timestamp are the new ones (R98, Table 3.6). -/
def HostSide.restamp (src : Nat) (t : Tick) (p : Packet) (h : HostSide) : Packet × HostSide :=
  let r := h.stamp src t
  let flags := nth p.words 3 0
  ({ p with words := p.words.take 2 ++ [w src, if r.2.1 then flags ||| 1 else flags] ++ tickWords r.1 ++ p.words.drop 8 }, r.2.2)

/-- The instant that a record's timestamp names, near the present one (R97). -/
def Packet.instant (now : Tick) (p : Packet) : Tick := nearTick now (ofWords ((p.words.drop 4).take 4))

/-- The records of a source that the event queue's hold keeps are stamped anew, behind a record of that source that goes ahead of them (R98, R100,
R334; log 86). -/
def HostSide.restampHeld (src : Nat) (h : HostSide) : HostSide :=
  let r := (h.queue 0).hold.foldl (fun (r : List Packet × HostSide) p =>
    if p.source = src then let x := r.2.restamp src (p.instant h.follower) p; (r.1 ++ [x.1], x.2) else (r.1 ++ [p], r.2)) ([], h)
  r.2.modQueue 0 fun q => { q with hold := r.1 }

/-- The QUEUE_LOSS event that goes ahead of a held packet, with the source's next timestamp (R334, Table 12.3). -/
def HostSide.lossRecord (n : Nat) (h : HostSide) : Packet × HostSide :=
  let r := h.stamp 0x8500 h.follower
  (.plain (eventWords 0x1D1 0x8500 8 false r.2.1 r.1 (h.queue n).epoch n (w n :: wordsOf 2 (h.queue n).lostSince)),
   r.2.2.modQueue n fun q => { q with lostSince := 0 })

/-- The QUEUE_LOSS event after losses enters the event queue. -/
def HostSide.lossEvent (n : Nat) (h : HostSide) : HostSide :=
  if (h.queue n).lostSince = 0 then h
  else
    let r := h.lossRecord n
    (r.2.enqueue 0 r.1).restampHeld 0x8500

/-- Whether a QUEUE_LOSS event that is due has room in the event queue, the words in reserve for it among that. -/
def HostSide.lossFits (n : Nat) (h : HostSide) : Bool := (h.queue n).lostSince = 0 || (h.queue 0).fits 0 (h.lossRecord n).1

/-- The first held packet enters its queue. -/
def HostSide.enterHeld (n : Nat) (h : HostSide) : HostSide :=
  match (h.queue n).hold with
  | [] => h
  | p :: rest => ((h.modQueue n fun q => { q with hold := rest }).enqueue n p).deliver n

/-- The first held packet enters its queue when it fits, preceded by QUEUE_LOSS after losses (R334). -/
def HostSide.drainOne (n : Nat) (h : HostSide) : HostSide :=
  match (h.queue n).hold with
  | [] => h
  | p :: _ => if (h.queue n).fits (lossReserve n) p && h.lossFits n then ((h.lossEvent n).enterHeld n).deliver 0 else h

/-- Held packets enter their queue in order while they fit (R334). -/
def HostSide.drainHold (n : Nat) (h : HostSide) : HostSide := (h.queue n).hold.foldl (fun h _ => h.drainOne n) h

/-- Words taken from the head of a queue (R329): the next entry, and the queue without it. -/
def Queue.take (q : Queue) : Option ((W16 × BitVec 2) × Queue) :=
  match q.pkts with
  | [] => none
  | p :: rest =>
    match p.entries with
    | [] => none
    | e :: es =>
      some (e, { q with pkts := if es.isEmpty then rest else { p with entries := es, slot := false, begun := true } :: rest,
                        lastWord := e.1, lastMark := e.2 })

/-- The value of a window read that takes a word (Table 12.5). -/
def windowWord (e : W16 × BitVec 2) : W32 := BitVec.ofNat 32 (e.1.toNat + 65536 * e.2.toNat)

/-- The value of a window read on an empty queue (R330). -/
def windowEmpty (word : W16) (mark : BitVec 2) : W32 := BitVec.ofNat 32 (word.toNat + 65536 * mark.toNat + 0xC0000)

/-- H_Qn_CTRL.STALL_LIMIT in ticks (Table 12.7). -/
def Queue.stallLimit (q : Queue) : Tick := ((bitsOf q.ctrl.toNat 10 6 * 1500 : Nat) : Int)

/-- An empty queue with its pending settings applied, and the held packets that stay (R339, steps 2, 3 and 5). -/
def Queue.cleared (hold : List Packet) (q : Queue) : Queue :=
  { q with pkts := [], hold := hold, kept := [], lastWord := 0, lastMark := 0, loss := false, underrun := false,
           access := q.ctrl.getLsbD 4, framing := q.ctrl.getLsbD 3, baseF := q.base, depthF := bitsOf q.depth.toNat 0 19, epoch := q.epoch + 1 }

/-- The frames that a reset of the receive frame queue closes: a segment or release of each was in the queue or its hold, and its final record has not
been read from there (R340). -/
def HostSide.openFrames (h : HostSide) : List (Nat × W16) :=
  (((h.cuts.filter fun c => !c.closed && decide (c.segments > 0)).map fun c => (c.chan, c.rxId)) ++ (h.queue 1).hold.filterMap Packet.frame).dedup

/-- The QUEUE_RESET event (R342, Table 12.3): of the event queue itself it is the first packet, ahead of those held (R339). -/
def HostSide.resetEvent (n dropped closed : Nat) (h : HostSide) : HostSide :=
  let fields := w n :: wordsOf 2 dropped ++ [w closed]
  if n ≠ 0 then h.event 0x1D0 0x8500 8 true (h.queue n).epoch n fields
  else
    let r := h.stamp 0x8500 h.follower
    ((r.2.2.enqueue 0 (.plain (eventWords 0x1D0 0x8500 8 true r.2.1 r.1 (h.queue 0).epoch 0 fields))).restampHeld 0x8500).deliver 0

/-- The reset of queue `n` (R339 to R341): the read that stalls at its head completes, every word is dropped, pending settings apply. Of the receive frame
queue no further record is placed for the frames that it closes. -/
def HostSide.resetQueue (n : Nat) (h : HostSide) : HostSide :=
  let q := h.queue n
  let frames := if n = 1 then h.openFrames else []
  let hold := if n = 1 then q.hold.filter fun p => p.frame.isNone else q.hold
  let close (c : CutFrame) : CutFrame := { c with closed := c.closed || decide (c.segments > 0) }
  let h1 := h.modQueue n fun _ => { q.cleared hold with waiting := [] }
  let h2 := if n = 1 then { h1 with cuts := h1.cuts.map close } else h1
  let h3 := if q.waiting.isEmpty then h2
    else { h2 with readData := windowEmpty 0 0, readsDone := h2.readsDone ++ [windowEmpty 0 0] }
  h3.resetEvent n q.level frames.length

/-! ## The mode -/

/-- The follower's value at an instant of the line timebase: what a host-side source stamps for it (R97). -/
def State.hostTime (t : Tick) (s : State) : Tick := s.host.follower - (s.line.clock.tb - t)

/-- A change of mode (R28, R520): epoch, mode-change event with the exact instant `t` and the follower's stamp of it, H_INT_CAUSE.MODE. -/
def State.modeChange (new : Mode) (cause : Nat) (stamp t : Tick) (s : State) : State :=
  let ep := s.dev.modeEpoch + 1
  let dev := { s.dev with mode := new, modeEpoch := ep }
  let fields := [w (modeCode s.dev.mode), w (modeCode new), ep, w cause] ++ tickWords t
  { s with dev := dev, host := (s.host.eventAt stamp 0x001 0x8000 1 true ep 0 fields).raise 29 }

/-- LINE_PRESENT: the line side is ready and heard (R488, Table 11.6). -/
def State.linePresent (s : State) : Bool := s.line.ready && s.link.host.up

/-! ## Bank accesses -/

/-- Whether a conflict report is due for a master, with the number suppressed before it (R408). -/
def reportDue (rs : List Report) (m kind : Nat) (t : Tick) : Option Nat :=
  match rs.find? (fun r => r.master == m && r.kind == kind) with
  | none => some 0
  | some r => if t - r.last ≥ 1500000 then some r.suppressed else none

/-- The reports after a conflict: the clock of a reported one restarts, a suppressed one is counted (R408). -/
def noteReport (rs : List Report) (m kind : Nat) (t : Tick) (due : Bool) : List Report :=
  if due then { master := m, kind := kind, last := t, suppressed := 0 } :: rs.filter (fun r => !(r.master == m && r.kind == kind))
  else rs.map fun r => if r.master == m && r.kind == kind then { r with suppressed := min 65535 (r.suppressed + 1) } else r

/-- The report of a non-owner access to a host bank, at most one per 1 ms and master (R408, Table 15.5). -/
def HostSide.ownerReport (epoch : W16) (m nn ofs : Nat) (write : Bool) (h : HostSide) : HostSide :=
  let b := h.bank nn
  let due := reportDue h.mem.reports m 0 h.follower
  let h' := { h with mem := { h.mem with reports := noteReport h.mem.reports m 0 h.follower due.isSome } }
  match due with
  | none => h'
  | some k =>
    h'.event 0x1C0 0x8500 1 false epoch 0 ([w m, w (128 + nn)] ++ wordsOf 2 ofs ++ [w (b2n write), w b.owner, w (b2n b.shared), w k])

/-- A non-owner access to a host bank: counted and reported (R392, R408). -/
def HostSide.ownerFault (epoch : W16) (m nn ofs : Nat) (write : Bool) (h : HostSide) : HostSide :=
  (h.countFault m nn).ownerReport epoch m nn ofs write

/-- The pieces of an access, one per row (R397): offset and length of each. -/
def rowPieces : Nat → Nat → Nat → List (Nat × Nat)
  | 0, _, _ => []
  | _, _, 0 => []
  | fuel + 1, ofs, len =>
    let n := min len (16 - ofs % 16)
    (ofs, n) :: rowPieces fuel (ofs + n) (len - n)

/-- Whether a byte of the host banks lies in the region of a queue, whose words stand there at places that are not given (R323; log 130). -/
def HostSide.inQueue (ofs : Nat) (h : HostSide) : Bool :=
  h.queues.any fun q => let first := bitsOf q.baseF.toNat 4 19 * 16; decide (first ≤ ofs ∧ ofs < first + 2 * q.depthF)

/-- A master's read in one row of the host banks: served, or zeros and a fault (R392). Past the window the bytes are free (R497), and in the region of a
queue too (log 130). -/
def State.readRow (m ofs n : Nat) (s : State) : List Byte × Bool × State :=
  if ofs ≥ bar2Size || ((s.host.bank (ofs / 0x40000)).serves (classOf m) false && s.host.inQueue ofs) then
    ((List.range n).map fun i => Config.freeByte (s.host.freeCtr + i), true, { s with host := { s.host with freeCtr := s.host.freeCtr + n } })
  else if (s.host.bank (ofs / 0x40000)).serves (classOf m) false then (s.hbMem.readN ofs n, true, s)
  else (List.replicate n 0, false,
        { s with host := s.host.ownerFault s.dev.modeEpoch m (ofs / 0x40000) (ofs % 0x40000) false })

/-- A master's read of `len` bytes, row by row (R397): the bytes, and whether every row was served. -/
def State.readHb (m ofs len : Nat) (s : State) : List Byte × Bool × State :=
  (rowPieces len ofs len).foldl (fun r p =>
    let q := r.2.2.readRow m p.1 p.2
    (r.1 ++ q.1, r.2.1 && q.2.1, q.2.2)) ([], true, s)

/-- A master's write in one row: served, discarded with a fault, or past the window discarded (R392, R497). -/
def State.writeRow (m ofs : Nat) (bs : List (Option Byte)) (s : State) : State :=
  if ofs ≥ bar2Size then s
  else if (s.host.bank (ofs / 0x40000)).serves (classOf m) true then { s with hbMem := s.hbMem.writeSome ofs bs }
  else { s with host := s.host.ownerFault s.dev.modeEpoch m (ofs / 0x40000) (ofs % 0x40000) true }

/-- Whether an access of a master to `n` bytes waits for a handover of one of their banks (R394). A device's own operation that meets one waits whole. -/
def State.blocked (m ofs n : Nat) (write : Bool) (s : State) : Bool :=
  (List.range 32).any fun b => decide (0 < n ∧ ofs < (b + 1) * 0x40000 ∧ b * 0x40000 < ofs + n) && (s.host.bank b).holdsBack m write

/-- A master's write, row by row (R397). -/
def State.writeHb (m ofs : Nat) (bs : List (Option Byte)) (s : State) : State :=
  (rowPieces bs.length ofs bs.length).foldl (fun s p => s.writeRow m p.1 ((bs.drop (p.1 - ofs)).take p.2)) s

/-! ## Free values -/

/-- `n` free values are spent. -/
def State.spend (n : Nat) (s : State) : State := { s with host := { s.host with freeCtr := s.host.freeCtr + n } }

end Sys2Proof.Machine
end

