-- ==== Sys2Proof/Machine/Clock.lean ====
section
/-! DEFINITION. The passing of time: every command first advances the two clocks by its `dt` (log 1; R39, R40, R43, R483). -/

namespace Sys2Proof.Machine

/-- The rungs on which time moves in steps of 30 ticks (R483). -/
def Rung.coarse : Rung → Bool
  | .row => false | .paddle => false | .drift => true | .moored => true | .ashore => true

/-- The instant at which the 64-bit count of a tick was last 0 (R37). -/
def countZero (t : Tick) : Tick := t - t % 2 ^ 64

/-- The last instant, not after `t`, whose count is a multiple of 30 (R483). -/
def floorStep (t : Tick) : Tick := t - t % 2 ^ 64 % 30

/-- The first instant, not before `t`, whose count is a multiple of 30 (R483). -/
def ceilStep (t : Tick) : Tick := countZero t + min (2 ^ 64) ((t % 2 ^ 64 + 29) / 30 * 30)

/-- The ticks by which a clock that shows `v`, `rest` ticks short of its time, moves as its time gains `n` ticks, and how far it is short then: it shows
whole ticks, or on the coarse rungs the multiples of 30 alone, and it never decreases (R39, R483). -/
def coarseTicks (coarse : Bool) (v : Tick) (rest : Int) (n : Nat) : Nat × Int :=
  let total := v + rest + n
  let shown := if coarse then max (ceilStep v) (floorStep total) else max v total
  ((shown - v).toNat, total - shown)

/-- The timebase as the 64-bit count that records carry and that compares serially (R37, R74, Table 2.9). -/
def Clock.timebase (k : Clock) : W64 := BitVec.ofInt 64 k.tb

/-- The bound of c: 200 × 10^-6 in 2^-32 (R39). -/
def rateBound : Int := 858993

/-- The size of the phase term in 2^-32: at most 50 × 10^-6, and no more than keeps c with it within ±200 × 10^-6 (R39, R40). -/
def Clock.phaseTerm (k : Clock) : Nat :=
  if k.slew = 0 then 0 else min 214748 (rateBound - (if k.slew > 0 then k.c else -k.c)).toNat

/-- The offset still to be slewed away, in 2^-32 ticks. -/
def Clock.slewLeft (k : Clock) : Nat := k.slew.natAbs * 2 ^ 32 - k.slewAcc

/-- What the phase term adds over `dt` cycles, in 2^-32 ticks: never more than the offset that is left (R40). -/
def Clock.phaseGain (k : Clock) (dt : Nat) : Int :=
  let most := min k.slewLeft (dt * k.phaseTerm)
  if k.slew ≥ 0 then (most : Int) else -(most : Int)

/-- What 1 + c adds over `dt` cycles, the phase term counted in, in 2^-32 ticks: the accumulator and every NCO take it (R39, R40). -/
def Clock.turned (k : Clock) (dt : Nat) : Int := dt * (2 ^ 32 + k.c) + k.phaseGain dt

/-- The ticks that the accumulator gains over `dt` cycles (R39). -/
def Clock.gain (k : Clock) (dt : Nat) : Nat := ((k.frac + k.turned dt) / 2 ^ 32).toNat

/-- The timebase after `dt` converter clock cycles: the integer part of one accumulator (R39). What is left of a slew is held in whole ticks and the
2^-32 ticks of its last one that are done. -/
def Clock.advance (coarse : Bool) (dt : Nat) (k : Clock) : Clock :=
  let g := coarseTicks coarse k.tb k.coarse (k.gain dt)
  let left : Nat := k.slewLeft - (k.phaseGain dt).natAbs
  let ticks : Nat := (left + 2 ^ 32 - 1) / 2 ^ 32
  { k with tb := k.tb + g.1, coarse := g.2, nco := (k.nco + k.turned dt).toNat, frac := ((k.frac + k.turned dt) % 2 ^ 32).toNat,
           slew := if k.slew ≥ 0 then (ticks : Int) else -(ticks : Int), slewAcc := ticks * 2 ^ 32 - left }

/-- How far the host-side reference has run from the timebase, in ticks, `n` ticks after the last TIME_SYNC: 50 × 10^-6 of the time at the most, at a
rate that the specification leaves open (R43; log 115). -/
def HostSide.drift (h : HostSide) (n : Nat) : Int :=
  let rate : Int := (((Config.hostRate h.lastSync).toNat % 429497 : Nat) : Int) - 214748
  ((n : Int) * rate).tdiv (2 ^ 32)

/-- The follower after `ticks` of time: it moves with the timebase while TIME_SYNC messages reach it (`synced`), and from the host reference otherwise. It
slews (R43): while it is ahead it waits, and while it is behind it takes two ticks for one (log 97). -/
def HostSide.advanceFollower (coarse synced : Bool) (ticks : Nat) (h : HostSide) : HostSide :=
  let free := if synced then 0 else h.followerFree + ticks
  let own := if synced || ticks == 0 then ticks else (ticks + (h.drift free - h.drift h.followerFree)).toNat
  let wait := min h.followerAhead own
  let more := min h.followerBehind own
  let g := coarseTicks coarse h.follower h.followerCoarse (own - wait + more)
  { h with follower := h.follower + g.1, followerCoarse := g.2, followerFree := free, followerAhead := h.followerAhead - wait,
           followerBehind := h.followerBehind - more }

/-- Time passes by `dt` converter clock cycles. The line timebase runs while the line die is out of reset, the follower while
the host die is powered: by the timebase's ticks, or by the cycles where there is none. -/
def State.advance (dt : Nat) (s : State) : State :=
  let coarse := s.dev.rung.coarse
  let lineRuns := s.dev.lineRails && !s.dev.lineReset
  let ticks := if lineRuns then s.line.clock.gain dt else dt
  let synced := s.link.host.up && s.host.inSync && lineRuns
  { s with line := if lineRuns then { s.line with clock := s.line.clock.advance coarse dt } else s.line,
           host := if s.dev.hostRails then s.host.advanceFollower coarse synced ticks else s.host }

end Sys2Proof.Machine
end

