-- ==== Sys2Proof/Machine/Answers.lean ====
section
/-! DEFINITION. How an Eclyn command is judged and answered (R297 to R316), and how the line side's messages leave it. The rows run in Commands. -/

namespace Sys2Proof.Machine

/-! ## Line-side messages -/

/-- A message for the host side is produced. -/
def Line.emit (m : Msg) (l : Line) : Line := { l with out := l.out ++ [m] }

/-- A line-side timestamp (R97, R98); an adjusted one is counted by the scheduler (Table 3.10). -/
def Line.stamp (src : Nat) (t : Tick) (l : Line) : Tick × Bool × Line :=
  let r := stampAt l.stamps src t
  (r.1, r.2.1, { l with stamps := r.2.2, adjusted := satAdd 32 (b2n r.2.1) l.adjusted })

/-- A line-side event at an instant; `outcome` names the action and the frame whose one outcome record it is (R94, R455). -/
def Line.eventOut (outcome : Option (Nat × Nat)) (t : Tick) (code src kind : Nat) (changed : Bool) (epoch : W16) (unit : Nat)
    (fields : List W16) (l : Line) : Line :=
  let r := l.stamp src t
  r.2.2.emit (.event (.plain (eventWords code src kind changed r.2.1 r.1 epoch unit fields)) outcome)

/-- A line-side event at an instant. -/
def Line.eventAt (t : Tick) (code src kind : Nat) (changed : Bool) (epoch : W16) (unit : Nat) (fields : List W16) (l : Line) : Line :=
  l.eventOut none t code src kind changed epoch unit fields

/-- A line-side event at the present timebase. -/
def Line.event (code src kind : Nat) (changed : Bool) (epoch : W16) (unit : Nat) (fields : List W16) (l : Line) : Line :=
  l.eventAt l.clock.tb code src kind changed epoch unit fields

/-- A message that the line side keeps while the barrier is down: events and outcome records (R454). -/
def Msg.held : Msg → Bool
  | .event _ _ => true
  | _ => false

/-- The words that a message takes in the barrier hold. -/
def Msg.holdWords : Msg → Nat
  | .event p _ => p.words.length
  | _ => 0

/-- A message enters the barrier hold of 32,768 words; once one has found it full, it and every further one is discarded and counted (R454). -/
def Line.holdMsg (m : Msg) (l : Line) : Line :=
  if !m.held then l
  else if l.holdLost = 0 ∧ (l.hold.map Msg.holdWords).sum + m.holdWords ≤ 32768 then { l with hold := l.hold ++ [m] }
  else { l with holdLost := l.holdLost + 1 }

/-- A message is sent on one direction of the barrier, at an instant of the sending die (R447). -/
def BarrierEnd.send (t : Tick) (m : Msg) (e : BarrierEnd) : BarrierEnd :=
  { e with flight := e.flight ++ [{ msg := m, sent := t, retries := 0, received := false }] }

/-- The line side's new messages go onto the barrier, or into the hold while it is down (R447, R454). -/
def State.flush (s : State) : State :=
  let line := { s.line with out := [] }
  if s.link.line.up then
    { s with line := line, link := { s.link with line := s.line.out.foldl (fun e m => e.send s.line.clock.tb m) s.link.line } }
  else { s with line := s.line.out.foldl (fun l m => l.holdMsg m) line }

/-- An effect of the line side alone: its messages leave it. -/
def State.onLine (f : Line → Line) (s : State) : State := { s with line := f s.line }.flush

/-- An effect of the host side alone. -/
def State.onHost (f : HostSide → HostSide) (s : State) : State := { s with host := f s.host }

/-! ## Judging -/

/-- What the opcode tables say of a command: opcode, the mark Q, side L, and its mode set (Tables 11.5 to 11.14). -/
structure CmdInfo where
  opcode : Nat
  reduced : Bool
  lineSide : Bool
  modes : Mode → Bool

/-- The set ANY (Table 11.5). -/
def setAny : Mode → Bool := fun _ => true
/-- The set RUN. -/
def setRun : Mode → Bool := fun m => m != .boot
/-- The set IDLE. -/
def setIdle : Mode → Bool := fun m => m == .config || m == .survey || m == .test
/-- The set CFG. -/
def setCfg : Mode → Bool := fun m => m == .config
/-- The set TX. -/
def setTx : Mode → Bool := fun m =>
  m == .headend || m == .corridor || m == .holdover || m == .island || m == .maintain || m == .test
/-- The set TEST. -/
def setTest : Mode → Bool := fun m => m == .test
/-- The modes of LINE_FIRMWARE_UPDATE (Table 11.6). -/
def setUpdate : Mode → Bool := fun m => m == .config || m == .headend || m == .relay || m == .corridor
/-- The mode of QUARANTINE_RELEASE (Table 11.6). -/
def setQuarantine : Mode → Bool := fun m => m == .quarantine

/-- Whether the current mode is in a mode set; HOLDOVER only when the held mode is too (R27, R315). -/
def Dev.inSet (d : Dev) (set : Mode → Bool) : Bool := set d.mode && (d.mode != .holdover || set d.held)

/-- The statuses that R303 judges before a command's own rules, without its epoch (items 2 to 4). In SAFE a command of side L is answered BARRIER
(R35, R316). In QUARANTINE a command outside the reduced set is answered QUARANTINED, FRAME_SUBMIT too (R35, R303; R230 says MODE: log 87). -/
def State.judge (info : CmdInfo) (s : State) : Option Status :=
  if s.dev.mode == .quarantine && !info.reduced then some .quarantined
  else if !s.dev.inSet info.modes then some .mode
  else if info.lineSide && (!s.linePresent || s.dev.mode == .safe) then some .barrier
  else none

/-- The unit whose epoch a reply carries (R314): kind, index, epoch, and the source that samples the reply. -/
structure EpochRef where
  kind : Nat
  unit : Nat
  epoch : W16
  src : Nat

/-- The device mode epoch as a reply's unit, sampled by a command processor (R314). -/
def State.modeRef (cmd : Cmd) (s : State) : EpochRef := ⟨1, 0, s.dev.modeEpoch, 0x8010 + cpOf cmd.via⟩

/-- The device mode epoch as a line-side reply's unit, sampled by the line sequencer of the command processor. -/
def State.modeRefL (cmd : Cmd) (s : State) : EpochRef := ⟨1, 0, s.dev.modeEpoch, 0x0010 + cpOf cmd.via⟩

/-- What a command's own rules answer: a status, result words and the state with the effect. -/
structure Answer where
  status : Status
  words : List W16
  state : State

/-! ## Acceptance and replies -/

/-- The accepted command that a row executes; one accepted at this instant where none waits (R80). -/
def HostSide.acceptedFor (opcode : Nat) (cmd : Cmd) (h : HostSide) : Accepted :=
  match h.accepted.find? (fun a => a.cmd == cmd && a.opcode == opcode && !a.crossed) with
  | some a => a
  | none => { cmd := cmd, opcode := opcode, at_ := h.follower, crossed := false, src := (0, 0) }

/-- Descriptor `i` of a command (Table 8.1), SRC and SEQ still to come. -/
def parseDesc (c : Cmd) (i : Nat) : FrameDesc :=
  let x (j : Nat) := c.word (9 + 14 * i + j)
  let v (j : Nat) := c.value (9 + 14 * i + j) 2
  { chan := x 0 % 256, ofs := v 1, mod := bitsOf (x 3) 12 4, rate := bitsOf (x 3) 10 2, lift := bitsOf (x 3) 8 2, sec := bitOf (x 3) 7,
    type := bitsOf (x 3) 4 3, level := x 4 % 256, slot := x 5 % 64, dest := BitVec.ofNat 32 (v 6), hopsToGo := x 8 / 256, floodK := x 8 % 4,
    floodId := w (x 9), dataLen := x 10, dataOfs := v 11, expEpoch := if bitOf (x 3) 3 then some (w (x 13)) else none, seq := 0, src := 0 }

/-- The opcodes of FRAME_SUBMIT and HAMPER_SUBMIT. -/
def submitOpcodes : List Nat := [0x140, 0x141]

/-- The opcodes of scheduled actions (Table 3.3). -/
def scheduledOpcodes : List Nat := [0x004, 0x007, 0x041, 0x042, 0x048, 0x049, 0x140, 0x141]

/-- Whether the CMD_LINE of a command is still on its way to its rules. -/
def State.underWay (a : Accepted) (s : State) : Bool := (s.link.host.flight.map (·.msg) ++ s.link.line.inbox).contains (.cmdLine a)

/-- Whether a command no longer holds back a later one of its command processor: it is a scheduled action, or it has executed. One that crosses
need only have crossed, for the barrier keeps the order (R311, R447). -/
def State.outOfTheWay (crossing : Bool) (s : State) (b : Accepted) : Bool :=
  scheduledOpcodes.contains b.opcode || (b.crossed && (crossing || !s.underWay b))

/-- Whether a scheduled action of a unit takes effect at the present tick and has not yet (R311): a mode change, an action of a port or channel,
or a frame of a channel. -/
def Line.actionDue (kind unit : Nat) (l : Line) : Bool :=
  let now := l.clock.tb
  l.sched.actions.any fun a =>
    let acts := match a.deferred with | some t => decide (t = now) | none => decide (a.launch = now)
    match a.kind with
    | .modeSet _ => kind == 1 && acts
    | .lineFirmware _ _ => kind == 1 && acts
    | .mute p _ => kind == 3 && unit == p && acts
    | .unmute p => kind == 3 && unit == p && acts
    | .place c _ => kind == 4 && unit == c && acts
    | .chanMode c _ _ => kind == 4 && unit == c && acts
    | .frames _ => kind == 4 && a.frames.any fun f => f.desc.chan == unit && !f.launched && !f.ended && a.launch + f.desc.ofs == now

/-- The unit that a command acts on, by the Epoch column of the opcode tables (R314): its kind, and what names it. -/
def commandUnit (opcode : Nat) (c : Cmd) : Nat × Nat :=
  if [0x103, 0x040, 0x043, 0x044, 0x045, 0x060, 0x061, 0x1C2].contains opcode then (3, c.word 3)
  else if opcode = 0x041 ∨ opcode = 0x042 then (3, c.word 8)
  else if opcode = 0x048 ∨ opcode = 0x049 then (4, c.word 8)
  else if opcode = 0x04A ∨ opcode = 0x142 then (4, c.word 3)
  else if opcode = 0x140 ∨ opcode = 0x141 then (4, c.word 9 % 256)
  else if [0x062, 0x063, 0x064].contains opcode then (5, 0)
  else if [0x184, 0x185].contains opcode then (6, 0)
  else if [0x200, 0x201, 0x202].contains opcode then (7, 0)
  else if [0x240, 0x241, 0x302].contains opcode then (8, 0)
  else if [0x100, 0x101, 0x102, 0x104].contains opcode then (2, 0)
  else (1, 0)

/-- Whether a command of CP0 goes before one of CP1: both act on one unit, so that they may reach it at one tick, or both were accepted at one
instant (R311; log 88). Two frame submissions keep the order of their acceptance (R229). -/
def Accepted.leads (b a : Accepted) : Bool :=
  cpOf b.cmd.via == 0 && cpOf a.cmd.via == 1 && (b.at_ == a.at_ ||
    (commandUnit b.opcode b.cmd == commandUnit a.opcode a.cmd && !(submitOpcodes.contains a.opcode && submitOpcodes.contains b.opcode)))

/-- Whether a command may execute now (R311): its command processor has executed the commands before it, CP0 has executed those that go before it,
and no scheduled action of its unit is due. A scheduled action waits for nothing, but that frames are submitted in the order of their acceptance, in which
they draw their SEQ (R229). -/
def State.inTurn (crossing : Bool) (a : Accepted) (r : EpochRef) (s : State) : Bool :=
  if scheduledOpcodes.contains a.opcode then
    !submitOpcodes.contains a.opcode || (s.host.accepted.takeWhile (· != a)).all fun b => !submitOpcodes.contains b.opcode || b.crossed
  else
    ((s.host.accepted.takeWhile (· != a)).all (fun b => cpOf b.cmd.via != cpOf a.cmd.via || s.outOfTheWay crossing b)
      && s.host.accepted.all (fun b => !b.leads a || s.outOfTheWay crossing b)
      && (crossing || !s.line.actionDue r.kind r.unit))

/-- Whether 512 commands are outstanding (R309). -/
def HostSide.full (h : HostSide) : Bool := decide (512 ≤ h.accepted.length)

/-- A command is answered: it is outstanding no longer (R308). -/
def HostSide.answered (a : Accepted) (h : HostSide) : HostSide := { h with accepted := h.accepted.erase a }

/-- A reply leaves on the reply path of the transport that carried the command (R304 to R307). -/
def HostSide.sendReply (a : Accepted) (words : List W16) (h : HostSide) : HostSide :=
  let h := h.answered a
  match a.cmd.via with
  | .ring0 => h.place 2 (.plain words)
  | .ring1 => h.place 3 (.plain words)
  | .udp => (h.place 4 { Packet.plain words with to_ := a.src }).deliver 4
  | .sp0 => (h.place 5 (.plain words)).deliver 5

/-- Whether a reply of so many words fits its transport (R301, R306). -/
def HostSide.replyFits (h : HostSide) (via : Transport) (n : Nat) : Bool :=
  decide (n ≤ 1088) && (via != .udp || h.eth.carries (n + 1))

/-- The timestamps that sources have issued since a state `before`. -/
def State.stampsSince (s before : State) : List (Nat × Tick) :=
  (s.host.stamps.filter fun p => !before.host.stamps.contains p) ++ s.line.stamps.filter fun p => !before.line.stamps.contains p

/-- The instant of a reply: that of the sample, which is after the last event of the command's own change (R97, R105, R312). `before` is the state in
which the command began. -/
def State.replyTime (s before : State) (now : Tick) : Tick := (s.stampsSince before).foldl (fun t p => max t p.2) now

/-- The reply of a host-side command that began in a state `before` (R301, R312). -/
def State.answerSince (info : CmdInfo) (a : Accepted) (r : EpochRef) (st : Status) (result : List W16) (s before : State) : State :=
  let p := s.host.stamp r.src (s.replyTime before s.host.follower)
  let words := replyWords info.opcode a.cmd.tag p.2.1 s.dev.mode st r.src p.1 r.kind r.epoch r.unit a.at_ result
  { s with host := p.2.2.sendReply a words }

/-- The reply of a host-side command that has produced no event. -/
def State.answerH (info : CmdInfo) (a : Accepted) (r : EpochRef) (st : Status) (result : List W16) (s : State) : State :=
  s.answerSince info a r st result s

/-- The words that a reply carries: none unless the status is OK or ACCEPTED (Table 11.2), but for the channel that R136 has a BUSY reply
of PORT_MASK name (log 41). -/
def resultWords (st : Status) (ws : List W16) : List W16 := if st = .ok ∨ st = .accepted ∨ st = .busy then ws else []

/-- What a refused command leaves on the line side: the counters of refusals and nothing else (Tables 3.10, 4.8, 9.9). -/
def Line.countsOf (l' l : Line) : Line :=
  { l with sched := { l.sched with ctrs := l'.sched.ctrs },
           chans := List.zipWith (fun x y => { x with ctrs4 := y.ctrs4 }) l.chans l'.chans }

/-- The state after a command: changed only under OK or ACCEPTED, but for the counters of refusals (R303). -/
def Answer.effect (a : Answer) (s : State) : State :=
  if a.status = .ok ∨ a.status = .accepted then a.state else { s with line := a.state.line.countsOf s.line }

/-- A host error of a command's parameters (R317, R496): the effect is omitted and the result words are free (log 20). -/
def State.hostError (n : Nat) (s : State) : Answer :=
  let r := (List.range n).map fun i => Config.freeWord (s.host.freeCtr + i)
  ⟨.ok, r, { s with host := { s.host with freeCtr := s.host.freeCtr + n } }⟩

/-- An answer whose reply does not fit becomes NO_RESOURCE with no effect (R306). -/
def Answer.fit (via : Transport) (s : State) (a : Answer) : Answer :=
  if s.host.replyFits via (16 + a.words.length) then a else ⟨.noResource, [], s⟩

/-- Whether an expected epoch differs from the unit's (R299). -/
def epochDiffers (cmd : Cmd) (epoch : W16) : Bool := cmd.expect && cmd.params.getLastD 0 != epoch

/-- Whether a command is served at all: host firmware runs (R315), and a rung below ROW is left first (R486). -/
def State.serves (opcode : Nat) (s : State) : Bool := s.host.running && (s.dev.rung == .row || opcode == 0x006)

/-- Transport counter `i` of DIAG_STATUS (Table 11.14). -/
def HostSide.countTransport (i : Nat) (h : HostSide) : HostSide := { h with transport := countAt i 32 1 h.transport }

/-- What an answer of a command needs of its opcode. -/
def infoOf (opcode : Nat) : CmdInfo := ⟨opcode, false, true, setAny⟩

end Sys2Proof.Machine
end

