-- ==== Sys2Proof/Machine/Rings.lean ====
section
/-! DEFINITION. Register accesses through BAR0 (R345, R363, R486) and the rings in host memory (R346, R350 to R353). -/

namespace Sys2Proof.Machine

/-- Whether the host die runs: its rails in range and RESET_N high (R466, R472). -/
def State.hostOn (s : State) : Bool := s.dev.hostRails && s.dev.resetPin

/-- Whether the host links are stopped by the test port (R363). -/
def State.linksStopped (s : State) : Bool := s.host.linksStopped

/-- A register access through BAR0: it is served in ROW, after any wake (R486), while the host links run. -/
def State.bar0 (f : State → State) (s : State) : State :=
  if s.hostOn && s.dev.rung == .row && !s.linksStopped then f s else s

/-- A register access that concerns the host side alone. -/
def State.bar0H (f : HostSide → HostSide) (s : State) : State := s.bar0 fun s => { s with host := f s.host }

/-- The value that the last read of a register returned. -/
def HostSide.returned (v : W32) (h : HostSide) : HostSide := { h with readData := v }

/-! ## Rings -/

/-- Ring `r`. -/
def HostSide.ring (h : HostSide) (r : Nat) : Ring := nth h.rings r Ring.reset

/-- Ring `r` changed. -/
def HostSide.modRing (r : Nat) (f : Ring → Ring) (h : HostSide) : HostSide := { h with rings := h.rings.modify r f }

/-- ENABLE of H_Rr_CTRL. -/
def Ring.enabled (g : Ring) : Bool := g.ctrl.getLsbD 31

/-- Slots of a ring, 2^SIZE_LOG2 (R350). -/
def Ring.size (g : Ring) : Nat := 2 ^ bitsOf g.ctrl.toNat 0 5

/-- BASE of a ring, 64-byte aligned (Tables 13.7, 13.8). -/
def Ring.base (g : Ring) : Nat := g.baseHi.toNat * 2 ^ 32 + g.baseLo.toNat / 64 * 64

/-- The host address of a slot count (R350). -/
def Ring.slotAt (g : Ring) (c : Nat) : Nat := g.base + 64 * (c % g.size)

/-- HOLDOFF in ticks. -/
def Ring.holdoff (g : Ring) : Tick := ((bitsOf g.ctrl.toNat 16 10 * 1500 : Nat) : Int)

/-- An advance of a ring: its cause bit sets at most once in HOLDOFF (R352). -/
def HostSide.ringAdvance (r : Nat) (h : HostSide) : HostSide :=
  let g := h.ring r
  if h.follower ≥ g.holdoffEnd then
    (h.modRing r fun g => { g with holdoffEnd := h.follower + g.holdoff, owedCause := false }).raise (7 + r)
  else h.modRing r fun g => { g with owedCause := true }

/-- The queue that a device ring carries (R350). -/
def ringQueue (r : Nat) : Nat := if r < 4 then r else r - 4

/-- Slots of a packet: ceil(LENGTH / 32) (R305). -/
def slotsOf (words : Nat) : Nat := (words + 31) / 32

/-- Whether the device may issue PCI Express requests (R346): the link is active in ROW and PADDLE (Table 19.8). -/
def State.mayRequest (s : State) : Bool :=
  s.hostOn && s.host.ints.maySend (!s.linksStopped) && (s.dev.rung == .row || s.dev.rung == .paddle)

/-- A request of a ring ends in an error: ERR, the ring stops, and AER has the bit of the error (R353). -/
def HostSide.ringError (r bit : Nat) (h : HostSide) : HostSide :=
  { h.modRing r fun g => { g with ctrl := (g.ctrl ||| 0x40000000) &&& 0x7FFFFFFF } with
      pci := { h.pci with uncStatus := h.pci.uncStatus ||| (1 <<< bit) } }

/-- A packet written to host memory from slot count `c` on, slot by slot (R352). -/
def writeSlots (g : Ring) : Nat → Nat → List W16 → Memory → Memory
  | 0, _, _, m => m
  | n + 1, c, ws, m => writeSlots g n (c + 1) (ws.drop 32) (m.writeN (g.slotAt c) (wordBytes (ws.take 32)))

end Sys2Proof.Machine
end

