-- ==== Sys2Proof/Machine/Units.lean ====
section
/-! DEFINITION. The units whose epochs replies carry (R314, Table 3.11), and the entries by which tables name them. -/

namespace Sys2Proof.Machine

/-- Port `p`. -/
def Line.port (l : Line) (p : Nat) : Port := nth l.ports p Port.reset

/-- Channel `c`. -/
def Line.chan (l : Line) (c : Nat) : Chan := nth l.chans c (Chan.reset c)

/-- Key slot `n`. -/
def HostSide.key (h : HostSide) (n : Nat) : KeySlot := nth h.keys n KeySlot.reset

/-- The entry of a neighbour on a channel (R257). -/
def Line.entry? (l : Line) (c : Nat) (node : W32) : Option LinkEntry := l.links.entries.find? fun e => e.chan == c && e.node == node

/-- The epoch of an index (R259). -/
def epochOfIndex (es : List (Nat × W16)) (i : Nat) : W16 := (es.lookup i).getD 0

/-- The entries that LINK_TABLE_READ returns, from the first index upward (Table 11.8). -/
def Line.linkSlice (l : Line) (c : Cmd) : List LinkEntry :=
  (((l.links.entries.filter fun e => decide (e.index ≥ c.word 3) && (c.word 5 == 0xFFFF || e.chan == c.word 5)).insertionSort
    fun a b => a.index ≤ b.index).take (c.word 4))

/-- The link entry as a reply's unit: an index (R314). -/
def State.linkRef (cmd : Cmd) (i : Nat) (s : State) : EpochRef := ⟨5, i, epochOfIndex s.line.links.epochs i, 0x0010 + cpOf cmd.via⟩

/-- The unit of LINK_TABLE_READ: the first entry it returns (R314). -/
def State.linkReadRef (cmd : Cmd) (s : State) : EpochRef :=
  s.linkRef cmd (((s.line.linkSlice cmd).head?.map (·.index)).getD (cmd.word 3))

/-- The unit of LINK_VERDICT and LINK_PIN: the entry named. -/
def State.linkNamedRef (cmd : Cmd) (s : State) : EpochRef :=
  s.linkRef cmd (((s.line.entry? (cmd.word 3) (BitVec.ofNat 32 (cmd.value 4 2))).map (·.index)).getD 0)

/-- The lowest unused index of a table of `n` (log 45). -/
def freeIndex (n : Nat) (used : List Nat) : Option Nat := (List.range n).find? fun i => !used.contains i

/-- The hop entry of a node. -/
def Line.hop? (l : Line) (node : W32) : Option HopEntry := l.relay.hops.find? fun e => e.node == node

/-- The learned entry updated longest ago. -/
def Line.oldestHop (l : Line) : Option HopEntry :=
  (l.relay.hops.filter fun e => !e.static).foldl (fun b e => match b with | none => some e | some x => if e.updated < x.updated then some e else some x) none

/-- The index that a new node ID takes: an unused one, else that of the learned entry updated longest ago (R276, log 45). -/
def Line.hopIndex (l : Line) : Option Nat := (freeIndex 4096 (l.relay.hops.map (·.index))).or (l.oldestHop.map (·.index))

/-- The index of the entry that a RELAY_TABLE_WRITE names or will create. -/
def Line.writeIndex (l : Line) (c : Cmd) : Nat :=
  let held := (l.hop? (BitVec.ofNat 32 (c.value 3 2))).map (·.index)
  if c.word 6 = 0 then (held.or l.hopIndex).getD 0 else held.getD 0xFFFF

/-- A relay entry as a reply's unit (R314). -/
def State.relayRef (cmd : Cmd) (i : Nat) (s : State) : EpochRef := ⟨6, i, epochOfIndex s.line.relay.epochs i, 0x0010 + cpOf cmd.via⟩

/-- The entries that RELAY_TABLE_READ returns, in index order. -/
def Line.hopSlice (l : Line) (c : Cmd) : List HopEntry :=
  ((l.relay.hops.filter fun e => decide (e.index ≥ c.word 3)).insertionSort fun a b => a.index ≤ b.index).take (c.word 4)

/-- The unit of RELAY_TABLE_READ: the first entry it returns (R314). -/
def State.relayReadRef (cmd : Cmd) (s : State) : EpochRef :=
  s.relayRef cmd (((s.line.hopSlice cmd).head?.map (·.index)).getD (cmd.word 3))

/-- The port as a line-side reply's unit (R314, Table 3.11). -/
def State.portRefL (p : Nat) (s : State) : EpochRef := ⟨3, p, (s.line.port p).epoch, 0x100 + p⟩

/-- The channel as a line-side reply's unit (R314, Table 3.11). -/
def State.chanRefL (c : Nat) (s : State) : EpochRef := ⟨4, c, (s.line.chan c).epoch, 0x200 + c⟩

/-- The time unit as a reply's unit (R314, Table 3.11): sampled by the time unit. -/
def State.timeRefL (s : State) : EpochRef := ⟨2, 0, s.line.time.epoch, 0⟩

/-- A key slot as a reply's unit (R314). -/
def State.keyRef (cmd : Cmd) (n : Nat) (s : State) : EpochRef := ⟨7, n, (s.host.key n).epoch, 0x8010 + cpOf cmd.via⟩

/-- The lowest slot that a KEY_ERASE names; slot 0 where it names none. -/
def firstNamed (c : Cmd) : Nat := ((List.range 64).find? (bitOf (c.value 3 4))).getD 0

/-- The receive queue of a port as a reply's unit (R314). -/
def State.rxqRef (cmd : Cmd) (n : Nat) (s : State) : EpochRef := ⟨8, 8 + n, (s.host.sp n).queueEpoch, 0x8010 + cpOf cmd.via⟩

/-- A queue as a reply's unit (R314). -/
def State.queueRef (cmd : Cmd) (n : Nat) (s : State) : EpochRef := ⟨8, n, (s.host.queue n).epoch, 0x8010 + cpOf cmd.via⟩

/-- The unit whose epoch a reply carries, by the Epoch column of the opcode tables (R314), as a command processor samples it. -/
def State.unitRef (opcode : Nat) (c : Cmd) (s : State) : EpochRef :=
  let r : EpochRef :=
    if [0x103, 0x040, 0x043, 0x044, 0x045, 0x060, 0x061, 0x1C2].contains opcode then s.portRefL (c.word 3)
    else if opcode = 0x041 ∨ opcode = 0x042 then s.portRefL (c.word 8)
    else if opcode = 0x048 ∨ opcode = 0x049 then s.chanRefL (c.word 8)
    else if opcode = 0x04A ∨ opcode = 0x142 then s.chanRefL (c.word 3)
    else if opcode = 0x140 ∨ opcode = 0x141 then s.chanRefL (c.word 9 % 256)
    else if opcode = 0x062 then State.linkReadRef c s
    else if opcode = 0x063 ∨ opcode = 0x064 then State.linkNamedRef c s
    else if opcode = 0x184 then State.relayRef c (s.line.writeIndex c) s
    else if opcode = 0x185 then State.relayReadRef c s
    else if opcode = 0x200 ∨ opcode = 0x202 then State.keyRef c (c.word 3) s
    else if opcode = 0x201 then State.keyRef c (firstNamed c) s
    else if opcode = 0x240 ∨ opcode = 0x241 then State.rxqRef c (c.word 3) s
    else if opcode = 0x302 then State.queueRef c (c.word 3) s
    else if [0x100, 0x101, 0x102, 0x104].contains opcode then s.timeRefL
    else State.modeRef c s
  { r with src := 0x8010 + cpOf c.via }

end Sys2Proof.Machine
end

