-- ==== Sys2Proof/Machine/Inputs.lean ====
section
/-! DEFINITION. The four command inputs (R297 to R309, R336, R351): how packets on rings 0 and 1, UDP and SP0 are read, checked and accepted, and how
they wait while their reply queue has no room. The rows of the inputs stand in Transports. -/

namespace Sys2Proof.Machine

/-! ## Opcodes -/

/-- The opcodes of the host side with their side (Tables 11.6, 11.12 to 11.14). -/
def hostOpcodes : List (Nat × Bool) :=
  [(0x000, false), (0x001, false), (0x002, false), (0x003, true), (0x004, true), (0x005, false), (0x006, false), (0x007, true), (0x008, false),
   (0x009, false), (0x200, false), (0x201, false), (0x202, false), (0x203, false), (0x204, false), (0x205, false), (0x240, false), (0x241, false),
   (0x300, false), (0x301, false), (0x302, false)]

/-- The opcodes of time, ports, channels, maps and links (Tables 11.7, 11.8). -/
def lineOpcodes : List (Nat × Bool) :=
  [(0x100, true), (0x101, true), (0x102, true), (0x103, true), (0x104, true), (0x108, true), (0x109, true), (0x040, true), (0x041, true),
   (0x042, true), (0x043, true), (0x044, true), (0x045, true), (0x048, true), (0x049, true), (0x04A, true), (0x060, true), (0x061, true),
   (0x062, true), (0x063, true), (0x064, true)]

/-- The opcodes of frames, relays and line memory (Tables 11.9 to 11.11). -/
def frameOpcodes : List (Nat × Bool) :=
  [(0x140, true), (0x141, true), (0x142, true), (0x180, true), (0x182, true), (0x183, true), (0x184, true), (0x185, true), (0x186, true),
   (0x1C0, true), (0x1C1, true), (0x1C2, true), (0x1C3, true)]

/-- Every assigned opcode, with whether its side is L. -/
def opcodeTable : List (Nat × Bool) := hostOpcodes ++ lineOpcodes ++ frameOpcodes

/-! ## Acceptance -/

/-- A packet as a command (Table 11.1): words 0 to LENGTH − 1. -/
def parseCmd (via : Transport) (ws : List W16) : Cmd :=
  let x := (nth ws 0 0).toNat
  { via := via, tag := nth ws 1 0, clr := bitOf x 0, expect := bitOf x 1, params := ws.drop 3 }

/-- The opcode of a packet. -/
def opcodeOf (ws : List W16) : Nat := (nth ws 0 0).toNat / 64

/-- A command other than RUNG_SET below ROW begins the exit (R486). -/
def State.wakeFor (source : Nat) (s : State) : State :=
  if s.dev.rung = .row then s
  else { s with dev := { s.dev with exit := some (s.dev.exit.getD { began := s.host.follower, source := source }) } }

/-- Whether the reply queue of a transport has 1,088 words free, the longest reply, beside as many for each reply that it is still to take (R336; log 131). -/
def HostSide.room (via : Transport) (h : HostSide) : Bool :=
  let q := h.queue (replyQueue via)
  let owed := (h.accepted.filter fun a => a.cmd.via == via).length
  decide (q.level + q.holdWords + (1088 + b2n q.framing) * (owed + 1) ≤ q.depthF)

/-- The acceptance of a packet that a transport took in at an instant (R80). -/
def acceptanceOf (via : Transport) (src : W32 × W16) (t : Tick) (ws : List W16) : Accepted :=
  { cmd := parseCmd via ws, opcode := opcodeOf ws, at_ := t, crossed := false, src := src }

/-- A command is accepted and outstanding (R308); an unassigned opcode is answered MODE at once (R303). -/
def State.accept (a : Accepted) (s : State) : State :=
  let s := if a.opcode = 0x006 then s else s.wakeFor 17
  if (opcodeTable.lookup a.opcode).isSome then s.onHost fun h => { h with accepted := h.accepted ++ [a] }
  else s.answerH (infoOf a.opcode) a (s.modeRef a.cmd) .mode []

/-- A command on UDP or SP0: answered BUSY at once while 512 are outstanding (R309). -/
def State.acceptOr (a : Accepted) (s : State) : State :=
  if !s.host.full then s.accept a
  else
    let s := s.onHost (HostSide.countTransport 2)
    s.answerH (infoOf a.opcode) a (s.unitRef a.opcode a.cmd) .busy []

/-! ## Rings -/

/-- The transport of a command ring. -/
def ringVia (r : Nat) : Transport := if r = 0 then .ring0 else .ring1

/-- The words of `n` slots of a ring from slot count `c` on (R305). -/
def readSlots (g : Ring) (m : Memory) : Nat → Nat → List W16
  | 0, _ => []
  | n + 1, c => byteWords (m.readN (g.slotAt c) 64) ++ readSlots g m n (c + 1)

/-- Whether a command processor reads the next packet of a ring: fewer than 512 commands are outstanding and its reply has room (R309, R336). -/
def HostSide.reads (h : HostSide) (r : Nat) : Bool := !h.full && h.room (ringVia r)

/-- Packets are read from CONS up to PROD (R351). A LENGTH outside 3 to 1,024 is a host error: its slot is skipped (R305; log 20). -/
def State.readRing (r : Nat) : Nat → State → State
  | 0, s => s
  | fuel + 1, s =>
    let g := s.host.ring r
    if g.prod = g.cons then s
    else if !s.host.reads r then (if s.host.full then s.onHost (HostSide.countTransport 3) else s)
    else
      let len := (nth (readSlots g s.hostRam 1 g.cons.toNat) 2 0).toNat
      let ok := decide (3 ≤ len ∧ len ≤ 1024)
      let n := if ok then slotsOf len else 1
      let ws := (readSlots g s.hostRam n g.cons.toNat).take len
      let s := s.onHost fun h => (h.modRing r fun g => { g with cons := g.cons + BitVec.ofNat 32 n }).ringAdvance r
      (if ok then s.accept (acceptanceOf (ringVia r) (0, 0) s.host.follower ws) else s).readRing r fuel

/-- A command ring is served: while it is enabled and the device may read host memory; a PROD too far ahead is a host error (R351). -/
def State.serveRing (r : Nat) (s : State) : State :=
  let g := s.host.ring r
  let n := (g.prod - g.cons).toNat
  if s.host.running && g.enabled && s.mayRequest && decide (n ≤ g.size) then s.readRing r n else s

/-! ## UDP and SP0 -/

/-- The packets of a command datagram in order, each with its CHECK, up to the first that fails; and whether one failed (R306). -/
def splitPackets : Nat → List W16 → List (List W16) × Bool
  | 0, ws => ([], !ws.isEmpty)
  | fuel + 1, ws =>
    if ws.isEmpty then ([], false)
    else
      let len := (nth ws 2 0).toNat
      let p := ws.take len
      if len < 3 ∨ 1024 < len ∨ ws.length < len + 1 ∨ nth ws len 0 ≠ w (crc16 (wordBytes p)) then ([], true)
      else
        let r := splitPackets fuel (ws.drop (len + 1))
        (p :: r.1, r.2)

/-- Whether the Ethernet port works (Table 19.8); in DRIFT it buffers. -/
def State.etherOn (s : State) : Bool := s.hostOn && s.host.running && !s.linksStopped && s.dev.rung != .moored && s.dev.rung != .ashore

/-- The bytes between two flags without their escapes; none for an escape before the flag (R307). -/
def unescape : List Byte → Option (List Byte)
  | [] => some []
  | [b] => if b = 0x7D then none else some [b]
  | a :: b :: t => if a = 0x7D then (unescape t).map ((b ^^^ 0x20) :: ·) else (unescape (b :: t)).map (a :: ·)

/-- The packet of a frame on SP0, or none where the frame is discarded (R307). -/
def sp0Packet (bytes : List Byte) : Option (List W16) :=
  match unescape bytes with
  | some (stream :: p) =>
    let ws := byteWords p
    let len := (nth ws 2 0).toNat
    if bytes.length < 9 ∨ stream ≠ 0 ∨ p.length % 2 = 1 ∨ len < 3 ∨ 1024 < len ∨ ws.length ≠ len + 1
        ∨ nth ws len 0 ≠ w (crc16 (wordBytes (ws.take len))) then none
    else some (ws.take len)
  | _ => none

/-- Whether SP0 receives: in MOORED and ASHORE only once a start edge has begun the exit (R384, Table 19.8). -/
def State.sp0On (s : State) : Bool :=
  s.hostOn && s.host.running && !s.linksStopped && (!(s.dev.rung == .moored || s.dev.rung == .ashore) || s.dev.exit.isSome)

/-- The bytes of the receive buffer of the Ethernet port that are in use (R356). -/
def Eth.used (e : Eth) : Nat := (e.buffered.map (·.length)).sum + (e.waiting.map (·.size)).sum

/-- The packets of a command datagram that pass, and whether a packet or the header failed (R306): a header other than that of stream 0 fails. -/
def parseDatagram (bytes : List Byte) : List (List W16) × Bool :=
  let ws := byteWords (bytes.take (bytes.length / 2 * 2))
  let r := if nth ws 0 0 = 0x0100 ∧ 2 ≤ ws.length then splitPackets ws.length (ws.drop 2) else ([], true)
  (r.1, r.2 || decide (bytes.length % 2 = 1))

/-- The packets of a datagram as they wait: the last of them frees the bytes of its frame, the datagram with its IPv4 and UDP headers. -/
def waitingOf (src : W32 × W16) (t : Tick) (bytes : Nat) (ps : List (List W16)) : List NetPacket :=
  ps.zipIdx.map fun p => { src := src, at_ := t, words := p.1, size := if p.2 + 1 = ps.length then bytes + 28 else 0 }

/-- The waiting packets of UDP are read while the reply queue has room (R336). -/
def State.readUdp : Nat → State → State
  | 0, s => s
  | fuel + 1, s =>
    match s.host.eth.waiting with
    | [] => s
    | p :: rest =>
      if !s.host.room .udp then s
      else ((s.onHost fun h => { h with eth := { h.eth with waiting := rest } }).acceptOr (acceptanceOf .udp p.src p.at_ p.words)).readUdp fuel

/-- The command processors read on what waits on the rings and on UDP: whenever a reply has left, a queue has been read or a link has come back
(R309, R336, R346, R351; log 131). -/
def State.readInputs (s : State) : State :=
  let s := (s.serveRing 0).serveRing 1
  if s.etherOn then s.readUdp s.host.eth.waiting.length else s

/-- The flag byte of SP0 (R307). -/
def sp0Flag : Byte := 0x7E

/-- The first whole frame in CP0's buffer of SP0: its bytes between two flags, the instant of the closing flag, and what stays in the buffer, that flag
first, which the next frame may share (R307). -/
def sp0First : List (Byte × Tick) → Option (List Byte × Tick × List (Byte × Tick))
  | [] => none
  | c :: t =>
    if c.1 ≠ sp0Flag then sp0First t
    else
      let body := t.takeWhile fun x => x.1 != sp0Flag
      match t.dropWhile fun x => x.1 != sp0Flag with
      | [] => none
      | f :: rest => if body.isEmpty then sp0First t else some (body.map (·.1), f.2, f :: rest)

end Sys2Proof.Machine
end

