-- ==== Sys2Proof/Machine/Commands.lean ====
section
/-! DEFINITION. How a command row runs (R297 to R316): it takes up its accepted command, judges it, applies its own rules and answers it, alone or
across the barrier. -/

namespace Sys2Proof.Machine

/-- Whether a row's command is one that has been accepted and waits for its command processor (R308). -/
def HostSide.holds (opcode : Nat) (cmd : Cmd) (h : HostSide) : Bool :=
  h.accepted.any fun a => a.cmd == cmd && a.opcode == opcode && !a.crossed

/-- A command that comes in with its row (log 131): it is not read while its reply queue has no room (R336), and at 512 outstanding it is answered BUSY on UDP
or SP0 and not read on a ring (R309); else it is accepted. -/
def State.comesIn (info : CmdInfo) (cmd : Cmd) (r : EpochRef) (s : State) : State :=
  let a := s.host.acceptedFor info.opcode cmd
  if !s.host.room cmd.via then s
  else if !s.host.full then s.onHost fun h => { h with accepted := h.accepted ++ [a] }
  else match cmd.via with
    | .udp => (s.onHost (HostSide.countTransport 2)).answerH info a r .busy []
    | .sp0 => (s.onHost (HostSide.countTransport 2)).answerH info a r .busy []
    | .ring0 => s
    | .ring1 => s

/-- The command of a row is taken up: where it waits already nothing happens; else the command processors read on, and one that no input holds comes in. -/
def State.takeCmd (info : CmdInfo) (cmd : Cmd) (r : State → EpochRef) (s : State) : State :=
  if !s.serves info.opcode || s.host.holds info.opcode cmd then s
  else
    let s := s.readInputs
    if s.host.holds info.opcode cmd then s else s.comesIn info cmd (r s)

/-- A command of side H that has been taken up (R303): judged, its own rules applied, answered. `unit` names the epoch unit of the reply. With the reply one
command less is outstanding, and the command processors read on (R309, R351). -/
def State.runHeld (info : CmdInfo) (cmd : Cmd) (unit : State → EpochRef) (rules : State → Answer) (s : State) : State :=
  if !s.serves info.opcode || !s.host.holds info.opcode cmd then s
  else
    let a := s.host.acceptedFor info.opcode cmd
    if !s.inTurn false a (unit s) then s
    else match s.judge info with
    | some st => (s.answerH info a (unit s) st []).readInputs
    | none =>
      if epochDiffers cmd (unit s).epoch then (s.answerH info a (unit s) .epochStale []).readInputs
      else
        let ans := (rules s).fit cmd.via s
        let t := ans.effect s
        (t.answerSince info a (unit t) ans.status (resultWords ans.status ans.words) s).readInputs

/-- A command of side H (R303, R309, R336). -/
def State.runH (info : CmdInfo) (cmd : Cmd) (unit : State → EpochRef) (rules : State → Answer) (s : State) : State :=
  (s.takeCmd info cmd unit).runHeld info cmd unit rules

/-- The class of an action (Table 3.3). -/
def ActKind.cls : ActKind → Nat
  | .modeSet _ => 1 | .lineFirmware _ _ => 1 | .mute _ _ => 2 | .unmute _ => 2 | .place _ _ => 3 | .chanMode _ _ _ => 3 | .frames _ => 4

/-- The unit of an action (R94, R314): epoch kind, index and source of its ACTION_DONE. -/
def ActKind.unit : ActKind → Nat × Nat × Nat
  | .modeSet _ => (1, 0, 0x8000) | .lineFirmware _ _ => (1, 0, 0x8000)
  | .mute p _ => (3, p, 0x100 + p) | .unmute p => (3, p, 0x100 + p)
  | .place c _ => (4, c, 0x200 + c) | .chanMode c _ _ => (4, c, 0x200 + c) | .frames _ => (4, 0, 0x200)

/-- The index that marks an ACTION_DONE among outcome records. -/
def doneIndex : Nat := 256

/-- The note that the host side keeps of an action (R455). -/
def Action.note (a : Action) : Note :=
  { tag := a.tag, via := a.via, action := a.id, index := doneIndex, frame := false, cls := a.kind.cls, kind := a.kind.unit.1, unit := a.kind.unit.2.1,
    ofs := 0, planned := a.launch, slipped := a.slipped, seq := 0, level := 0, closed := false }

/-- A frame of an accepted command as the transmit frame queue takes it in (R337). -/
def hostFrame (a : Action) (i : Nat) (d : FrameDesc) : HostFrame :=
  { action := a.id, index := i, tag := a.tag, via := a.via, accepted := a.accepted, launch := a.launch + d.ofs, slipped := a.slipped, desc := d,
    payload := none, ciphering := d.sec, waited := false }

/-- What a reply tells the host side of the action that its command has queued: the note of an action, or the frames of a transmission. -/
def Action.toNote (a : Action) : Option Note := if a.frames.isEmpty then some a.note else none

/-- The frames of a transmission for the transmit frame queue. -/
def Action.toFrames (a : Action) : List HostFrame := a.frames.zipIdx.map fun f => hostFrame a f.2 f.1.desc

/-- The reply of a line-side command goes up as REPLY_LINE; it is lost while the line side has declared the barrier down (R457). `b` is the action
that the command has queued. -/
def State.answerWith (info : CmdInfo) (a : Accepted) (r : EpochRef) (st : Status) (result : List W16) (t : Tick) (b : Option Action) (s : State) : State :=
  let p := s.line.stamp r.src t
  let words := replyWords info.opcode a.cmd.tag p.2.1 s.dev.mode st r.src p.1 r.kind r.epoch r.unit a.at_ result
  let reply : LineReply :=
    { via := a.cmd.via, tag := a.cmd.tag, words := words, note := b.bind Action.toNote, frames := (b.map Action.toFrames).getD [] }
  { s with line := p.2.2.emit (.replyLine reply) }.flush

/-- The action that a command has queued: the one numbered at it. -/
def State.newAction (before : State) (s : State) : Option Action := s.line.sched.actions.find? fun a => a.id == before.line.sched.nextId

/-- The reply of a command that the line side has executed in a state `before`. -/
def State.answerL (info : CmdInfo) (a : Accepted) (r : EpochRef) (st : Status) (result : List W16) (s before : State) : State :=
  s.answerWith info a r st result (s.replyTime before s.line.clock.tb) (State.newAction before s)

/-- A command crosses as CMD_LINE and waits for its REPLY_LINE (R22, R452). -/
def State.cross (a : Accepted) (s : State) : State :=
  let b := { a with crossed := true }
  let h := s.host
  { s with host := { h with accepted := h.accepted.map fun x => if x = a then b else x },
           link := { s.link with host := s.link.host.send h.follower (.cmdLine b) } }

/-- The commands that have arrived together, up to the first message of another kind. -/
def arrivals : List Msg → List Accepted
  | .cmdLine a :: t => a :: arrivals t
  | _ => []

/-- The command that the line side takes up next of those that have arrived together: the first, but where that is one of CP1 the first of CP0, when it goes
before it (R311). -/
def nextArrival (as : List Accepted) : Option Accepted :=
  match as with
  | [] => none
  | a :: t => some (((t.find? fun b => cpOf b.cmd.via == 0).filter fun b => b.leads a).getD a)

/-- The CMD_LINE that the line side takes up next, when it is the command of a row (R311, R447), and the barrier end without it. -/
def State.arrived (opcode : Nat) (cmd : Cmd) (s : State) : Option (Accepted × BarrierEnd) :=
  match nextArrival (arrivals s.link.line.inbox) with
  | some a =>
    if a.opcode = opcode ∧ a.cmd = cmd ∧ s.line.ready = true then some (a, { s.link.line with inbox := s.link.line.inbox.erase (.cmdLine a) }) else none
  | none => none

/-- Whether the CMD_LINE of a row's command has been sent and its reply has not come. -/
def HostSide.waits (opcode : Nat) (cmd : Cmd) (h : HostSide) : Bool :=
  h.accepted.any (fun a => a.cmd == cmd && a.opcode == opcode && a.crossed) && !h.accepted.any fun a => a.cmd == cmd && a.opcode == opcode && !a.crossed

/-- What the line side does with a command that has crossed (R299, R303): it compares an expected epoch, but not that of a scheduled action (R92),
applies the command's own rules and replies. `expect` names the unit of the expected epoch, `reply` the unit that the reply carries, of the
states before and after. -/
def State.executeL (info : CmdInfo) (a : Accepted) (scheduled : Bool) (expect : State → EpochRef) (reply : State → State → EpochRef)
    (rules : Accepted → State → Answer) (s : State) : State :=
  if !scheduled && epochDiffers a.cmd (expect s).epoch then s.answerL info a (reply s s) .epochStale [] s
  else
    let ans := (rules a s).fit a.cmd.via s
    let t := ans.effect s
    t.answerL info a (reply s t) ans.status (resultWords ans.status ans.words) s

/-- The host side of a command of side L that has been taken up (R22, R303): in its turn it is answered what R303 judges before the line side is needed, or
sent as CMD_LINE. `r` is the unit of its reply. -/
def State.sendHeld (info : CmdInfo) (cmd : Cmd) (expect r : State → EpochRef) (s : State) : State :=
  if !s.serves info.opcode || !s.host.holds info.opcode cmd then s
  else
    let a := s.host.acceptedFor info.opcode cmd
    if !s.inTurn true a (expect s) then s
    else match s.judge info with
      | some st => (s.answerH info a (r s) st []).readInputs
      | none => s.cross a

/-- The unit of a reply as a command processor samples it (R314). -/
def State.asCp (cmd : Cmd) (r : State → EpochRef) (s : State) : EpochRef := { r s with src := 0x8010 + cpOf cmd.via }

/-- The host side of a command of side L: nothing while its CMD_LINE is out. -/
def State.sendOn (info : CmdInfo) (cmd : Cmd) (expect reply : State → EpochRef) (s : State) : State :=
  if s.host.waits info.opcode cmd then s
  else (s.takeCmd info cmd (State.asCp cmd reply)).sendHeld info cmd expect (State.asCp cmd reply)

/-- A command of side L (R22, R303). In its turn the host side answers what R303 judges before the line side is needed, or sends CMD_LINE; once that
has arrived, the line side executes the command. -/
def State.runWith (info : CmdInfo) (cmd : Cmd) (scheduled : Bool) (expect : State → EpochRef) (reply : State → State → EpochRef)
    (rules : Accepted → State → Answer) (s : State) : State :=
  match s.arrived info.opcode cmd with
  | some (a, e) =>
    if !scheduled && s.line.actionDue (expect s).kind (expect s).unit then s
    else { s with link := { s.link with line := e } }.executeL info a scheduled expect reply rules
  | none => s.sendOn info cmd expect fun s => reply s s

/-- A command of side L whose expected epoch and reply are of one unit (R314). -/
def State.runL (info : CmdInfo) (cmd : Cmd) (scheduled : Bool) (unit : State → EpochRef) (rules : Accepted → State → Answer)
    (s : State) : State := s.runWith info cmd scheduled unit (fun _ => unit) rules

end Sys2Proof.Machine
end

