-- ==== Sys2Proof/Machine/Queues.lean ====
section
/-! DEFINITION. Queue windows and resets (R329 to R342), rings (R350 to R353), interrupt registers (R348) and the follower's
time registers (R349). -/

namespace Sys2Proof.Machine

/-! ## Windows -/

/-- A window read that takes a word, when there is one (R329). -/
def HostSide.takeWord (n : Nat) (h : HostSide) : Option HostSide :=
  (h.queue n).take.map fun r =>
    let f := (h.modQueue n fun _ => r.2).fetched n [r.1.1]
    f.2.returned (windowWord (f.1.headD 0, r.1.2))

/-- A window read that meets an empty queue and returns at once: UNDERRUN, nothing consumed (R330). -/
def HostSide.underrun (n : Nat) (h : HostSide) : HostSide :=
  let q := h.queue n
  ((h.modQueue n fun q => { q with underrun := true }).raiseIf (q.ctrl.getLsbD 8) n).returned (windowEmpty q.lastWord q.lastMark)

/-- A read of H_Qn_DATA at the head of the window (R330): on an empty queue it returns at once, or stalls from now on for the STALL_LIMIT in force. -/
def HostSide.windowHead (n : Nat) (h : HostSide) : HostSide :=
  match h.takeWord n with
  | some h' => h'
  | none =>
    if (h.queue n).ctrl.getLsbD 2 then h.modQueue n fun q => { q with waiting := [.read], stallEnd := h.follower + q.stallLimit } else h.underrun n

/-- H_Qn_LOST as a read returns it (Table 12.11). -/
def lostValue (c : Ctr) : W32 := BitVec.ofNat 32 (c.val + if c.ovf then 2 ^ 31 else 0)

/-- A read of H_Qn_LOST: the count and its overflow bit are returned and cleared (R13, R15). -/
def HostSide.lostRead (n : Nat) (h : HostSide) : HostSide :=
  (h.modQueue n fun q => { q with lost := Ctr.zero }).returned (lostValue (h.queue n).lost)

/-- A read of H_Qn_HWM: the high-water level is returned and cleared (R13). -/
def HostSide.hwmRead (n : Nat) (h : HostSide) : HostSide :=
  (h.modQueue n fun q => { q with hwm := 0 }).returned (BitVec.ofNat 32 (h.queue n).hwm)

/-- A write of a queue register (Tables 12.6 to 12.9): RESET resets the queue, the W1C bits clear (R339, R343). -/
def HostSide.writeQueue (n reg : Nat) (v : W32) (h : HostSide) : HostSide :=
  match reg with
  | 4 => h.modQueue n fun q => { q with loss := q.loss && !v.getLsbD 3, underrun := q.underrun && !v.getLsbD 2 }
  | 8 =>
    let h := h.modQueue n fun q => { q with ctrl := v &&& 0x7FFFFFFF }
    if v.getLsbD 31 then h.resetQueue n else h
  | 0xC => h.modQueue n fun q => { q with base := v }
  | 0x10 => h.modQueue n fun q => { q with depth := v }
  | _ => h

/-- An access to a queue's register block when its turn has come. -/
def HostSide.serveAccess (n : Nat) (a : QAccess) (h : HostSide) : HostSide :=
  match a with
  | .read => h.windowHead n
  | .lost => h.lostRead n
  | .hwm => h.hwmRead n
  | .write reg v => h.writeQueue n reg v

/-- Whether an access writes 1 to RESET. -/
def QAccess.resets : QAccess → Bool
  | .write reg v => reg == 8 && v.getLsbD 31
  | .read => false | .lost => false | .hwm => false

/-- Whether an access returns a value. -/
def QAccess.isRead : QAccess → Bool
  | .read => true | .lost => true | .hwm => true
  | .write _ _ => false

/-- An access to the register block of queue `n`, in the order of arrival (R331, R343): behind a stalling read it waits, but a reset directly behind that read
completes it (R339, step 1). -/
def HostSide.access (n : Nat) (a : QAccess) (h : HostSide) : HostSide :=
  match (h.queue n).waiting with
  | [] => h.serveAccess n a
  | [_] => if a.resets then h.serveAccess n a else h.modQueue n fun q => { q with waiting := q.waiting ++ [a] }
  | _ => h.modQueue n fun q => { q with waiting := q.waiting ++ [a] }

/-- The stalling read at the head has completed: its value is returned, and the accesses behind it follow in their order (R331, R343). -/
def HostSide.headDone (n : Nat) (rest : List QAccess) (h : HostSide) : HostSide :=
  rest.foldl (fun h a =>
      let h' := h.access n a
      if a.isRead && (h'.queue n).waiting.isEmpty then { h' with readsDone := h'.readsDone ++ [h'.readData] } else h')
    { h with readsDone := h.readsDone ++ [h.readData] }

/-- What a drained reply queue lets go on: a reply that waits enters it, and the command processors read on (R336). -/
def State.drained (n : Nat) (s : State) : State := if 2 ≤ n then (s.onHost (HostSide.drainHold n)).readInputs else s

/-- Banks of a queue's region that the queue master does not own are reported when it has read words there (R323, R408; log 130). `before` is the host side
before the access. -/
def State.queueReport (n : Nat) (before : HostSide) (s : State) : State :=
  let first (b : Nat) := bitsOf (s.host.queue n).baseF.toNat 4 19 * 16 - b * 0x40000
  if (s.host.queue n).pkts = (before.queue n).pkts then s
  else s.onHost fun h => (h.foreign n).foldl (fun h b => h.ownerReport s.dev.modeEpoch 0x24 b (first b) false) h

/-- A read of H_Qn_DATA (R330, R331, R337, R343). -/
def State.windowRead (n : Nat) (s : State) : State :=
  if n = 6 then s.onHost (HostSide.returned 0x40000)
  else if n > 6 then s.onHost (HostSide.returned 0)
  else ((s.onHost (HostSide.access n .read)).queueReport n s.host).drained n

/-- QUEUE_WINDOW_READ (R330). -/
def execQueueWindowRead (dt : Nat) (queue : Nat) (s : State) : Out := .next ((s.advance dt).bar0 (State.windowRead queue))

/-- A stalled read takes the word that the producer has written (R330). -/
def HostSide.stalledComplete (n : Nat) (h : HostSide) : HostSide :=
  match (h.queue n).waiting with
  | [] => h
  | _ :: rest => match (h.modQueue n fun q => { q with waiting := [] }).takeWord n with
    | some h' => h'.headDone n rest
    | none => h

/-- A stalled read that has waited STALL_LIMIT completes as a FLAG read (R330). -/
def HostSide.stallExpire (n : Nat) (h : HostSide) : HostSide :=
  match (h.queue n).waiting with
  | [] => h
  | _ :: rest =>
    if h.follower < (h.queue n).stallEnd then h else ((h.modQueue n fun q => { q with waiting := [] }).underrun n).headDone n rest

/-- A write of a register of queue `n`, in its turn (R343); of queue 6 and past it none has an effect (R337). -/
def State.queueWrite (n reg : Nat) (v : W32) (s : State) : State :=
  if n < 6 then (s.onHost (HostSide.access n (.write reg v))).drained n else s

/-- QUEUE_RESET: a write of 1 to RESET of H_Qn_CTRL (R337, R339). -/
def execQueueReset (dt : Nat) (queue : Nat) (s : State) : Out :=
  .next ((s.advance dt).bar0 fun s => s.queueWrite queue 8 ((s.host.queue queue).ctrl ||| 0x80000000))

/-- QUEUE_HOLD_DRAIN (R334). -/
def execQueueHoldDrain (dt : Nat) (queue : Nat) (s : State) : Out :=
  .next ((s.advance dt).onHost fun h => if queue < 6 then h.drainOne queue else h)

/-- QUEUE_LOST_READ (R13, R15, R343). -/
def execQueueLostRead (dt : Nat) (queue : Nat) (s : State) : Out :=
  .next ((s.advance dt).bar0H fun h => if queue < 6 then h.access queue .lost else h.returned 0)

/-- QUEUE_HWM_READ: of queue 6 in frames (R13, R343, Table 12.13). -/
def execQueueHwmRead (dt : Nat) (queue : Nat) (s : State) : Out :=
  .next ((s.advance dt).bar0H fun h =>
    if queue < 6 then h.access queue .hwm
    else if queue = 6 then { h with txHwm := 0 }.returned (BitVec.ofNat 32 h.txHwm) else h.returned 0)

/-! ## Rings -/

/-- The first whole packet of a queue goes to its device ring when the slots are free (R333, R352). A write that ends in an error stops the ring, and the packet
stays in its queue (R353; log 135). -/
def State.ringWrite (q : RingReq) (s : State) : State :=
  let n := ringQueue q.ring
  let g := s.host.ring q.ring
  match (s.host.queue n).whole with
  | [] => s
  | p :: _ =>
    let k := slotsOf p.words.length
    let used := (g.prod - g.cons).toNat
    if !s.mayRequest || (s.host.queue n).dest != .pcie || (s.host.queue n).access || !g.enabled || used + k > g.size then s
    else match q.error with
      | some bit => s.onHost (HostSide.ringError q.ring bit)
      | none =>
        let r := (s.host.modQueue n (Queue.takeWhole p)).fetched n p.words
        let h := r.2.modRing q.ring fun g => { g with prod := g.prod + BitVec.ofNat 32 k }
        (({ s with host := h.ringAdvance q.ring, hostRam := writeSlots g k g.prod.toNat r.1 s.hostRam }).queueReport n s.host).drained n

/-- DEVICE_RING_WRITE (R352). -/
def execDeviceRingWrite (dt : Nat) (request : RingReq) (s : State) : Out :=
  .next (let s := s.advance dt; if 2 ≤ request.ring ∧ request.ring < 6 then s.ringWrite request else s)

/-- A write of H_Rr_CTRL: ENABLE rising clears PROD and CONS; ERR clears on a written 1 (R353, Table 13.9). Every packet of the
model is one step, so ENABLE written to 0 falls at once. -/
def Ring.writeCtrl (v : W32) (g : Ring) : Ring :=
  let bit : W32 := 1 <<< 30
  let err := g.ctrl &&& bit &&& ~~~v
  let c := (v &&& ~~~bit) ||| err
  if v.getLsbD 31 && !g.enabled then { g with ctrl := c, prod := 0, cons := 0 } else { g with ctrl := c }

/-- RING_ENABLE (R353). -/
def execRingEnable (dt : Nat) (ring : Nat) (value : W32) (s : State) : Out :=
  .next ((s.advance dt).bar0H (HostSide.modRing ring (Ring.writeCtrl value)))

/-- RING_HOLDOFF_END: an advance within the holdoff sets the cause bit at its end (R352). -/
def execRingHoldoffEnd (dt : Nat) (ring : Nat) (s : State) : Out :=
  .next ((s.advance dt).onHost fun h =>
    if (h.ring ring).owedCause && decide (h.follower ≥ (h.ring ring).holdoffEnd) then h.ringAdvance ring else h)

/-! ## Interrupt and time registers -/

/-- A write of H_INT_CAUSE: each 1 clears its bit (R13). -/
def HostSide.writeCause (v : W32) (h : HostSide) : HostSide := h.modInts fun link i => { i with cause := i.cause &&& ~~~v }.resend link

/-- A write of H_INT_MASK. -/
def HostSide.writeMask (v : W32) (h : HostSide) : HostSide := h.modInts fun link i => { i with mask := v }.resend link

/-- INT_CAUSE_WRITE: each 1 clears its bit; groups left at 1 are sent again (R13, R348). -/
def execIntCauseWrite (dt : Nat) (value : W32) (s : State) : Out :=
  .next ((s.advance dt).bar0H (HostSide.writeCause value))

/-- INT_MASK_WRITE (R348). -/
def execIntMaskWrite (dt : Nat) (value : W32) (s : State) : Out :=
  .next ((s.advance dt).bar0H (HostSide.writeMask value))

/-- TIME_LO_READ: bits 31:0 of the follower; bits 63:32 go to H_TIME_HI (R349). -/
def execTimeLoRead (dt : Nat) (s : State) : Out :=
  .next ((s.advance dt).bar0H fun h =>
    { h with timeHi := BitVec.ofNat 32 (tickNat h.follower / 2 ^ 32) }.returned (BitVec.ofNat 32 (tickNat h.follower)))

end Sys2Proof.Machine
end

