-- ==== Sys2Proof/Machine/Time.lean ====
section
/-! DEFINITION. The pure rules of grid time (R49 to R72, R164, R521): settings, mains angles, stroke boundaries and the error bound. -/

namespace Sys2Proof.Machine

/-! ## Settings -/

/-- Row `i` of the device settings of Table 2.2, as TIME_CONFIGURE encodes it. -/
def Time.row (t : Time) (i : Nat) : Nat := nth t.cfg i 0

/-- The nominal stroke length in ticks (R521). -/
def Time.nominalStroke (t : Time) : Nat := if t.row 2 = 60 then 12500000 else 15000000

/-- Half of CATCH_W in ticks (R67). -/
def Time.halfCatch (t : Time) : Tick := (t.row 4 * 750 : Nat)

/-- HOLDOVER_LIMIT in ticks. -/
def Time.holdoverLimit (t : Time) : Tick := (t.row 6 * 150000000 : Nat)

/-- ISLAND_DELAY in ticks; 0 is off. -/
def Time.islandDelay (t : Time) : Tick := (t.row 7 * 1500000000 : Nat)

/-- BEACON_PERIOD in strokes. -/
def Time.beaconPeriod (t : Time) : Nat := t.row 8

/-- BEACON_OFS in ticks. -/
def Time.beaconOfs (t : Time) : Int := toSigned 16 (t.row 13) * 1500

/-- PPS_DELAY in ticks, rounded to a whole tick (R519). -/
def Time.ppsDelay (t : Time) : Int := roundDiv (toSigned 32 (t.row 1) * 3) 2

/-! ## Strokes as serial numbers -/

/-- The serial distance from stroke `a` to stroke `b` (R74). -/
def strokeDist (a b : W32) : Int := (b - a).toInt

/-- Stroke `n + d`. -/
def strokeAdd (n : W32) (d : Int) : W32 := n + BitVec.ofInt 32 d

/-- Equally spaced boundaries: stroke `n` begins at `b`, and stroke `n + d` at `b + floor(d × num / den)`. -/
structure Ramp where
  n : W32
  b : Tick
  num : Nat
  den : Nat

/-- The boundary of a stroke (R59, R60). -/
def Ramp.boundary (r : Ramp) (n : W32) : Tick := r.b + strokeDist r.n n * r.num / r.den

/-- The stroke that contains an instant: the last one whose boundary is not later. -/
def Ramp.stroke (r : Ramp) (t : Tick) : W32 := strokeAdd r.n (((t - r.b + 1) * r.den - 1) / r.num)

/-- The boundaries of a grid segment (R60). -/
def Seg.ramp (g : Seg) : Ramp := { n := g.nEff, b := g.bEff, num := g.pRaw, den := 65536 }

/-- The segment in force at a stroke: the last with n_eff at or before it, else the first (R60, R63). -/
def segAt (segs : List Seg) (n : W32) : Option Seg :=
  match (segs.filter fun g => strokeDist g.nEff n ≥ 0).getLast? with
  | some g => some g
  | none => segs.head?

/-- The segment in force at an instant. -/
def segNow (segs : List Seg) (t : Tick) : Option Seg :=
  match (segs.filter fun g => g.bEff ≤ t).getLast? with
  | some g => some g
  | none => segs.head?

/-- The grid boundary of a stroke (R60). -/
def Time.gridBoundary (x : Time) (n : W32) : Option Tick := (segAt x.segs n).map fun g => g.ramp.boundary n

/-- The grid stroke at an instant. -/
def Time.gridStroke (x : Time) (t : Tick) : Option W32 := (segNow x.segs t).map fun g => g.ramp.stroke t

/-- The length of a grid stroke as its segment gives it, in ticks × 65,536. -/
def Time.gridLength (x : Time) (n : W32) : Nat := ((segAt x.segs n).map fun g => g.pRaw).getD 0

/-- Whether segments cover a stroke (R63). -/
def covers (segs : List Seg) (n : W32) : Bool :=
  match segs.getLast? with
  | none => false
  | some g => segs.any (fun h => decide (strokeDist h.nEff n ≥ 0)) && g.pb ≠ 0 && decide (strokeDist g.nEff n < g.pb)

/-- Whether a stroke of the schedule in force is covered (R63). -/
def Time.covered (x : Time) (n : W32) : Bool := covers x.segs n

/-- The segments that the node holds: those it is about to adopt, else those it follows (R63, R66). -/
def Time.held (x : Time) : List Seg := (x.adopting.map (·.2)).getD x.segs

/-- Segments that no launch from now on needs are let go: a launch instant lies at most 2^31 ticks after its stroke's boundary (R78). -/
def pruneSegs (now : Tick) (segs : List Seg) : List Seg :=
  match segs with
  | a :: b :: r => if b.bEff + 2 ^ 31 ≤ now then pruneSegs now (b :: r) else a :: b :: r
  | r => r

/-! ## Mains phase -/

/-- Ticks × mHz of one mains cycle: 1.5 × 10^12. -/
def cycleTicks : Nat := 1500000000000

/-- The angle that a tracker predicts at an instant (R52, R54): from its last accepted crossing at its frequency; in OFF it stands still. Before
any crossing it runs from angle 0 at tick 0 (log 12). -/
def Sense.angle (x : Sense) (t : Tick) : W16 :=
  let a := x.anchor.getD (0, 0)
  if x.state = .off then a.2 else a.2 + BitVec.ofInt 16 (roundDiv ((t - a.1) * x.freq * 65536) cycleTicks)

/-- Sense input `i`, in the order ZXA1, ZXB1, ZXC1, ZXA2, ZXB2, ZXC2. -/
def Time.input (x : Time) (i : Nat) : Sense := nth x.sense i Sense.reset

/-- The nominal offset of an input (R55). -/
def nominalOffset (acb : Bool) (i : Nat) : W16 :=
  if i % 3 = 0 then 0 else if (i % 3 = 1) != acb then 21845 else 43691

/-- The offset Li of an input, learned or nominal (R55). ZXA1 has none. -/
def Time.inputOffset (x : Time) (i : Nat) : W16 :=
  if i = 0 then 0 else (x.input i).offset.getD (nominalOffset (decide (x.row 3 = 1)) i)

/-- The angle of an input in terms of the reference (R56). -/
def Time.inputAngle (x : Time) (i : Nat) (t : Tick) : W16 := (x.input i).angle t - x.inputOffset i

/-- The reference angle (R52, R56). -/
def Time.refAngle (x : Time) (t : Tick) : W16 := x.inputAngle x.ref t

/-- Whether an input is VALID. -/
def Time.valid (x : Time) (i : Nat) : Bool := (x.input i).state == .valid

/-- Whether no input is VALID (R58). -/
def Time.mainsLost (x : Time) : Bool := !(List.range 6).any x.valid

/-- The input that gives a port's phase: its own while VALID, else the reference (R57). -/
def Time.phaseInput (x : Time) (input : Nat) : Nat := if x.valid input then input else x.ref

/-- The local phase of a port (R57). -/
def Line.localPhase (l : Line) (p : Nat) (t : Tick) : W16 :=
  let q := nth l.ports p Port.reset
  l.time.inputAngle (l.time.phaseInput q.input) t + BitVec.ofNat 16 q.sofs

/-- The first instant at or after `t` at which a phase that is `now` at `t` and turns at `freq` mHz equals `a` (R78). -/
def angleInstant (t : Tick) (now a : W16) (freq : Nat) : Tick :=
  t - (-(((a - now).toNat * cycleTicks : Nat) : Int)) / ((65536 * freq : Nat) : Int)

/-- The mains frequency in mHz: the reference tracker's. -/
def Time.mainsFreq (x : Time) : Nat := (x.input x.ref).freq

/-! ## Strokes of a port -/

/-- The time unit changed. -/
def Line.modTime (f : Time → Time) (l : Line) : Line := { l with time := f l.time }

/-- Port `p` changed. -/
def Line.modPort (p : Nat) (f : Port → Port) (l : Line) : Line := { l with ports := l.ports.modify p f }

/-- Channel `c` changed. -/
def Line.modChan (c : Nat) (f : Chan → Chan) (l : Line) : Line := { l with chans := l.chans.modify c f }

/-- Synthetic strokes (Table 2.6), with counts near an instant: they divide the 64-bit count of the timebase. -/
def Time.synthRamp (x : Time) (t : Tick) : Ramp :=
  let len := x.row 5 * 1500
  { n := BitVec.ofInt 32 (t % 2 ^ 64 / len), b := countZero t + t % 2 ^ 64 / len * len, num := len, den := 1 }

/-- The half-cycle ticks of a mains frequency in mHz. -/
def halfCycle (freq : Nat) : Tick := (cycleTicks / 2 / freq : Nat)

/-- The frequency of the input whose tracker times the local strokes of a port (R57, R58). -/
def Line.localFreq (l : Line) (p : Nat) : Nat := (l.time.input (l.time.phaseInput (l.port p).input)).freq

/-- The first instant at or after `t` at which the local phase of a port equals an angle. -/
def Line.phaseInstant (l : Line) (p : Nat) (t : Tick) (a : W16) : Tick := angleInstant t (l.localPhase p t) a (l.localFreq p)

/-- The next boundary of the local strokes of a port: half a cycle after the last one, as the tracker now predicts it (Table 2.6), or at its last
frequency while it is stopped (R54, R58). -/
def Line.nextLocal (l : Line) (p : Nat) : Tick :=
  let q := l.port p
  if (l.time.input (l.time.phaseInput q.input)).state = .off then q.locB + halfCycle (l.localFreq p)
  else l.phaseInstant p (q.locB + halfCycle (l.localFreq p) / 2) (if q.locHalf then 0 else 32768)

/-- The local strokes of a port up to the present one: the count and boundary that it holds, at the half-cycle that its tracker predicts
(Table 2.6, R58). -/
def Line.localRamp (l : Line) (p : Nat) : Ramp :=
  let q := l.port p
  { n := q.locCount, b := q.locB, num := cycleTicks / 2, den := l.localFreq p }

/-- The local strokes of a port that are still to come: from the next instant at which the local phase is 0 or 32,768 on (Table 2.6). -/
def Line.localAhead (l : Line) (p : Nat) : Ramp :=
  { n := (l.port p).locCount + 1, b := l.nextLocal p, num := cycleTicks / 2, den := l.localFreq p }

/-- The strokes in force on a port that a stroke falls under. -/
def Line.rampOf (l : Line) (p : Nat) (n : W32) : Option Ramp :=
  match (l.port p).srcNow with
  | 0 => (segAt l.time.segs n).map Seg.ramp
  | 1 => some (if 0 < strokeDist (l.port p).locCount n then l.localAhead p else l.localRamp p)
  | _ => some (l.time.synthRamp l.clock.tb)

/-- The boundary of a stroke on a port's stroke source (R59). -/
def Line.boundary (l : Line) (p : Nat) (n : W32) : Option Tick := (l.rampOf p n).map fun r => r.boundary n

/-- The local stroke of a port at an instant: the present one until the next boundary. -/
def Line.localStroke (l : Line) (p : Nat) (t : Tick) : W32 :=
  if l.nextLocal p ≤ t then (l.localAhead p).stroke t
  else if (l.port p).locB ≤ t then (l.port p).locCount
  else (l.localRamp p).stroke t

/-- The stroke of a port at an instant (R59). -/
def Line.strokeAt (l : Line) (p : Nat) (t : Tick) : Option W32 :=
  match (l.port p).srcNow with
  | 0 => l.time.gridStroke t
  | 1 => some (l.localStroke p t)
  | _ => some ((l.time.synthRamp t).stroke t)

/-- The stroke of a port at an instant and the offset from its boundary, 0 where there are no strokes. -/
def Line.strokeOffset (l : Line) (p : Nat) (t : Tick) : W32 × Int :=
  match l.strokeAt p t with
  | none => (0, 0)
  | some n => (n, t - (l.boundary p n).getD t)

/-- The launch stroke: the one whose boundary lies nearest, the later of two equally near (R164). -/
def Line.launchStroke (l : Line) (p : Nat) (t : Tick) : Option W32 :=
  match l.strokeAt p t with
  | none => none
  | some n =>
    match l.boundary p n, l.boundary p (n + 1) with
    | some b, some b' => some (if t - b < b' - t then n else n + 1)
    | _, _ => some n

/-- The length of a stroke of a port in ticks × 65,536, as its schedule gives it (R67). -/
def Line.strokeLength (l : Line) (p : Nat) (n : W32) : Nat :=
  match l.rampOf p n with
  | none => 0
  | some r => r.num * 65536 / r.den

/-- Whether the interval from an instant to its header end lies in the catch of its launch stroke (R67, R164). -/
def Line.inCatch (l : Line) (p : Nat) (t : Tick) (headerEnd : Tick) : Bool :=
  match (l.launchStroke p t).bind (l.boundary p) with
  | none => false
  | some b => decide (b - l.time.halfCatch ≤ t ∧ headerEnd ≤ b + l.time.halfCatch)

/-! ## Discipline -/

/-- E of a node below a parent that reports `e`: the hop term of the channel's symbol period added, in ns (R49), and the sum rounded (R519). -/
def hopE (e rateK : Nat) : Nat := (roundDiv ((e * 40 + 800 + 250 * 2 ^ rateK : Nat) : Int) 40).toNat

/-- The loss of the last source as R70 and R71 count it (R69). -/
def Time.lossAt (x : Time) : Option Tick := x.lostAt.or x.entryAt

/-- Whether an offset above 1 s still holds E at 0xFFFF: a TIME_FAULT came, and the offset that is left is not below 1 µs yet (R41). -/
def Line.faultStands (l : Line) : Bool :=
  l.time.faulted && !(decide (l.time.source < 3) && l.time.stepDue.isNone && decide (l.clock.slew.natAbs < 1500))

/-- The error bound E in ns (R38, R41, R49), its growth rounded (R519). -/
def Line.errorBound (l : Line) (mode : Mode) : Nat :=
  let x := l.time
  if !l.clock.disciplined || l.faultStands || (mode == .island) then 0xFFFF
  else if x.source < 3 then min 0xFFFF x.eBase
  else match x.lostAt with
    | none => 0xFFFF
    | some t => min 0xFFFF (x.eBase + (roundDiv ((l.clock.tb - t) * 50) 1500000000).toNat)

/-- The stratum of the node (Table 2.1, R38, R50, R69). -/
def Time.stratumNow (x : Time) : Nat :=
  match x.source with | 0 => 1 | 1 => 2 | 2 => min 14 (x.parentStratum + 1) | _ => 15

/-- The enabled and qualified source of highest priority; 3 for none (R45). -/
def Time.bestSource (x : Time) : Nat :=
  if x.ppsQual && bitOf (x.row 0) 0 then 0 else if x.ptpQual && bitOf (x.row 0) 1 then 1
  else if x.bcnQual && bitOf (x.row 0) 2 then 2 else 3

/-- Whether HOLDOVER_LIMIT has elapsed since the loss of the last source (R70). -/
def Line.holdoverSpent (l : Line) : Bool :=
  match l.time.lossAt with
  | none => false
  | some t => decide (l.clock.tb - t ≥ l.time.holdoverLimit)

/-- The states of the sense inputs, two bits each (Table 11.7). -/
def Time.senseBits (x : Time) : Nat :=
  (x.sense.zipIdx.map fun p => (match p.1.state with | .valid => 0 | .lost => 1 | .noisy => 2 | .off => 3) * 4 ^ p.2).sum

/-- A time event: the time epoch rises and the record carries it (R75). -/
def Line.timeEventAt (t : Tick) (code : Nat) (fields : List W16) (l : Line) : Line :=
  let ep := l.time.epoch + 1
  { l with time := { l.time with epoch := ep } }.eventAt t code 0 2 true ep 0 fields

/-- A time event now. -/
def Line.timeEvent (code : Nat) (fields : List W16) (l : Line) : Line := l.timeEventAt l.clock.tb code fields

end Sys2Proof.Machine
end

