-- ==== Sys2Proof/Machine/Waveform.lean ====
section
/-! DEFINITION. The frame to the bit: sizes and durations (R140 to R187), the PHY header (R149 to R153), the scrambler (R154), the LDPC
codes (R176 to R186), the interleaver (R157 to R159), the constellations (R160, R161) and the payload string (R179 to R182). -/

namespace Sys2Proof.Machine

/-! ## Sizes -/

/-- Bits per symbol Q of a MOD (Table 5.5). -/
def symbolBits (mod : Nat) : Nat := nth [1, 2, 4, 6, 8, 10, 1, 1] mod 1

/-- The repetition factor R of a MOD (R140). -/
def repeats (mod : Nat) : Nat := if mod = 6 then 4 else if mod = 7 then 6 else 1

/-- The lifting size Z of a LIFT (Table 5.4). -/
def liftSize (lift : Nat) : Nat := 24 * 2 ^ lift

/-- Block columns of information kb of a RATE (Table 6.1). -/
def infoBlocks (rate : Nat) : Nat := nth [12, 16, 18, 20] rate 12

/-- Information bits k of a codeword (Table 6.1). -/
def infoBits (rate lift : Nat) : Nat := infoBlocks rate * liftSize lift

/-- Coded bits n of a codeword (R176). -/
def codeBits (lift : Nat) : Nat := 24 * liftSize lift

/-- Bits of the payload string (R179). -/
def payloadBits (len : Nat) : Nat := 8 * (len + 1) + 32

/-- `ceil(a / b)`. -/
def ceilDiv (a b : Nat) : Nat := (a + b - 1) / b

/-- Payload codewords C (R184). `len` is LEN_M1. -/
def codewordCount (rate lift len : Nat) : Nat := ceilDiv (payloadBits len) (infoBits rate lift)

/-- Data symbols D of header and payload (R172 to R187). -/
def dataSymbols (mod rate lift len : Nat) : Nat :=
  352 * repeats mod + ceilDiv (repeats mod * codewordCount rate lift len * codeBits lift) (symbolBits mod)

/-- Symbols N of a frame (R145). -/
def frameSymbols (mod rate lift len : Nat) : Nat :=
  320 + dataSymbols mod rate lift len + ceilDiv (dataSymbols mod rate lift len) 31

/-- The symbol period Ts in ticks (R142). -/
def symbolTicks (rateK : Nat) : Nat := 375 * 2 ^ rateK

/-- A frame's duration in ticks (R145). -/
def frameTicks (rateK mod rate lift len : Nat) : Nat := (frameSymbols mod rate lift len + 15) * symbolTicks rateK

/-- Whether a duration exceeds the 10 s of R187. -/
def tooLong (rateK mod rate lift len : Nat) : Bool := decide (frameTicks rateK mod rate lift len > 15000000000)

/-- The header span S + 8 in symbols (R164). -/
def headerSpan (r : Nat) : Nat := 320 + 352 * r + 352 * r / 31 + 8

/-- The header's completion E_R in symbols (R204). -/
def headerDone (r : Nat) : Nat := 320 + (352 * r - 1) + (352 * r - 1) / 31 + 16

/-- The symbol index of data symbol `d`, SYNC and the pilots before it counted (R162). -/
def symbolIndex (d : Nat) : Nat := 320 + d + d / 31

/-- The pulse peak of symbol `m` of a frame launched at `l` (R142). -/
def pulsePeak (l : Tick) (rateK m : Nat) : Tick := l + ((m + 8) * symbolTicks rateK : Nat)

/-- The SYNC reference instant (R148). -/
def syncInstant (l : Tick) (rateK : Nat) : Tick := l + (264 * symbolTicks rateK : Nat)

/-- The end of a frame of `n` symbols (R145). -/
def frameEnd (l : Tick) (rateK n : Nat) : Tick := l + ((n + 15) * symbolTicks rateK : Nat)

/-- The end of a frame's header (R164). -/
def headerEnd (l : Tick) (rateK mod : Nat) : Tick := l + (headerSpan (repeats mod) * symbolTicks rateK : Nat)

/-! ## PHY header -/

/-- TYPE of a header (Table 5.4). -/
def hdrType (h : Nat) : Nat := bitsOf h 59 3
/-- MOD of a header. -/
def hdrMod (h : Nat) : Nat := bitsOf h 55 4
/-- RATE of a header. -/
def hdrRate (h : Nat) : Nat := bitsOf h 53 2
/-- LIFT of a header. -/
def hdrLift (h : Nat) : Nat := bitsOf h 51 2
/-- LEN_M1 of a header. -/
def hdrLen (h : Nat) : Nat := bitsOf h 36 15
/-- SEED of a header. -/
def hdrSeed (h : Nat) : Nat := bitsOf h 24 12
/-- TXB of a header. -/
def hdrTxb (h : Nat) : Nat := bitsOf h 20 4
/-- SEC of a header. -/
def hdrSec (h : Nat) : Bool := bitOf h 19

/-- HCRC of the header bits 63:16 under a network ID (R150). -/
def headerCheck (net : W16) (h : Nat) : Nat := crc16 (beBytes 2 net.toNat ++ beBytes 6 (h / 65536))

/-- A PHY header with its check (Table 5.4). -/
def makeHeader (net : W16) (type mod rate lift len seed txb : Nat) (sec : Bool) : Nat :=
  let h := type * 2 ^ 59 + mod * 2 ^ 55 + rate * 2 ^ 53 + lift * 2 ^ 51 + len * 2 ^ 36 + seed * 2 ^ 24 + txb * 2 ^ 20 + b2n sec * 2 ^ 19
  h + headerCheck net h

/-- The header of a relayed flood or beacon copy: TXB 15 and a new check (R166). -/
def relayHeader (net : W16) (h : Nat) : Nat :=
  makeHeader net (hdrType h) (hdrMod h) (hdrRate h) (hdrLift h) (hdrLen h) (hdrSeed h) 15 (hdrSec h)

/-- Whether a header whose check passes carries a reserved value (R153). -/
def headerReserved (h : Nat) : Bool :=
  decide (bitsOf h 62 2 ≠ 0 ∨ hdrType h > 4 ∨ hdrMod h > 7 ∨ hdrLen h < 15)

/-! ## Scrambler -/

/-- A string scrambled or descrambled from a register on: bit i of the register is c_(n-23+i) (R154, R155). -/
def scramble : Nat → Bits → Bits
  | _, [] => []
  | reg, b :: t =>
    let c := bitOf reg 18 != bitOf reg 0
    (b != c) :: scramble (reg / 2 + b2n c * 2 ^ 22) t

/-- The register that SEED starts (R154). -/
def scrambleInit (seed : Nat) : Nat := seed * 2048 + 0x5A5

/-- The bits of bytes, first sent first (R141). -/
def byteBits (bs : List Byte) : Bits := bs.flatMap msbBits

/-- Bytes from bits in the order of R141; a rest of fewer than 8 bits is left out. -/
def bitBytes : Bits → List Byte
  | a :: b :: c :: d :: e :: f :: g :: h :: t => BitVec.ofNat 8 (bitsNat [a, b, c, d, e, f, g, h]) :: bitBytes t
  | _ => []

/-! ## LDPC codes -/

/-- The base matrix of rate 1/2: each row as its columns with their shifts (Table 6.2). -/
def baseHalf : List (List (Nat × Nat)) :=
  [[(0, 163), (2, 41), (6, 118), (12, 57), (13, 0)],
   [(1, 72), (3, 150), (7, 9), (13, 0), (14, 0)],
   [(0, 88), (4, 131), (8, 27), (10, 174), (14, 0), (15, 0)],
   [(1, 15), (5, 96), (9, 183), (11, 60), (15, 0), (16, 0)],
   [(0, 140), (2, 77), (7, 122), (16, 0), (17, 0)],
   [(1, 31), (5, 167), (6, 4), (10, 109), (17, 0), (18, 0)],
   [(0, 52), (3, 188), (8, 135), (12, 0), (18, 0), (19, 0)],
   [(1, 126), (4, 19), (9, 81), (19, 0), (20, 0)],
   [(0, 7), (5, 143), (7, 66), (11, 112), (20, 0), (21, 0)],
   [(1, 178), (2, 101), (8, 54), (9, 12), (21, 0), (22, 0)],
   [(0, 117), (3, 29), (6, 160), (11, 3), (22, 0), (23, 0)],
   [(1, 94), (4, 171), (10, 146), (12, 57), (23, 0)]]

/-- The base matrix of rate 2/3: each row as its columns with their shifts (Table 6.3). -/
def baseTwoThirds : List (List (Nat × Nat)) :=
  [[(0, 25), (2, 149), (4, 70), (7, 186), (10, 11), (13, 132), (16, 103), (17, 0)],
   [(1, 47), (3, 165), (5, 90), (8, 2), (11, 139), (14, 58), (17, 0), (18, 0)],
   [(0, 178), (4, 33), (6, 121), (9, 64), (12, 157), (14, 8), (18, 0), (19, 0)],
   [(1, 110), (2, 6), (5, 175), (7, 43), (12, 99), (15, 128), (19, 0), (20, 0)],
   [(0, 61), (3, 84), (6, 13), (8, 147), (10, 190), (14, 115), (16, 0), (20, 0), (21, 0)],
   [(1, 153), (4, 97), (7, 124), (9, 21), (11, 68), (13, 36), (21, 0), (22, 0)],
   [(0, 134), (2, 59), (5, 26), (8, 171), (11, 105), (12, 80), (15, 17), (22, 0), (23, 0)],
   [(1, 5), (3, 142), (6, 182), (9, 113), (10, 48), (13, 161), (15, 92), (16, 103), (23, 0)]]

/-- The base matrix of rate 3/4: each row as its columns with their shifts (Table 6.4). -/
def baseThreeQuarters : List (List (Nat × Nat)) :=
  [[(0, 12), (1, 167), (2, 84), (4, 139), (6, 50), (8, 177), (10, 23), (12, 104), (14, 158), (17, 71), (18, 18), (19, 0)],
   [(0, 95), (2, 181), (5, 37), (7, 120), (8, 62), (11, 9), (13, 148), (14, 86), (16, 29), (19, 0), (20, 0)],
   [(1, 140), (2, 16), (4, 73), (7, 191), (9, 57), (10, 130), (13, 44), (15, 106), (17, 165), (20, 0), (21, 0)],
   [(0, 176), (3, 28), (5, 155), (6, 91), (9, 3), (10, 67), (13, 119), (15, 184), (16, 40), (18, 0), (21, 0), (22, 0)],
   [(1, 54), (3, 102), (4, 1), (6, 144), (8, 87), (11, 170), (12, 35), (15, 127), (16, 78), (22, 0), (23, 0)],
   [(0, 133), (1, 22), (3, 185), (5, 109), (7, 60), (9, 151), (11, 14), (12, 66), (14, 97), (17, 188), (18, 18), (23, 0)]]

/-- The base matrix of rate 5/6: each row as its columns with their shifts (Table 6.5). -/
def baseFiveSixths : List (List (Nat × Nat)) :=
  [[(0, 81), (1, 9), (2, 146), (3, 60), (4, 173), (5, 34), (6, 118), (7, 2), (8, 95),
    (9, 157), (10, 40), (11, 128), (12, 71), (13, 189), (14, 16), (15, 104), (20, 140), (21, 0)],
   [(0, 137), (1, 58), (2, 23), (3, 170), (4, 88), (5, 141), (6, 12), (7, 65), (8, 180),
    (9, 31), (10, 109), (11, 6), (16, 152), (17, 47), (18, 125), (19, 77), (21, 0), (22, 0)],
   [(0, 19), (1, 163), (2, 99), (3, 8), (4, 131), (5, 52), (6, 186), (7, 140), (12, 3),
    (13, 121), (14, 64), (15, 176), (16, 29), (17, 98), (18, 160), (19, 11), (20, 0), (22, 0), (23, 0)],
   [(0, 174), (1, 110), (2, 45), (3, 127), (8, 62), (9, 1), (10, 148), (11, 85), (12, 39),
    (13, 167), (14, 112), (15, 50), (16, 190), (17, 73), (18, 26), (19, 136), (20, 140), (23, 0)]]
/-- The base matrix of a RATE (R177). -/
def baseMatrix (rate : Nat) : List (List (Nat × Nat)) := nth [baseHalf, baseTwoThirds, baseThreeQuarters, baseFiveSixths] rate baseHalf

/-- The bits of a codeword in blocks of Z. -/
def bitBlocks (z : Nat) : Nat → Bits → List Bits
  | 0, _ => []
  | n + 1, bs => bs.take z :: bitBlocks z n (bs.drop z)

/-- Bitwise exclusive or. -/
def xorBits (a b : Bits) : Bits := List.zipWith (· != ·) a b

/-- A block shifted: position r holds bit (r + s) mod Z (R176). -/
def rotate (s : Nat) (b : Bits) : Bits := b.drop s ++ b.take s

/-- The scaled shift (R176). -/
def scaled (z s : Nat) : Nat := s * z / 192

/-- The sum of the shifted blocks of a row's entries. -/
def rowSum (z : Nat) (blocks : List Bits) (row : List (Nat × Nat)) : Bits :=
  row.foldl (fun acc e => xorBits acc (rotate (scaled z e.2) (nth blocks e.1 []))) (List.replicate z false)

/-- Whether every parity check holds (R176, R190). -/
def codewordOk (rate lift : Nat) (bits : Bits) : Bool :=
  let z := liftSize lift
  let blocks := bitBlocks z 24 bits
  decide (bits.length = codeBits lift) && (baseMatrix rate).all fun row => (rowSum z blocks row).all (· == false)

/-- The parity blocks after the first, row by row (R178): `lam` the row syndromes left, `prev` the block before, `xkb` the first. -/
def parityRest (mid : Nat) (xkb : Bits) : Nat → Bits → List Bits → List Bits
  | _, _, [] => []
  | _, _, [_] => []
  | i, prev, l :: t =>
    let x := xorBits (xorBits l prev) (if i = mid then xkb else xkb.map fun _ => false)
    x :: parityRest mid xkb (i + 1) x t

/-- A codeword from its information bits (R178). -/
def encodeWord (rate lift : Nat) (info : Bits) : Bits :=
  let z := liftSize lift
  let kb := infoBlocks rate
  let blocks := bitBlocks z kb info
  let rows := baseMatrix rate
  let lam := rows.map fun row => rowSum z blocks (row.filter fun e => decide (e.1 < kb))
  let xkb := lam.foldl xorBits (List.replicate z false)
  let shift := (((nth rows 0 []).find? fun e => e.1 == kb).map (·.2)).getD 0
  let first := xorBits (nth lam 0 []) (rotate (scaled z shift) xkb)
  info ++ xkb ++ first ++ (parityRest (rows.length / 2) xkb 1 first (lam.drop 1)).flatten

/-! ## Streams -/

/-- The interleaved stream of a part of `words` codewords of `n` bits (R157). -/
def interleave (n : Nat) (words : List Bits) : Bits :=
  let c := words.length
  (List.range (c * n)).map fun t => (nth words (t % c) []).getD ((73 * (t / c) + 17 * (t % c)) % n) false

/-- `r` copies of a stream (R158). -/
def repeated (r : Nat) (s : Bits) : Bits := (List.replicate r s).flatten

/-- The 352 header bits that are sent (R151, R186). -/
def headerBits (h : Nat) : Bits :=
  let word := encodeWord 0 0 (natBits 64 h ++ List.replicate 224 false)
  word.take 64 ++ word.drop 288

/-- The payload codewords of a string of bytes, the frame check included (R155, R184, R185). -/
def payloadWords (h : Nat) (bytes : List Byte) : List Bits :=
  let k := infoBits (hdrRate h) (hdrLift h)
  let n := codewordCount (hdrRate h) (hdrLift h) (hdrLen h)
  let bits := scramble (scrambleInit (hdrSeed h)) (byteBits bytes)
  (bitBlocks k n (bits ++ List.replicate (n * k - bits.length) false)).map (encodeWord (hdrRate h) (hdrLift h))

/-- The bits of a frame's data-symbol stream, header then payload, as they are mapped to symbols (R159). -/
def frameStream (h : Nat) (bytes : List Byte) : Bits × Bits :=
  (repeated (repeats (hdrMod h)) (interleave 352 [headerBits h]),
   repeated (repeats (hdrMod h)) (interleave (codeBits (hdrLift h)) (payloadWords h bytes)))

/-- The level of an axis from its bits below the sign, innermost first (R161). -/
def axisLevel : Bits → Int
  | [] => 1
  | g :: t => 2 ^ (t.length + 1) - (if g then -axisLevel t else axisLevel t)

/-- The level of an axis (R161): odd integers, the scaling K left out. -/
def level : Bits → Int
  | [] => 0
  | g :: t => if g then -axisLevel t else axisLevel t

/-- A data symbol: in-phase and quadrature levels before the scaling of Table 5.5 (R160, R161). -/
def symbolOf (bits : Bits) : Int × Int :=
  match bits with
  | [b] => (if b then -1 else 1, 0)
  | bs => (level (bs.take (bs.length / 2)), level (bs.drop (bs.length / 2)))

/-- Data symbol `d` of a part with `q` bits per symbol: bits that the stream does not fill are 0 (R160). -/
def dataSymbol (q : Nat) (stream : Bits) (d : Nat) : Int × Int :=
  let bits := (stream.drop (q * d)).take q
  symbolOf (bits ++ List.replicate (q - bits.length) false)

/-- The phase of SYNC symbol `m` in 1/64 of a turn: x_n = exp(-jπn²/32), and units 8 and 9 are -x (R147). -/
def syncPhase (m : Nat) : Nat := (64 - (m % 32) * (m % 32) % 64 + (if 256 ≤ m then 32 else 0)) % 64

/-- The phase of pilot `i` in 1/64 of a turn (R163). -/
def pilotPhase (i : Nat) : Nat := syncPhase (i % 32)

/-- The carrier phase of a frame at its launch instant, in 2^-32 of a turn (R144). -/
def carrierPhase (f : W32) (l : Tick) : W32 := BitVec.ofNat 32 ((f.toNat * l) % 2 ^ 32).toNat

/-! ## Payload string -/

/-- The frame check V over DEST, SEQ and the payload bytes (R182). -/
def frameCheck (dest : W32) (seq : W16) (bytes : List Byte) : W32 :=
  BitVec.ofNat 32 (crc32c (beBytes 4 dest.toNat ++ beBytes 2 seq.toNat ++ bytes))

/-- Payload bytes with their frame check (Table 6.6). -/
def withCheck (dest : W32) (seq : W16) (bytes : List Byte) : List Byte := bytes ++ beBytes 4 (frameCheck dest seq bytes).toNat

/-- DEST of a hop header (Table 6.7). -/
def hopDest (b : List Byte) : W32 := BitVec.ofNat 32 (beNat (b.take 4))
/-- SRC of a hop header. -/
def hopSrc (b : List Byte) : W32 := BitVec.ofNat 32 (beNat ((b.drop 4).take 4))
/-- SEQ of a hop header. -/
def hopSeq (b : List Byte) : W16 := BitVec.ofNat 16 (beNat ((b.drop 8).take 2))
/-- HOPS_TO_GO of a hop header. -/
def hopToGo (b : List Byte) : Nat := (nth b 10 0).toNat
/-- HOP_COUNT of a hop header. -/
def hopCount (b : List Byte) : Nat := (nth b 11 0).toNat
/-- FLOOD_ID of a hop header. -/
def hopFlood (b : List Byte) : W16 := BitVec.ofNat 16 (beNat ((b.drop 12).take 2))
/-- FLOOD_K of a hop header. -/
def hopK (b : List Byte) : Nat := (nth b 14 0).toNat % 4

/-- Whether a hop header is a hop-header reject for its TYPE (R181). -/
def hopReject (type k : Nat) (flood : W16) : Bool :=
  match type with
  | 1 => k == 0 || flood == 0 || flood == 0xFFFF
  | 2 => k == 0 || flood != 0xFFFF
  | _ => k != 0 || flood != 0

/-- The descrambled payload string, the frame check included, from the hard decisions of its codewords (R183, R213). -/
def decodedString (h : Nat) (words : List Bits) : List Byte :=
  let k := infoBits (hdrRate h) (hdrLift h)
  bitBytes ((scramble (scrambleInit (hdrSeed h)) ((words.flatMap fun x => x.take k).take (payloadBits (hdrLen h)))))

end Sys2Proof.Machine
end

