-- ==== Sys2Proof/Machine/Memory.lean ====
section
/-! DEFINITION. Memory banks (R389 to R410): handover, accesses in the arbiter's order, dual-port banks, the background test and
the conflict counters. -/

namespace Sys2Proof.Machine

/-! ## Line-side banks -/

/-- The owner of a line bank, or the port B owner of a scratch bank (Table 15.1). -/
def lineOwner (bank : Nat) : Nat :=
  if bank < 48 then 2 else if bank < 56 then 3 else if bank < 60 then 2 else if bank < 62 then 4 else if bank < 64 then 1
  else if bank < 66 then 2 else if bank = 66 then 4 else 3

/-- Size of a line bank in bytes (Table 15.1). -/
def lineBankSize (bank : Nat) : Nat := if bank < 64 then 0x40000 else 0x10000

/-- Where a line bank lies in the line-side memory of the model. -/
def lineBankAt (bank : Nat) : Nat := if bank < 64 then bank * 0x40000 else 0x1000000 + (bank - 64) * 0x10000

/-- Whether a line bank serves a master (R392): its class, a read of a line sequencer, or port A of a scratch bank (R398). -/
def lineServes (bank master : Nat) (write : Bool) : Bool :=
  classOf master == lineOwner bank || (classOf master == 1 && (!write || decide (64 ≤ bank)))

/-! ## Noise-map cells and staged payloads in their banks -/

/-- MAP_BINW in Hz (Table 9.1). -/
def binWidths : List Nat := [20000, 50000, 100000, 200000, 500000, 1000000, 2000000, 5000000]

/-- The key of a cell: slot, phase bin, frequency bin. -/
def cellKey (slot phase freq : Nat) : Nat := slot * 32768 + phase * 128 + freq

/-- A power as a count of 1/128 dB below full scale, rounded to the nearest, at most 0xFFFE (R252, R519). -/
def cellCount (p : Rat) : Nat :=
  if p ≤ 0 then 0xFFFE
  else if p ≥ 1 then 0
  else min 0xFFFE ((Nat.log 10 (p.den ^ 2560 / p.num.toNat ^ 2560) + 1) / 2)

/-- The frequency bin of a port, in Hz (R252). -/
def Port.binEdges (q : Port) (f : Nat) : Nat × Nat :=
  let width := nth binWidths q.mapBinw 5000000
  (q.mapF0 + f * width, q.mapF0 + (f + 1) * width)

/-- The power that a cell holds, when it has an observation. -/
def Line.cellPower (l : Line) (p phase freq : Nat) : Option Rat :=
  let q := l.port p
  if q.mapSlot ≥ 32 ∨ (q.binEdges freq).2 > 600000000 then none else l.maps.lookup (cellKey q.mapSlot phase freq)

/-- The value of a cell; 0xFFFF without an observation (R252). -/
def Line.cellValue (l : Line) (p phase freq : Nat) : Nat := ((l.cellPower p phase freq).map cellCount).getD 0xFFFF

/-- What a payload of so many bytes occupies in the staging pool (R233). -/
def poolSize (bytes : Nat) : Nat := ceilDiv bytes 16 * 16 + 64

/-- What the staging pool holds, in the order of its banks: the size of each frame and its payload, of resident frames, frames on air and relayed
copies, which are reserved from their decision (R233, R284; log 102). -/
def Line.staged (l : Line) : List (Nat × List Byte) :=
  (l.sched.actions.flatMap fun a => a.frames.filterMap fun f =>
      if f.launched || f.ended then none else f.payload.map fun b => (poolSize b.length, b))
    ++ (l.chans.filterMap fun x => x.onAir.bind fun o => if o.size = 0 then none else some (o.size, o.bytes))
    ++ l.relay.copies.map fun k => (poolSize (k.len + 1), k.resident.getD [])

/-- The payload byte at an offset of the pool. -/
def stagedAt : List (Nat × List Byte) → Nat → Option Byte
  | [], _ => none
  | (n, b) :: r, i => if i < n then b[i]? else stagedAt r (i - n)

/-- A byte of a noise-map slot in its bank: the cells of the port that holds the slot, as 16-bit words, phase bin by phase bin (R251, R252,
Table 15.1; log 102). -/
def Line.mapByte (l : Line) (slot i : Nat) : Option Byte :=
  ((List.range l.ports.length).find? fun p => decide ((l.port p).mapSlot = slot)).map fun p =>
    BitVec.ofNat 8 (l.cellValue p (i / 256) (i / 2 % 128) / 256 ^ (i % 2))

/-- A byte of the line-side banks: a staged payload in LB00 to LB47, a map in LB48 to LB55, else what was last written there. -/
def State.lbByte (s : State) (a : Nat) : Byte :=
  let own := if a < 0xC00000 then stagedAt s.line.staged a
    else if a < 0xE00000 then s.line.mapByte ((a - 0xC00000) / 65536) (a % 65536)
    else none
  own.getD (s.lbMem.read a)

/-- Bytes of the line-side banks. -/
def State.lbRead (s : State) (a n : Nat) : List Byte := (List.range n).map fun i => s.lbByte (a + i)

/-- The line memory changed. -/
def Line.modMem (f : LineMem → LineMem) (l : Line) : Line := { l with mem := f l.mem }

/-- A non-owner access to a line bank: counted and reported (R392, R408). -/
def Line.ownerFault (epoch : W16) (m bank ofs : Nat) (write : Bool) (l : Line) : Line :=
  let now := l.clock.tb
  let due := reportDue l.mem.reports m 0 now
  let l' := l.modMem fun x =>
    { x with conflicts := countAt m 32 1 x.conflicts, faults := countAt bank 16 1 x.faults,
             reports := noteReport x.reports m 0 now due.isSome }
  match due with
  | none => l'
  | some k => l'.event 0x1C0 0x0030 1 false epoch 0
      ([w m, w bank] ++ wordsOf 2 ofs ++ [w (b2n write), w (lineOwner bank), 0, w k])

/-- The words in which two same-cycle writes to a scratch bank meet (R399). -/
def sameWords (aOfs aLen bOfs bLen : Nat) : List Nat :=
  ((List.range ((bOfs + bLen + 3) / 4 - bOfs / 4)).map (bOfs / 4 + ·)).filter
    (fun x => decide (aOfs / 4 ≤ x ∧ x < (aOfs + aLen + 3) / 4 ∧ 0 < aLen))

/-- Bytes that an access writes. -/
def RowAccess.bytes : RowAccess → List (Option Byte)
  | .read _ => []
  | .write bs => bs

/-- A lost port B write: counted and reported (R399, R408, Table 15.5). -/
def Line.writeLost (epoch : W16) (m ds word ls mask : Nat) (l : Line) : Line :=
  let now := l.clock.tb
  let due := reportDue l.mem.reports m 1 now
  let l' := l.modMem fun x => { x with reports := noteReport x.reports m 1 now due.isSome }
  match due with
  | none => l'
  | some k => l'.event 0x1C1 0x0030 1 false epoch 0 ([w ds] ++ wordsOf 2 (word * 4) ++ [w m, w ls, w mask, w k])

/-- The bytes of a port B write that port A's write of the same word discards (R399). -/
def dropWords (words : List Nat) (ofs : Nat) (bs : List (Option Byte)) : List (Option Byte) :=
  bs.zipIdx.map fun p => if words.contains ((ofs + p.2) / 4) then none else p.1

/-- The mask of bytes that port B loses in a word. -/
def lostMask (word ofs : Nat) (bs : List (Option Byte)) : Nat :=
  ((bs.zipIdx.filter fun p => p.1.isSome && (ofs + p.2) / 4 == word).map fun p => 2 ^ ((ofs + p.2) % 4)).sum

/-- What port A reads in a cycle (R398, R400): what stood before the write of the other port. -/
def State.readA (bank : Nat) (portA : Option (Nat × Nat × RowAccess)) (s : State) : State :=
  match portA with
  | some (_, o, .read n) => s.onLine (Line.modMem fun x => { x with readBytesA := s.lbRead (lineBankAt bank + o) n })
  | _ => s

/-- One piece of an access to a line bank at its place in the arbiter's order, with port A's access of the same cycle
(R392, R398 to R400): a read sees what stood before both writes. -/
def State.lineRow (m bank ofs : Nat) (acc : RowAccess) (portA : Option (Nat × Nat × RowAccess)) (s : State) : State :=
  let base := lineBankAt bank
  let ep := s.dev.modeEpoch
  let s := s.readA bank portA
  match acc with
  | .read n =>
    let s := if lineServes bank m false
      then s.onLine (Line.modMem fun x => { x with readBytes := x.readBytes ++ s.lbRead (base + ofs) n })
      else s.onLine fun l => (l.ownerFault ep m bank ofs false).modMem fun x => { x with readBytes := x.readBytes ++ List.replicate n 0 }
    match portA with
    | some (_, o, .write bs) => { s with lbMem := s.lbMem.writeSome (base + o) bs }
    | _ => s
  | .write bs =>
    let clash := match portA with
      | some (_, o, .write abs) => if decide (64 ≤ bank) then sameWords o abs.length ofs bs.length else []
      | _ => []
    let s := if lineServes bank m true then { s with lbMem := s.lbMem.writeSome (base + ofs) (dropWords clash ofs bs) }
      else s.onLine (Line.ownerFault ep m bank ofs true)
    match portA with
    | some (ls, o, .write abs) =>
      let s := { s with lbMem := s.lbMem.writeSome (base + o) abs }
      if clash.isEmpty || !lineServes bank m true then s
      else s.onLine fun l =>
        clash.foldl (fun l x => l.writeLost ep m (bank - 64) x ls (lostMask x ofs bs))
          (l.modMem fun x => { x with lostB := true, conflicts := countAt m 32 1 x.conflicts, writeLost := countAt (bank - 64) 32 1 x.writeLost })
    | _ => s

/-! ## Host-side banks -/

/-- Host bank `nn` changed. -/
def HostSide.modBank (nn : Nat) (f : HostBank → HostBank) (h : HostSide) : HostSide :=
  { h with mem := { h.mem with banks := h.mem.banks.modify nn f } }

/-- The owner codes of the host side (Table 15.2). -/
def hostOwners : List Nat := [0x00, 0x10, 0x11, 0x12, 0x13]

/-- A write of H_HBnn_OWN (R394, R396, R404): MARCH, VITAL and SHARED_READ at once, a written 1 clears FAILED, a new OWNER orders
a handover or replaces the target of the one that is pending. A code that is no host code is a host error, and orders none (R410; log 20). -/
def HostBank.write (now : Tick) (v : W32) (b : HostBank) : HostBank :=
  let b := { b with march := v.getLsbD 2, vital := v.getLsbD 1, shared := v.getLsbD 0, failed := b.failed && !v.getLsbD 30,
                    reservedBits := v &&& 0x1FFF00F8 }
  let new := bitsOf v.toNat 8 8
  if new = b.owner || !hostOwners.contains new then b
  else
    { b with owner := new,
             handover := some (b.handover.getD { original := b.owner, began := now, inFlight := 0, waiting := [] }) }

/-- BANK_HANDOVER (R394). -/
def execBankHandover (dt : Nat) (bank : Nat) (value : W32) (s : State) : Out :=
  .next ((s.advance dt).bar0H fun h => h.modBank bank (HostBank.write h.follower value))

/-- MARCH_FAILED_CLEAR: writing 1 to FAILED resumes the test (R404). -/
def execMarchFailedClear (dt : Nat) (bank : Nat) (s : State) : Out :=
  .next ((s.advance dt).bar0H (HostSide.modBank bank fun b => { b with failed := false }))

/-- The host writes bytes that pending frames name: those frames will carry unpredictable data bytes (R231; log 67). -/
def Line.touch (ofs n : Nat) (l : Line) : Line :=
  let hit (f : TxFrame) : TxFrame :=
    if !f.launched && !f.ended && decide (ofs < f.desc.dataOfs + f.desc.dataLen ∧ f.desc.dataOfs < ofs + n) then { f with touched := true } else f
  { l with sched := { l.sched with actions := l.sched.actions.map fun a => { a with frames := a.frames.map hit } } }

/-- Whether a write of `n` bytes at `ofs` meets a range. -/
def meetsRange (ofs n at_ len : Nat) : Bool := decide (ofs < at_ + len ∧ at_ < ofs + n)

/-- Bytes at the destination of a CIPHER_RUN (R429). -/
def CipherOp.dstLen (o : CipherOp) : Nat := if o.decrypt then o.len - o.tagLen else o.len + o.tagLen

/-- A CIPHER_RUN whose source or destination a write of the host meets: a host error, which leaves its output bytes unpredictable (R429). -/
def CipherOp.touch (ofs n : Nat) (o : CipherOp) : CipherOp :=
  if o.origin == .run && (meetsRange ofs n o.src o.len || meetsRange ofs n o.dst o.dstLen) then { o with touched := true } else o

/-- Whether a write meets the source or the destination of a CIPHER_RUN still to be carried out (R429, Table 11.12). -/
def runMeets (ofs n : Nat) (c : Cmd) : Bool :=
  let tag := bitsOf (c.word 4) 0 8
  meetsRange ofs n (c.value 5 2) (c.value 9 2)
    || meetsRange ofs n (c.value 7 2) (if bitOf (c.word 4) 11 then c.value 9 2 - tag else c.value 9 2 + tag)

/-- An accepted submission with the frames that a write meets marked, or a CIPHER_RUN with its buffers. -/
def Accepted.touch (ofs n : Nat) (a : Accepted) : Accepted :=
  if submitOpcodes.contains a.opcode then
    { a with touched := a.touched ++ (List.range (a.cmd.word 8)).filter fun i =>
        !a.touched.contains i && meetsRange ofs n (parseDesc a.cmd i).dataOfs (parseDesc a.cmd i).dataLen }
  else if a.opcode == 0x202 && runMeets ofs n a.cmd then { a with touched := [0] }
  else a

/-- A message that carries one. -/
def Msg.touch (ofs n : Nat) : Msg → Msg
  | .cmdLine a => .cmdLine (a.touch ofs n)
  | m => m

/-- The submissions still to execute, and the operations of CIPHER_RUN: submissions that have crossed are marked in their messages too. -/
def State.touchAccepted (ofs n : Nat) (s : State) : State :=
  let k := s.link
  let h := s.host
  { s with host := { h with accepted := h.accepted.map (Accepted.touch ofs n), cipherQ := h.cipherQ.map (CipherOp.touch ofs n),
                            engines := h.engines.map fun e =>
                              { e with active := e.active.map (CipherOp.touch ofs n), suspended := e.suspended.map (CipherOp.touch ofs n) } },
           link := { k with host := { k.host with flight := k.host.flight.map fun m => { m with msg := m.msg.touch ofs n } },
                            line := { k.line with inbox := k.line.inbox.map (Msg.touch ofs n) } } }

/-- A frame on air whose data bytes the host writes carries free ones from then on, its check computed over them (R231). -/
def OnAir.redraw (ctr at_ : Nat) (o : OnAir) : OnAir :=
  let n := o.bytes.length - 4
  { o with bytes := withCheck (hopDest o.bytes) (hopSeq o.bytes) (o.bytes.take at_ ++ (List.range (n - at_)).map fun j => Config.freeByte (ctr + j)) }

/-- The frame on air of a channel, where a write meets its data bytes. -/
def State.touchAir (ofs n : Nat) (s : State) (c : Nat) : State :=
  match (nth s.line.chans c (Chan.reset c)).onAir with
  | none => s
  | some o => match o.data with
    | some (a, m, at_) =>
      if meetsRange ofs n a m then
        { s with line := { s.line with chans := s.line.chans.modify c fun x => { x with onAir := some (o.redraw s.host.freeCtr at_) } } }.spend o.bytes.length
      else s
    | none => s

/-- The host writes bytes that the frames of accepted commands name, from the acceptance to the frame's end (R231; log 67). -/
def State.touch (ofs n : Nat) (s : State) : State :=
  let s := s.touchAccepted ofs n
  let s := { s with line := s.line.touch ofs n }
  ((List.range s.line.chans.length).filter fun c => (nth s.line.chans c (Chan.reset c)).onAir.isSome).foldl (State.touchAir ofs n) s

/-- Bytes of an access. -/
def accessSize : RowAccess → Nat
  | .read n => n
  | .write bs => bs.length

/-- The part of an access from its byte `k` on, of `n` bytes. -/
def accessPart (k n : Nat) : RowAccess → RowAccess
  | .read _ => .read n
  | .write bs => .write ((bs.drop k).take n)

/-- Whether an access waits for a handover of a bank (R394). -/
def HostBank.waits (b : HostBank) (m : Nat) (acc : RowAccess) : Bool := b.holdsBack m (match acc with | .read _ => false | .write _ => true)

/-- An access to rows of the host banks that none holds back, judged piece by piece (R392, R397); a read goes on behind the bytes that its earlier rows gave. -/
def State.hostAccess (m ofs : Nat) (acc : RowAccess) (got : List Byte) (s : State) : State :=
  match acc with
  | .read n =>
    let r := s.readHb m ofs n
    { r.2.2 with host := { r.2.2.host with readBytes := got ++ r.1 } }
  | .write bs =>
    let open_ (x : Nat) : Bool := (s.host.bank (x / 0x40000)).serves (classOf m) true
    let s := s.writeHb m ofs bs
    if m = 0x20 ∧ (open_ ofs || open_ (ofs + bs.length - 1)) = true then s.touch ofs bs.length else s

/-- An access to the host banks (R394, R397): its rows in ascending order up to the first that waits for a handover, the rest behind the accesses that wait for
that bank. -/
def State.request (m ofs : Nat) (acc : RowAccess) (got : List Byte) (s : State) : State :=
  let n := accessSize acc
  let k := (((rowPieces n ofs n).takeWhile fun p => !(s.host.bank (p.1 / 0x40000)).waits m acc).map (·.2)).sum
  if k = n then s.hostAccess m ofs acc got
  else
    let s := if k = 0 then s else s.hostAccess m ofs (accessPart 0 k acc) got
    let got := match acc with | .read _ => if k = 0 then got else s.host.readBytes | .write _ => []
    let a := ofs + k
    let q : BankReq := { master := m, bank := 128 + a / 0x40000, offset := a % 0x40000, access := accessPart k (n - k) acc, portA := none }
    s.onHost (HostSide.modBank (a / 0x40000) fun b =>
      { b with handover := b.handover.map fun hv => { hv with waiting := hv.waiting ++ [{ req := q, got := got }] } })

/-- The last access in flight completes: the new owner takes effect, the waiting accesses are served, BANK_OWNER (R394, R396). -/
def State.bankDrained (nn : Nat) (s : State) : State :=
  match (s.host.bank nn).handover with
  | none => s
  | some hv =>
    let b := s.host.bank nn
    let h := s.host.modBank nn fun b => { b with handover := none }
    let fields := [w (128 + nn), w hv.original, w b.owner] ++ tickWords hv.began ++ [w (min 65535 hv.inFlight)]
    let h := if hv.original = b.owner then h
      else h.event 0x1C3 0x8500 1 false s.dev.modeEpoch 0 fields
    hv.waiting.foldl (fun s a => s.request a.req.master ((a.req.bank - 128) * 0x40000 + a.req.offset) a.req.access a.got) { s with host := h }

/-- BAR2_ACCESS: served row by row as master 0x20 (R397). -/
def execBar2Access (dt : Nat) (offset : Nat) (access : RowAccess) (s : State) : Out :=
  .next ((s.advance dt).bar0 (State.request 0x20 offset access []))

/-- An access to a line bank, row by row, or with port A's access of the same cycle (R397, R398). -/
def State.lineAccess (q : BankReq) (s : State) : State :=
  let s := s.onLine (Line.modMem fun x => { x with readBytes := [], readBytesA := [], lostB := false })
  if q.portA.isSome && decide (64 ≤ q.bank) then s.lineRow q.master q.bank q.offset q.access q.portA
  else (rowPieces (accessSize q.access) q.offset (accessSize q.access)).foldl
    (fun s p => s.lineRow q.master q.bank p.1 (accessPart (p.1 - q.offset) p.2 q.access) none) s

/-- An access served at a bank's arbiter (R392); a code that names no bank reaches none. -/
def State.serveAccess (a : HeldAccess) (s : State) : State :=
  let q := a.req
  if q.bank < 68 then s.lineAccess q
  else if q.bank < 128 ∨ 160 ≤ q.bank then s
  else s.request q.master ((q.bank - 128) * 0x40000 + q.offset) q.access a.got

/-- One access at a bank's arbiter (R392). While the banks are retained it waits; without their supply they serve none (R406). -/
def State.arbiter (q : BankReq) (s : State) : State :=
  if s.dev.rung == .ashore then s
  else if s.dev.rung == .moored then
    s.onHost fun h => { h with mem := { h.mem with held := h.mem.held ++ [{ req := q, got := [] }] } }
  else s.serveAccess { req := q, got := [] }

/-- BANK_ACCESS (R392). -/
def execBankAccess (dt : Nat) (request : BankReq) (s : State) : Out :=
  .next ((s.advance dt).arbiter request)

/-! ## The background test -/

/-- The next bank that the tester may take at or after its place, with the pass it belongs to (R401). -/
def March.next (ok : Nat → Bool) (n : Nat) (m : March) : Option March :=
  match (List.range n).find? (fun b => decide (m.bank ≤ b) && ok b) with
  | some b => some (if b = m.bank then m else { m with bank := b, done := 0 })
  | none =>
    match (List.range n).find? ok with
    | some b => some { m with bank := b, done := 0, down := !m.down }
    | none => none

/-- The tester after one group of a bank of `groups` groups: the next group, or the next bank (R401). -/
def March.step (groups : Nat) (m : March) : March :=
  if m.done + 1 < groups then { m with done := m.done + 1 } else { m with bank := m.bank + 1, done := 0 }

/-- The offset of the group that the tester takes. -/
def March.offset (groups : Nat) (m : March) : Nat := 32 * (if m.down then groups - 1 - m.done else m.done)

/-- Whether the tester may begin a borrow: 2 µs after the one before it (R401). -/
def March.rested (now : Tick) (m : March) : Bool := m.last.all fun t => decide (3000 ≤ now - t)

/-- Free bytes for a group whose content is unpredictable (R404). -/
def freeGroup (n : Nat) : List Byte := (List.range 32).map fun i => Config.freeByte (n + i)

/-- A borrow of the host tester (R401, R402, R404, R405): while the bank that it is at has a handover pending, none. -/
def State.marchHost (fail : Option MarchFault) (s : State) : State :=
  let ok (b : Nat) := let x := s.host.bank b; x.march && !x.vital && !x.failed
  match s.host.mem.march.next ok 32 with
  | none => s
  | some m =>
    if (s.host.bank m.bank).handover.isSome || !m.rested s.host.follower then s
    else
      let m := { m with last := some s.host.follower }
      let ofs := m.offset 8192
      match fail with
      | none => s.onHost fun h => { h with mem := { h.mem with march := m.step 8192 } }
      | some f =>
        let h := { s.host with mem := { s.host.mem with march := { m with bank := m.bank + 1, done := 0 },
                                                        marchFails := satAdd 16 1 s.host.mem.marchFails } }
        let h := h.modBank m.bank fun b => { b with failed := true }
        let fields := [w (128 + m.bank)] ++ wordsOf 2 ofs ++ [w f.step] ++ wordsOf 2 f.mask.toNat
        let h := h.event 0x1C2 0x8500 1 false s.dev.modeEpoch 0 fields
        { s with host := { h with freeCtr := h.freeCtr + 32 },
                 hbMem := s.hbMem.writeN (m.bank * 0x40000 + ofs) (freeGroup h.freeCtr) }

/-- A borrow of the line tester (R401 to R405). -/
def State.marchLine (fail : Option MarchFault) (s : State) : State :=
  let ok (b : Nat) := nth s.line.mem.marked b false && !nth s.line.mem.vital b false
  match s.line.mem.march.next ok 68 with
  | none => s
  | some m =>
    if !m.rested s.line.clock.tb then s
    else
      let m := { m with last := some s.line.clock.tb }
      let groups := lineBankSize m.bank / 32
      let ofs := m.offset groups
      match fail with
      | none => s.onLine (Line.modMem fun x => { x with march := m.step groups })
      | some f =>
        let fields := [w m.bank] ++ wordsOf 2 ofs ++ [w f.step] ++ wordsOf 2 f.mask.toNat
        let s := s.onLine fun l => (l.modMem fun x =>
          { x with march := { m with bank := m.bank + 1, done := 0 }, marked := x.marked.set m.bank false,
                   marchFails := satAdd 16 1 x.marchFails }).event 0x1C2 0x0030 1 false s.dev.modeEpoch 0 fields
        { s with host := { s.host with freeCtr := s.host.freeCtr + 32 },
                 lbMem := s.lbMem.writeN (lineBankAt m.bank + ofs) (freeGroup s.host.freeCtr) }

/-- MARCH_BORROW: the tester of a die that runs, only in ROW (R405). -/
def execMarchBorrow (dt : Nat) (die : Die) (fail : Option MarchFault) (s : State) : Out :=
  .next (let s := s.advance dt
    if s.dev.rung != .row then s
    else match die with
      | .host => if s.hostOn then s.marchHost fail else s
      | .line => if s.dev.lineRails && !s.dev.lineReset then s.marchLine fail else s)

/-! ## Counters -/

/-- The counter that INDEX of H_MEM_CSEL selects (Table 15.10). -/
def HostMem.selected (m : HostMem) : Option Ctr :=
  let i := bitsOf m.csel.toNat 0 8
  if (0x20 ≤ i ∧ i ≤ 0x25) ∨ (0x30 ≤ i ∧ i ≤ 0x47) ∨ (0x50 ≤ i ∧ i ≤ 0x57) then some ((m.conflicts.lookup i).getD Ctr.zero)
  else if 0x80 ≤ i ∧ i ≤ 0x9F then some (nth m.banks (i - 0x80) (HostBank.reset 0)).faults
  else if i = 0xC0 then some m.marchFails else none

/-- The selected counter cleared. -/
def HostMem.clearSelected (m : HostMem) : HostMem :=
  let i := bitsOf m.csel.toNat 0 8
  if i < 0x80 then { m with conflicts := m.conflicts.filter (fun p => p.1 != i) }
  else if i ≤ 0x9F then { m with banks := m.banks.modify (i - 0x80) fun b => { b with faults := Ctr.zero } }
  else if i = 0xC0 then { m with marchFails := Ctr.zero } else m

/-- A read of H_MEM_CDATA (R410): the count, its overflow bit into OVF_LAST, both cleared. -/
def HostSide.cdataRead (h : HostSide) : HostSide :=
  match h.mem.selected with
  | none => h.returned 0
  | some c =>
    let m := h.mem.clearSelected
    { h with mem := { m with csel := (m.csel &&& 0x7FFFFFFF) ||| (if c.ovf then 0x80000000 else 0) } }.returned (BitVec.ofNat 32 c.val)

/-- MEM_CDATA_READ (R410). -/
def execMemCdataRead (dt : Nat) (s : State) : Out := .next ((s.advance dt).bar0H HostSide.cdataRead)

end Sys2Proof.Machine
end

