-- ==== Sys2Proof/Machine/Serial.lean ====
section
/-! DEFINITION. The serial ports SP0 to SP7 (R364 to R388): characters, receive blocks, transmit descriptors, driver enable, flow
control, break and stuck lines, start-edge wake. -/

namespace Sys2Proof.Machine

/-! ## Formats and times -/

/-- Whether the number of 1s is odd. -/
def oddOnes (v : Nat) : Bool := (natBits 9 v).foldl (fun a b => a != b) false

/-- The parity bit that R365 gives. -/
def parityBit (ctrl : W32) (data : Nat) : Bool :=
  match parityOf ctrl with
  | 1 => !oddOnes data
  | 2 => oddOnes data
  | 3 => true
  | _ => false

/-- The index of the first stop bit in a character frame, the start bit being 0 (R365). -/
def stopIndex (ctrl : W32) : Nat := 1 + dataBits ctrl + (if parityOf ctrl = 0 then 0 else 1)

/-- Whether SPn_RXD stands at its idle level `x` oscillator cycles after the start edge. -/
def charHigh (c : CharObs) (x : Nat) : Bool := (c.changes.filter fun e => decide (e ≤ x)).length % 2 == 1

/-- The three samples of bit `b`, at 7/16, 8/16 and 9/16 of it, each on an oscillator edge (R366, R367; log 100). -/
def charSamples (c : CharObs) (rate : W32) (b : Nat) : List Bool := [7, 8, 9].map fun k => charHigh c ((16 * b + k) * divOf rate / 256)

/-- The cycles at which pulses of 0.5 µs or more begin, `at_` being the beginning of the one under way (R380). -/
def pulseStarts : Nat → List Nat → List Nat
  | at_, [] => [at_]
  | at_, [e] => if e - at_ ≥ 120 then [at_] else []
  | at_, e :: b :: t => (if e - at_ ≥ 120 then [at_] else []) ++ pulseStarts b t

/-- The level that SPn_RXD shows behind IR_INV (R380, Table 14.11). -/
def rxLevel (ctrl : W32) (ball : Bool) : Bool := if irMode ctrl = 0 then ball else ball != ctrl.getLsbD 20

/-- That level while the line stands idle: 1, or under IR_MODE 0, a pulse being 1 (R380). -/
def rxIdle (ctrl : W32) : Bool := irMode ctrl == 0

/-- Whether a transition of SPn_RXD is a falling edge of the receive line: it leaves the idle level (R366, R380). -/
def edgeFalls (o : EdgeObs) (ctrl : W32) : Bool :=
  rxLevel ctrl o.before == rxIdle ctrl && rxLevel ctrl o.after != rxIdle ctrl

/-- Bit `b` of a received character (R366, R380): the majority of three samples, or 0 in a cell in which the leading edge of a pulse falls, the start
bit's cell beginning 7/16 of a bit before the first one. -/
def charBit (c : CharObs) (fmt : W32 × W32) (b : Nat) : Bool :=
  if irMode fmt.1 = 0 then decide (2 ≤ ((charSamples c fmt.2 b).filter (· == true)).length)
  else !(pulseStarts 0 c.changes).any fun x => (256 * x + 7 * divOf fmt.2) / (16 * divOf fmt.2) == b

/-- Whether the samples of any bit disagree (R366). -/
def charNoisy (c : CharObs) (fmt : W32 × W32) : Bool :=
  irMode fmt.1 == 0 && (List.range (stopIndex fmt.1 + 1)).any fun b => let s := charSamples c fmt.2 b; s.contains true && s.contains false

/-- The data bits of a received character (R365). -/
def charData (c : CharObs) (fmt : W32 × W32) : Nat := ((List.range (dataBits fmt.1)).map fun i => b2n (charBit c fmt (1 + i)) * 2 ^ i).sum

/-- The receive entry of a character (R366, Table 14.2). -/
def rxEntry (fmt : W32 × W32) (c : CharObs) (wake lost : Bool) : Nat :=
  let data := charData c fmt
  let pe := parityOf fmt.1 != 0 && charBit c fmt (1 + dataBits fmt.1) != parityBit fmt.1 data
  data + b2n pe * 512 + b2n (!charBit c fmt (stopIndex fmt.1)) * 1024 + b2n (charNoisy c fmt) * 4096 + b2n wake * 8192 + b2n lost * 32768

/-- The receive entry of a character whose data and errors are unpredictable (R380). -/
def rxFree (fmt : W32 × W32) (free : W16) (wake lost : Bool) : Nat :=
  free.toNat % 2 ^ dataBits fmt.1 + bitsOf free.toNat 9 2 * 512 + b2n wake * 8192 + b2n lost * 32768

/-- When a character that began at `e` is complete: the middle of its first stop bit (R366), its start bit's cell beginning 7/16 of a bit before the edge
under IR_MODE (R380). -/
def charDone (fmt : W32 × W32) (e : Tick) : Tick :=
  e + sixteenths fmt.2 (16 * stopIndex fmt.1 + 8 - if irMode fmt.1 = 0 then 0 else 7)

/-- Whether a start edge proves to be none (R366, R380): a start bit whose majority is 1, or a first pulse shorter than 0.5 µs. -/
def charFalse (fmt : W32 × W32) (c : CharObs) : Bool :=
  if irMode fmt.1 = 0 then charBit c fmt 0 else match c.changes with
    | e :: _ => decide (e < 120)
    | [] => false

/-- When a start edge can prove to be none: at the last sample of the start bit, or 0.5 µs after a pulse began (R366, R380). -/
def falseAt (fmt : W32 × W32) (e : Tick) : Tick := if irMode fmt.1 = 0 then e + sixteenths fmt.2 9 else e + 750

/-- The changes of level within `x` ticks of the start edge: a cycle of the port's oscillator is 6.25 ticks. -/
def changesBy (c : CharObs) (x : Nat) : List Nat := c.changes.filter fun e => decide (25 * e ≤ 4 * x)

/-- Without the pulses shorter than 0.5 µs, which a receiver of infrared ignores (R380). -/
def dropShort : List Nat → List Nat
  | [] => []
  | [b] => [b]
  | b :: e :: t => if e - b < 120 then dropShort t else b :: e :: dropShort t

/-- The changes of level that count, the first of which ends the low or the pulse of the start edge. -/
def lineChanges (fmt : W32 × W32) (c : CharObs) (x : Nat) : List Nat :=
  match changesBy c x with
  | [] => []
  | r :: t => r :: if irMode fmt.1 = 0 then t else dropShort t

/-- Whether the receive line has been low without a break for the `x` ticks since the start edge (R381): at 0, or under IR_MODE with a 0 in every bit
cell that is over. -/
def lineLow (fmt : W32 × W32) (c : CharObs) (x : Nat) : Bool :=
  if irMode fmt.1 = 0 then (changesBy c x).isEmpty
  else (List.range ((1024 * x + 175 * divOf fmt.2) / (400 * divOf fmt.2))).all fun b => !charBit c fmt b

/-- Whether the receive line has been high without a break for one character time, `x` ticks after the start edge of the low (R383). -/
def lineHigh (fmt : W32 × W32) (c : CharObs) (x : Nat) : Bool :=
  match (lineChanges fmt c x).getLast? with
  | none => false
  | some l => (lineChanges fmt c x).length % 2 == 1 && decide (25 * l + 4 * (charTimes fmt 1).toNat ≤ 4 * x)

/-- Bit `b` of the frame of a character that is sent (R365). -/
def sentBit (ctrl : W32) (data : Nat) (b : Nat) : Bool :=
  if b = 0 then false else if b ≤ dataBits ctrl then bitOf data (b - 1)
  else if b < stopIndex ctrl then parityBit ctrl data else true

/-- The level of SPn_TXD (R364, R376, R380): high while nothing is sent, low in a break, else the bit of the character in the shifter. With IR_MODE a
bit of 0 is a pulse from 7/16 of its cell on, 3/16 of a bit or 1.63 µs wide, high without IR_INV. -/
def Serial.txd (now : Tick) (p : Serial) : Bool :=
  let fmt := p.txFormat
  let ir := irMode fmt.1
  let e := (now - p.shiftAt).toNat * 256
  let bit := 100 * divOf fmt.2
  let sent := match p.shifter with
    | some d => if now < p.shiftAt then true else sentBit fmt.1 d.toNat (e / bit)
    | none => true
  let at_ := 16 * (e % bit)
  let pulse := !sent && decide (7 * bit ≤ at_) && (if ir = 1 then decide (at_ < 10 * bit) else decide (at_ < 7 * bit + 16 * 2445 * 256))
  if p.breakFrom.isSome then fmt.1.getLsbD 20 && ir != 0 else if ir = 0 then sent else pulse != fmt.1.getLsbD 20

/-! ## Access -/

/-- What happens at the balls of the serial ports: nothing while the test port stops the host links (R363). -/
def State.pins (f : HostSide → HostSide) (s : State) : State := if s.linksStopped then s else s.onHost f

/-- Widths of the SAT counters of Table 14.6. -/
def serialWidths : List Nat := [32, 32, 16, 16, 16, 16, 32, 32, 16, 16, 16, 16, 16, 16]

/-- `k` events at counter `i` of a port, in the order of Table 14.6 without the queue epoch. -/
def Serial.count (i k : Nat) (p : Serial) : Serial := { p with ctrs := countAt i (nth serialWidths i 16) k p.ctrs }

/-- A cause bit of H_SPn_STATUS sets (R388). -/
def HostSide.spStatus (n bit : Nat) (h : HostSide) : HostSide :=
  (h.modSp n fun p => { p with status := p.status ||| (1 <<< bit) }).raiseIf ((h.sp n).ie.getLsbD bit) (16 + n)

/-- A serial event (R387). -/
def HostSide.spEvent (n code : Nat) (fields : List W16) (h : HostSide) : HostSide :=
  h.event code (0x8300 + n) 8 false (h.sp n).queueEpoch (8 + n) fields

/-- NBLK of a region register. -/
def nblk (rxbuf : W32) : Nat := bitsOf rxbuf.toNat 24 8 + 1
/-- Entries per block. -/
def blockEntries (rxbuf : W32) : Nat := 2 ^ bitsOf rxbuf.toNat 0 4
/-- BAR2 byte offset of a block (R371). -/
def blockOfs (rxbuf : W32) (b : Nat) : Nat := bitsOf rxbuf.toNat 4 19 * 16 + b * blockEntries rxbuf * 2

/-- FREE blocks of a port (R371). -/
def Serial.freeBlocks (p : Serial) : Nat := nblk p.rxbufF - p.held - (if p.filling.isSome then 1 else 0)

/-- SPn_RTS_N as R379 drives it; asserted with HWFC = 0. -/
def Serial.flow (n : Nat) (p : Serial) : Serial :=
  if n < 6 then p
  else if !p.ctrl.getLsbD 23 then { p with rts := true }
  else if p.freeBlocks ≤ bitsOf p.limits.toNat 16 8 ∨ 48 ≤ p.fifo.length then { p with rts := false }
  else if bitsOf p.limits.toNat 24 8 ≤ p.freeBlocks ∧ p.fifo.length ≤ 16 then { p with rts := true } else p

/-! ## Receive -/

/-- An entry enters the receive buffer, or is lost and counted when it is full (R370). -/
def HostSide.storeEntry (n : Nat) (e : RxEntry) (h : HostSide) : HostSide :=
  if (h.sp n).fifo.length ≥ 64 then
    (h.modSp n fun p => ({ p with lostPending := true, lostSince := min 65535 (p.lostSince + 1) }.count 6 1).flow n).spStatus n 3
  else
    let err := bitsOf e.entry.toNat 9 2 != 0 || bitOf e.entry.toNat 12
    let h := h.modSp n fun p =>
      (((({ p with fifo := p.fifo ++ [e], lostPending := false }.count 0 1).count 2 (b2n (bitOf e.entry.toNat 9))).count 3
        (b2n (bitOf e.entry.toNat 10))).count 4 (b2n (bitOf e.entry.toNat 12))).flow n
    if err then h.spStatus n 2 else h

/-- SERIAL_WAKE for a latched wake (R384, R387). -/
def HostSide.serialWake (n : Nat) (false_ : Bool) (h : HostSide) : HostSide :=
  match (h.sp n).wakePending with
  | none => h
  | some r =>
    let h := h.modSp n fun p => ({ p with wakePending := none }.count 10 1).count 11 (b2n false_)
    (h.spEvent n 0x241 [w n, w (rungCode r), w (b2n false_)]).spStatus n 5

/-- Whether a falling edge begins a character (R366, R378): the receiver is enabled and searches for a start edge, which DE does not hide. -/
def Serial.begins (n : Nat) (p : Serial) : Bool :=
  p.ctrl.getLsbD 0 && p.edge.isNone && p.lineState == .idle && !(decide (n < 6) && p.de && !p.ctrl.getLsbD 22)

/-- A character begins under the values in force; a running timeout stops (R366, R369, R373). -/
def Serial.begin (now : Tick) (p : Serial) : Serial :=
  let stops := match p.timeout with | some t => decide (now ≤ t) | none => false
  { p with edge := some now, lowSince := some now, edgeFormat := (p.ctrl, p.rate),
           stoppedTimeout := if stops then p.timeout else none, timeout := if stops then none else p.timeout }

/-- A transition of SPn_RXD (R366, R384, R486): a falling edge may begin a character. On a port that the wake mask names it wakes the device, below ROW where
it begins one, and in MOORED and ASHORE unless the line is STUCK. A wake in MOORED or ASHORE without a character to tell of it, in BREAK or with the receiver off, is told at once (log 136). -/
def State.startEdge (o : EdgeObs) (s : State) : State :=
  let n := o.port
  let p := s.host.sp n
  let begins := p.begins n
  let low := s.dev.rung == .moored || s.dev.rung == .ashore
  let wakes := s.dev.wakeMask.getLsbD n && if low then p.edge.isNone && p.lineState != .stuck else begins && s.dev.rung != .row
  let s := s.onHost (HostSide.modSp n fun p => { p with rxd := rxLevel p.ctrl o.after })
  if !edgeFalls o p.ctrl then s
  else
    let h := s.host.modSp n fun p => { (if begins then p.begin s.host.follower else p) with
      wakePending := if wakes && low then some s.dev.rung else p.wakePending }
    { s with host := if begins then h else h.serialWake n false,
             dev := { s.dev with exit := if wakes then some (s.dev.exit.getD { began := s.host.follower, source := n }) else s.dev.exit } }

/-- SERIAL_START_EDGE (R366). -/
def execSerialStartEdge (dt : Nat) (edge : EdgeObs) (s : State) : Out :=
  .next (let s := s.advance dt; if s.linksStopped then s else s.startEdge edge)

/-- RXTO character times of the present format from an instant on (R369, R373). -/
def Serial.timeoutFrom (p : Serial) (t : Tick) : Tick := t + charTimes (p.ctrl, p.rate) (bitsOf p.line.toNat 20 8)

/-- Whether the entry of a character is unpredictable: IR_MODE at a rate that it does not allow, or the character that woke the device above 460,800 Bd
(R380, R384). -/
def Serial.unsure (p : Serial) : Bool := irBad p.edgeFormat || (p.wakePending.isSome && decide (divOf p.edgeFormat.2 < 8333))

/-- A character completes at the middle of its first stop bit (R366), unless its start bit was a false one. A line that is still low then may become a
break (R382). -/
def HostSide.character (n : Nat) (c : CharObs) (h : HostSide) : HostSide :=
  let p := h.sp n
  match p.edge with
  | none => h
  | some e =>
    if p.lineState != .idle || decide (h.follower < charDone p.edgeFormat e) || (!irBad p.edgeFormat && charFalse p.edgeFormat c) then h
    else
      let lost := p.lostPending && decide (p.fifo.length < 64)
      let entry := if p.unsure then rxFree p.edgeFormat (Config.freeWord h.freeCtr) p.wakePending.isSome lost
        else rxEntry p.edgeFormat c p.wakePending.isSome lost
      let stays := !charBit c p.edgeFormat (stopIndex p.edgeFormat.1) || (changesBy c (h.follower - e).toNat).isEmpty
      let idle := (changesBy c (h.follower - e).toNat).length % 2 == 1
      let h := { h.modSp n fun p => { p with edge := none, rxd := idle == rxIdle p.edgeFormat.1, lowSince := if stays then p.lowSince else none,
                                             stoppedTimeout := none, timeout := some (p.timeoutFrom h.follower) } with
                 freeCtr := h.freeCtr + b2n p.unsure }
      (h.storeEntry n { entry := w entry, edge := e, done := h.follower }).serialWake n false

/-- SERIAL_CHARACTER (R366). -/
def execSerialCharacter (dt : Nat) (port : Nat) (char : CharObs) (s : State) : Out :=
  .next ((s.advance dt).pins (HostSide.character port char))

/-- The receive block record (Table 14.3), `data` with the entries for a copy on UDP stream 3 (R374). -/
def blockRecord (n close : Nat) (p : Serial) (f : Filling) (ts : Tick) (adj data : Bool) : List W16 :=
  let err := f.entries.any fun e => bitsOf e.toNat 9 2 != 0 || bitOf e.toNat 12
  let lost := f.entries.any fun e => bitOf e.toNat 15
  [w (0x6000 + close * 256), w (20 + if data then f.entries.length else 0), w (0x8300 + n),
   w (0x800 + b2n data * 128 + b2n err * 64 + b2n lost * 32 + b2n adj)] ++ tickWords ts ++ [p.queueEpoch, w (8 + n)]
    ++ tickWords f.firstEdge ++ [w f.block] ++ wordsOf 2 (blockOfs p.rxbufF f.block)
    ++ [w f.entries.length, w p.lostSince, 0] ++ (if data then f.entries else [])

/-- A copy of a block record on UDP stream 3, or one more copy discarded: with its destination unresolved, or longer than the largest UDP payload
(R306, R374; log 18). -/
def HostSide.routeCopy (n : Nat) (words : List W16) (h : HostSide) : HostSide :=
  if !(h.sp n).route then h
  else if h.udpReady (h.queue 0) && h.eth.carries words.length then
    { h with eth := h.eth.send (h.queue 0).destAddr (h.queue 0).destPort 3 words }
  else h.modSp n (Serial.count 13 1)

/-- The filling block closes: its record goes into the port's receive queue and the block is HELD (R371, R372, R374). -/
def HostSide.closeBlock (n close : Nat) (h : HostSide) : HostSide :=
  let p := h.sp n
  match p.filling with
  | none => h
  | some f =>
    if f.entries.isEmpty then h.modSp n fun p => { p with filling := none }
    else
      let r := h.stamp (0x8300 + n) f.lastAt
      let words := blockRecord n close p f r.1 r.2.1 false
      let pkt : QPacket := { entries := packetEntries false (.plain words), prov := false, slot := false, begun := false }
      let h := r.2.2.modSp n fun p =>
        ({ p with filling := none, nextBlock := (f.block + 1) % nblk p.rxbufF, held := p.held + 1, queue := p.queue ++ [pkt],
                  lostSince := 0 }.count 7 (if close = 1 then 1 else 0)).flow n
      (h.routeCopy n (blockRecord n close p f r.1 r.2.1 true)).spStatus n 0

/-- A block closes behind every character received so far: at once, or behind the last of those that wait (R371, R373; log 136). -/
def HostSide.closeBehind (n cause : Nat) (h : HostSide) : HostSide :=
  match (h.sp n).fifo.reverse with
  | [] => h.closeBlock n cause
  | e :: before => h.modSp n fun p => { p with fifo := before.reverse ++ [{ e with closes := some (e.closes.getD cause) }] }

/-- The characters of CP0's buffer up to its last flag. -/
def throughFlag (b : List (Byte × Tick)) : List (Byte × Tick) := (b.reverse.dropWhile fun x => x.1 != sp0Flag).reverse

/-- CP0 takes a character of SP0 (R386): one with PE, FE or BRK discards the frame in progress, of which the rest is passed over; one that finds the buffer
full is discarded and counted. Outside frames only a flag is taken (R307). -/
def HostSide.sp0Char (e : RxEntry) (h : HostSide) : HostSide :=
  let b : Byte := BitVec.ofNat 8 e.entry.toNat
  let open_ := !h.sp0Skip && !(throughFlag h.sp0Buf).isEmpty
  if bitsOf e.entry.toNat 9 3 != 0 then
    { h with sp0Buf := throughFlag h.sp0Buf, sp0Skip := true, transport := countAt 1 32 (b2n open_) h.transport }
  else if !open_ && b != sp0Flag then h
  else if h.sp0Buf.length < 4096 then { h with sp0Buf := h.sp0Buf ++ [(b, e.done)], sp0Skip := h.sp0Skip && b != sp0Flag }
  else h.modSp 0 (Serial.count 6 1)

/-- The cause with which a block closes behind an entry (Table 14.4): a break, a timeout or disable that came while it waited, or that it is full. -/
def RxEntry.cause (full : Bool) (e : RxEntry) : Option Nat :=
  if bitOf e.entry.toNat 11 then some 2 else match e.closes with
    | some c => some c
    | none => if full then some 0 else none

/-- The receive DMA writes the oldest buffered entry into the block being filled (R370, R371), once no handover of its bank is pending (R394). -/
def State.rxDma (n : Nat) (s : State) : State :=
  let p := s.host.sp n
  match p.fifo with
  | [] => s
  | e :: rest =>
    if p.lineState == .stuck || (s.dev.rung != .row && s.dev.rung != .paddle && s.dev.rung != .drift) then s
    else if n = 0 then s.onHost fun h => (h.modSp 0 fun p => { p with fifo := rest }).sp0Char e
    else if p.filling.isNone && p.freeBlocks = 0 then s
    else
      let f := p.filling.getD { block := p.nextBlock, entries := [], firstEdge := e.edge, lastAt := e.done }
      if s.blocked (0x50 + n) (blockOfs p.rxbufF f.block + 2 * f.entries.length) 2 true then s
      else
        let s := s.writeHb (0x50 + n) (blockOfs p.rxbufF f.block + 2 * f.entries.length) ((wordBytes [e.entry]).map some)
        let f' := { f with entries := f.entries ++ [e.entry], lastAt := e.done }
        let h := s.host.modSp n fun p => { p with fifo := rest, filling := some f' }.flow n
        match e.cause (decide (f'.entries.length ≥ blockEntries p.rxbufF)) with
        | some c => { s with host := h.closeBlock n c }
        | none => { s with host := h }

/-- SERIAL_RX_DMA (R371). -/
def execSerialRxDma (dt : Nat) (port : Nat) (s : State) : Out :=
  .next (let s := s.advance dt; if s.linksStopped then s else s.rxDma port)

/-- The receive timeout passes its expiry tick with no start edge (R373). -/
def HostSide.rxTimeout (n : Nat) (h : HostSide) : HostSide :=
  match (h.sp n).timeout with
  | none => h
  | some t => if h.follower < t then h else (h.modSp n fun p => { p with timeout := none }).closeBehind n 1

/-- SERIAL_RX_TIMEOUT (R373). -/
def execSerialRxTimeout (dt : Nat) (port : Nat) (s : State) : Out := .next ((s.advance dt).pins (HostSide.rxTimeout port))

/-- A start edge proves to be none (R366, R380): a false start bit is discarded and counted, a short pulse ignored; a timeout that it stopped expires or
resumes (R373). -/
def HostSide.falseStart (n : Nat) (c : CharObs) (h : HostSide) : HostSide :=
  let p := h.sp n
  match p.edge with
  | none => h
  | some e =>
    if p.lineState != .idle || decide (h.follower < falseAt p.edgeFormat e) || !charFalse p.edgeFormat c then h
    else
      let h := h.modSp n fun p =>
        { p with edge := none, lowSince := none, rxd := rxIdle p.edgeFormat.1, stoppedTimeout := none, timeout := p.stoppedTimeout }.count 5
          (b2n (irMode p.edgeFormat.1 == 0))
      let h := h.serialWake n true
      match p.stoppedTimeout with
      | some t => if t < h.follower then (h.modSp n fun p => { p with timeout := none }).closeBehind n 1 else h
      | none => h

/-- SERIAL_FALSE_START (R366). -/
def execSerialFalseStart (dt : Nat) (start : FalseStart) (s : State) : Out :=
  .next ((s.advance dt).pins (HostSide.falseStart start.port start.char))

/-- The code of a line state (Table 14.5). -/
def lineCode : LineState → Nat
  | .idle => 0 | .brk => 1 | .stuck => 2

/-- A change of line state, reported by SERIAL_LINE (R381, R387). -/
def HostSide.lineChange (n : Nat) (new : LineState) (edge : Tick) (h : HostSide) : HostSide :=
  let old := (h.sp n).lineState
  ((h.modSp n fun p => { p with lineState := new }).spEvent n 0x240 ([w n, w (lineCode old), w (lineCode new)] ++ tickWords edge)).spStatus n 4

/-- The line has been low for two character times: BREAK, and while the receiver is on a BRK entry in place of the character (R382). -/
def HostSide.lineBreak (o : LineObs) (h : HostSide) : HostSide :=
  let n := o.port
  let p := h.sp n
  match p.lowSince with
  | none => h
  | some e =>
    if p.lineState != .idle || decide (h.follower < e + charTimes p.edgeFormat 2) || !lineLow p.edgeFormat o.char (h.follower - e).toNat then h
    else
      let lost := p.lostPending && decide (p.fifo.length < 64)
      let h := ((h.lineChange n .brk e).modSp n (Serial.count 8 1)).modSp n fun p => { p with edge := none, timeout := none, stoppedTimeout := none }
      let entry := w (2048 + b2n p.wakePending.isSome * 8192 + b2n lost * 32768)
      (if p.ctrl.getLsbD 0 then h.storeEntry n { entry := entry, edge := e, done := h.follower } else h).serialWake n false

/-- SERIAL_BREAK (R382). -/
def execSerialBreak (dt : Nat) (line : LineObs) (s : State) : Out := .next ((s.advance dt).pins (HostSide.lineBreak line))

/-- Whether a line may become STUCK (R382): in BREAK; under IR_MODE while the raw input has been held at its pulse level, in BREAK or not. -/
def Serial.mayStick (c : CharObs) (x : Nat) (p : Serial) : Bool :=
  if irMode p.edgeFormat.1 = 0 then p.lineState == .brk && !lineHigh p.edgeFormat c x else p.lineState != .stuck && (changesBy c x).isEmpty

/-- STUCK_TIME after the start edge: STUCK (R382). -/
def HostSide.lineStuck (o : LineObs) (h : HostSide) : HostSide :=
  let n := o.port
  let p := h.sp n
  match p.lowSince with
  | none => h
  | some e =>
    if !p.mayStick o.char (h.follower - e).toNat || decide (h.follower < e + ((bitsOf p.limits.toNat 0 16 * 1500000 : Nat) : Int)) then h
    else ((h.lineChange n .stuck e).modSp n (Serial.count 9 1)).modSp n fun p => { p with edge := none }

/-- SERIAL_STUCK (R382). -/
def execSerialStuck (dt : Nat) (line : LineObs) (s : State) : Out := .next ((s.advance dt).pins (HostSide.lineStuck line))

/-- The line has been high for one character time: IDLE (R383). -/
def HostSide.lineIdle (o : LineObs) (h : HostSide) : HostSide :=
  let n := o.port
  let p := h.sp n
  match p.lowSince with
  | none => h
  | some e =>
    if p.lineState == .idle || !lineHigh p.edgeFormat o.char (h.follower - e).toNat then h
    else (h.lineChange n .idle e).modSp n fun p => { p with edge := none, lowSince := none, rxd := rxIdle p.edgeFormat.1 }

/-- SERIAL_IDLE (R383). -/
def execSerialIdle (dt : Nat) (line : LineObs) (s : State) : Out := .next ((s.advance dt).pins (HostSide.lineIdle line))

/-- SERIAL_RX_RELEASE: the COUNT oldest HELD blocks become FREE (R372); SP0 has none (R386). -/
def execSerialRxRelease (dt : Nat) (port : Nat) (value : W32) (s : State) : Out :=
  .next ((s.advance dt).bar0H fun h =>
    if port = 0 then h else h.modSp port fun p => { p with held := p.held - bitsOf value.toNat 0 9 }.flow port)

/-! ## Transmit -/

/-- The next character of the first descriptor goes to the shifter (R375), unless its entry's bank has a handover pending (R394); SP0 sends the frames of CP0 (R386). -/
def State.txStart (n : Nat) (s : State) : State :=
  let p := s.host.sp n
  if n = 0 then s.onHost HostSide.sp0Load
  else match p.descs with
  | [] => s
  | d :: _ =>
    if !p.mayStart n || s.blocked (0x50 + n) (d.ofs + 2 * d.sent) 2 false then s
    else
      let r := s.readHb (0x50 + n) (d.ofs + 2 * d.sent) 2
      let c := p.outChar (ofWords (byteWords r.1)) r.2.2.host.freeCtr
      (r.2.2.spend c.2).onHost fun h => h.modSp n (Serial.load n h.follower c.1)

/-- A handover of a host bank is over (R394): also the serial ports that waited for it go on. -/
def State.bankOwner (nn : Nat) (s : State) : State := (List.range 8).foldl (fun s n => s.txStart n) (s.bankDrained nn)

/-- BANK_OWNER (R394). -/
def execBankOwner (dt : Nat) (bank : Nat) (s : State) : Out := .next ((s.advance dt).bankOwner bank)

/-- A descriptor write (R375): queued, or discarded with DROP when 16 are pending; SP0 has none (R386). -/
def State.txDescriptor (n : Nat) (v : W32) (s : State) : State :=
  if n = 0 then s
  else if (s.host.sp n).descs.length ≥ 16 then s.onHost (HostSide.modSp n fun p => { p with drop := true }.count 12 1)
  else
    let cnt := bitsOf v.toNat 22 10
    let d : TxDesc := { ofs := bitsOf v.toNat 0 22 * 2, count := if cnt = 0 then 1024 else cnt, sent := 0 }
    (s.onHost (HostSide.modSp n fun p => { p with descs := p.descs ++ [d] })).txStart n

/-- SERIAL_TX_DESCRIPTOR (R375). -/
def execSerialTxDescriptor (dt : Nat) (port : Nat) (value : W32) (s : State) : Out :=
  .next ((s.advance dt).bar0 (State.txDescriptor port value))

/-- After the shifter empties: a break begins, the next character starts, or the DE tail runs (R375 to R377). -/
def State.txNext (n : Nat) (s : State) : State :=
  if (s.host.sp n).ctrl.getLsbD 21 then
    s.onHost (HostSide.modSp n fun p => { p with breakFrom := some s.host.follower, de := decide (n < 6), tailFrom := none })
  else
    let t := s.txStart n
    if (t.host.sp n).shifter.isSome then t
    else t.onHost (HostSide.modSp n fun p => { p with tailFrom := if p.de then some t.host.follower else none })

/-- A character of SP0's frame has left; with the last the frame is sent, and the queues that feed SP0 deliver their next packets, a reply first (R386;
log 137). -/
def HostSide.sp0Sends (h : HostSide) : HostSide :=
  match h.sp0Out with
  | none => h
  | some f =>
    if f.2 + 1 < f.1.length then { h with sp0Out := some (f.1, f.2 + 1) }
    else
      let h := { h with sp0Out := none, sp0Sent := h.sp0Sent ++ [f.1] }
      (((h.deliver 5).drainHold 5).deliver 0).drainHold 0

/-- The shifter empties: one more character sent. -/
def Serial.shifted (p : Serial) : Serial := { p with shifter := none }.count 1 1

/-- A descriptor's character has left: the next one follows, or the descriptor is complete (R375). -/
def HostSide.descSends (n : Nat) (h : HostSide) : HostSide :=
  match (h.sp n).descs with
  | [] => h
  | d :: rest =>
    if d.sent + 1 < d.count then h.modSp n fun p => { p with descs := { d with sent := d.sent + 1 } :: rest }
    else (h.modSp n fun p => { p with descs := rest, done := p.done + 1 }).spStatus n 1

/-- The last stop bit of a sent character ends (R375). -/
def State.txEnd (n : Nat) (s : State) : State :=
  let p := s.host.sp n
  if s.linksStopped || p.shifter.isNone || decide (s.host.follower < p.shiftAt + charTimes p.txFormat 1) then s
  else
    (s.onHost fun h => let h := h.modSp n Serial.shifted; if n = 0 then h.sp0Sends else h.descSends n).txNext n

/-- SERIAL_TX_CHARACTER_END (R375). -/
def execSerialTxCharacterEnd (dt : Nat) (port : Nat) (s : State) : Out := .next ((s.advance dt).txEnd port)

/-- A break that TX_BRK = 0 ends: after two character times the line is driven to 1, for a bit time at least before the next start bit (R376). -/
def State.breakEnd (n : Nat) (s : State) : State :=
  let p := s.host.sp n
  match p.breakFrom with
  | none => s
  | some b =>
    if s.host.follower < b + charTimes (p.ctrl, p.rate) 2 then s.onHost (HostSide.modSp n fun p => { p with breakEnding := true })
    else (s.onHost (HostSide.modSp n fun p => { p with breakFrom := none, breakEnding := false, txAfter := s.host.follower + sixteenths p.rate 16 })).txNext n

/-- A write of H_SPn_CTRL (R369, R371, R376): the falls of RX_EN, the changes of TX_EN and TX_BRK act at once; format values are
taken up by each direction at its next character. -/
def State.writeSerialCtrl (n : Nat) (v : W32) (s : State) : State :=
  let old := (s.host.sp n).ctrl
  let s := s.onHost (HostSide.modSp n fun p => { p with ctrl := v }.flow n)
  let s := if old.getLsbD 0 && !v.getLsbD 0 then
      s.onHost fun h => (h.closeBehind n 3).modSp n fun p => { p with edge := none, timeout := none, stoppedTimeout := none }
    else s
  let s := if !old.getLsbD 21 && v.getLsbD 21 && (s.host.sp n).shifter.isNone then
      s.onHost (HostSide.modSp n fun p => { p with breakFrom := some (p.breakFrom.getD s.host.follower), breakEnding := false,
                                                   de := decide (n < 6), tailFrom := none })
    else s
  let s := if old.getLsbD 21 && !v.getLsbD 21 then s.breakEnd n else s
  s.txStart n

/-- SERIAL_TX_BREAK_SET (R376). -/
def execSerialTxBreakSet (dt : Nat) (port : Nat) (s : State) : Out :=
  .next ((s.advance dt).bar0 fun s => s.writeSerialCtrl port ((s.host.sp port).ctrl ||| (1 <<< 21)))

/-- SERIAL_TX_BREAK_CLEAR (R376). -/
def execSerialTxBreakClear (dt : Nat) (port : Nat) (s : State) : Out :=
  .next ((s.advance dt).bar0 fun s => s.writeSerialCtrl port ((s.host.sp port).ctrl &&& 0xFFDFFFFF))

/-- SERIAL_BREAK_HOLD_END (R376). -/
def execSerialBreakHoldEnd (dt : Nat) (port : Nat) (s : State) : Out :=
  .next (let s := s.advance dt; if (s.host.sp port).breakEnding && !s.linksStopped then s.breakEnd port else s)

/-- SERIAL_TX_DISABLE: the character in the shifter completes (R376). -/
def execSerialTxDisable (dt : Nat) (port : Nat) (s : State) : Out :=
  .next ((s.advance dt).bar0 fun s => s.writeSerialCtrl port ((s.host.sp port).ctrl &&& 0xFFFFFFFD))

/-- SERIAL_RX_DISABLE: the filling block closes with cause DISABLE (R371). -/
def execSerialRxDisable (dt : Nat) (port : Nat) (s : State) : Out :=
  .next ((s.advance dt).bar0 fun s => s.writeSerialCtrl port ((s.host.sp port).ctrl &&& 0xFFFFFFFE))

/-- SERIAL_FORMAT_CHANGE: a write of H_SPn_RATE or H_SPn_CTRL reaches the port (R369). -/
def execSerialFormatChange (dt : Nat) (port : Nat) (rateReg : Bool) (value : W32) (s : State) : Out :=
  .next ((s.advance dt).bar0 fun s =>
    if rateReg then s.onHost (HostSide.modSp port fun p => { p with rate := value }) else s.writeSerialCtrl port value)

/-- SERIAL_DE_TAIL_END: SPn_DE falls DE_TAIL sixteenths after the last stop bit (R377). -/
def execSerialDeTailEnd (dt : Nat) (port : Nat) (s : State) : Out :=
  .next ((s.advance dt).pins fun h =>
    match (h.sp port).tailFrom with
    | none => h
    | some t =>
      if h.follower < t + sixteenths (h.sp port).txFormat.2 (bitsOf (h.sp port).line.toNat 10 10) then h
      else h.modSp port fun p => { p with de := false, tailFrom := none })

/-- SERIAL_CTS_CHANGE: SPn_CTS_N going low releases a held character (R379). -/
def execSerialCtsChange (dt : Nat) (port : Nat) (high : Bool) (s : State) : Out :=
  .next (let s := s.advance dt
    if s.linksStopped then s else (s.onHost (HostSide.modSp port fun p => if port < 6 then p else { p with cts := !high })).txStart port)

/-! ## The receive queue -/

/-- The first word of a port's receive queue, and the port without it (R329, R374). -/
def Serial.takeWord (p : Serial) : Option ((W16 × BitVec 2) × Serial) :=
  match p.queue with
  | [] => none
  | q :: rest =>
    match q.entries with
    | [] => none
    | e :: es => some (e, { p with queue := if es.isEmpty then rest else { q with entries := es } :: rest, queueLast := e })

/-- A read of H_SPn_RXQ at the head of the window (R330, R374): on an empty queue it returns at once, or stalls from now on for the STALL_LIMIT in force. -/
def HostSide.rxqHead (n : Nat) (h : HostSide) : HostSide :=
  let p := h.sp n
  match p.takeWord with
  | some r => (h.modSp n fun _ => r.2).returned (windowWord r.1)
  | none =>
    if p.rxqCtrl.getLsbD 0 then
      h.modSp n fun p => { p with queueWaiting := 1, queueStallEnd := h.follower + ((bitsOf p.rxqCtrl.toNat 7 6 * 1500 : Nat) : Int) }
    else h.returned (windowEmpty p.queueLast.1 p.queueLast.2)

/-- A read of H_SPn_RXQ, in its order of arrival (R331, R374, R386). -/
def HostSide.rxqRead (n : Nat) (h : HostSide) : HostSide :=
  if n = 0 then h.returned 0x40000
  else if (h.sp n).queueWaiting = 0 then h.rxqHead n
  else h.modSp n fun p => { p with queueWaiting := p.queueWaiting + 1 }

/-- The stalling read at the head has completed, and `k` reads behind it follow in their order (R331). -/
def HostSide.rxqDone (n k : Nat) (h : HostSide) : HostSide :=
  (List.range k).foldl (fun h _ =>
      let h' := h.rxqRead n
      if (h'.sp n).queueWaiting = 0 then { h' with readsDone := h'.readsDone ++ [h'.readData] } else h')
    { h with readsDone := h.readsDone ++ [h.readData] }

/-- SERIAL_RXQ_READ (R374). -/
def execSerialRxqRead (dt : Nat) (port : Nat) (s : State) : Out := .next ((s.advance dt).bar0H (HostSide.rxqRead port))

/-- A receive queue after a reset, every block free again (R339, R374). -/
def Serial.rxqCleared (n : Nat) (p : Serial) : Serial :=
  { p with queue := [], queueLast := (0, 0), queueEpoch := p.queueEpoch + 1, held := 0, filling := none, nextBlock := 0,
           rxbufF := p.rxbuf, queueWaiting := 0 }.flow n

/-- A reset of the receive queue (R339, R374): the read that stalls completes, every block is released, the DMA restarts at block 0, the buffer is kept. -/
def HostSide.rxqReset (n : Nat) (h : HostSide) : HostSide :=
  let p := h.sp n
  if n = 0 then h
  else
    let dropped := (p.queue.map fun q => q.entries.length).sum
    let h' := (h.modSp n (Serial.rxqCleared n)).event 0x1D0 0x8500 8 true (p.queueEpoch + 1) (8 + n) (w (8 + n) :: wordsOf 2 dropped ++ [0])
    if p.queueWaiting = 0 then h' else (h'.returned (windowEmpty 0 0)).rxqDone n (p.queueWaiting - 1)

/-- SERIAL_RXQ_RESET (R374). -/
def execSerialRxqReset (dt : Nat) (port : Nat) (s : State) : Out := .next ((s.advance dt).bar0H (HostSide.rxqReset port))

/-- A stalled read of a receive queue takes the word that has been written (R330, R374). -/
def HostSide.rxqStalledComplete (n : Nat) (h : HostSide) : HostSide :=
  let p := h.sp n
  if p.queueWaiting = 0 then h
  else match p.takeWord with
    | some r => ((h.modSp n fun _ => { r.2 with queueWaiting := 0 }).returned (windowWord r.1)).rxqDone n (p.queueWaiting - 1)
    | none => h

/-- STALLED_READ_COMPLETE, of queues 0 to 5 and of the receive queues 8 to 15 (R330, R374). -/
def execStalledReadComplete (dt : Nat) (queue : Nat) (s : State) : Out :=
  .next ((s.advance dt).bar0 fun s =>
    if queue < 8 then ((s.onHost (HostSide.stalledComplete queue)).queueReport queue s.host).drained queue
    else s.onHost (HostSide.rxqStalledComplete (queue - 8)))

/-- A stalled read of a receive queue that has waited STALL_LIMIT (R330, R374). -/
def HostSide.rxqStallExpire (n : Nat) (h : HostSide) : HostSide :=
  let p := h.sp n
  if p.queueWaiting = 0 || decide (h.follower < p.queueStallEnd) then h
  else
    ((h.modSp n fun p => { p with queueWaiting := 0 }).returned (windowEmpty p.queueLast.1 p.queueLast.2)).rxqDone n (p.queueWaiting - 1)

/-- STALL_LIMIT_EXPIRY (R330, R374). -/
def execStallLimitExpiry (dt : Nat) (queue : Nat) (s : State) : Out :=
  .next ((s.advance dt).bar0 fun s =>
    if queue < 8 then (s.onHost (HostSide.stallExpire queue)).drained queue else s.onHost (HostSide.rxqStallExpire (queue - 8)))

end Sys2Proof.Machine
end

