-- ==== Sys2Proof/Machine/Records.lean ====
section
/-! DEFINITION. Records that both sides build: the payload string's header (R180, R423), the transmit completion record (R246) and
the retract record (R225). -/

namespace Sys2Proof.Machine

/-- The hop header of an originated frame (Table 6.7, R229): HOP_COUNT 0. -/
def hopHeader (d : FrameDesc) : List Byte :=
  beBytes 4 d.dest.toNat ++ beBytes 4 d.src.toNat ++ beBytes 2 d.seq.toNat ++ [BitVec.ofNat 8 d.hopsToGo, 0]
    ++ beBytes 2 d.floodId.toNat ++ [BitVec.ofNat 8 d.floodK, 0]

/-- LEN_M1 of a frame (R229, R423): 15 or 47 plus the data bytes. -/
def lenM1 (d : FrameDesc) : Nat := (if d.sec then 47 else 15) + d.dataLen

/-- What a transmit completion record tells (Table 8.4). -/
structure TxOutcome where
  status : Status
  cause : Nat
  cut : Bool
  clip : Bool
  slipped : Nat
  launch : Tick
  complete : Nat
  ended : Nat
  symbols : Nat
  txb : Option Nat
  level : Nat
  impSteps : Nat

/-- The words of a transmit completion record (Table 8.4). TXB of a frame that was never sent is free (log 5). -/
def completionWords (src : Nat) (ts : Tick) (adj : Bool) (epoch : W16) (chan : Nat) (tag : W16) (index : Nat) (seq : W16)
    (o : TxOutcome) : List W16 :=
  [w (0x5000 + statusCode o.status), 24, w src, w (0x400 + b2n o.cut * 128 + b2n o.clip * 64 + b2n adj)] ++ tickWords ts
    ++ [epoch, w chan, tag, w (index * 256 + o.cause), w o.slipped, 0] ++ tickWords o.launch
    ++ [w (o.complete * 256 + o.ended), seq] ++ wordsOf 2 o.symbols ++ [w (o.txb.getD (Config.freeTxb chan seq.toNat tag.toNat).toNat * 4096 + o.level), w o.impSteps]

/-- The outcome of a frame that never launched. -/
def dropped (st : Status) (cause slipped : Nat) (launch : Tick) (level : Nat) : TxOutcome :=
  { status := st, cause := cause, cut := false, clip := false, slipped := slipped, launch := launch, complete := 0, ended := 0,
    symbols := 0, txb := none, level := level, impSteps := 0 }

/-- The epoch of a channel. -/
def Line.chanEpoch (l : Line) (c : Nat) : W16 := (nth l.chans c (Chan.reset c)).epoch

/-- A transmit completion record of the host side, source the command processor (R246, R452). -/
def HostSide.completion (t : Tick) (via : Transport) (epoch : W16) (chan : Nat) (tag : W16) (index : Nat) (seq : W16) (o : TxOutcome)
    (h : HostSide) : HostSide :=
  let src := 0x8010 + cpOf via
  let r := h.stamp src t
  (r.2.2.place 0 (.plain (completionWords src r.1 r.2.1 epoch chan tag index seq o))).deliver 0

/-- A pending action of which nothing is left to do: every frame launched or ended. -/
def Action.spent (a : Action) : Bool := !a.frames.isEmpty && a.frames.all fun f => f.launched || f.ended

/-- Frame `i` of an action changed. -/
def Sched.modFrame (id i : Nat) (f : TxFrame → TxFrame) (x : Sched) : Sched :=
  { x with actions := x.actions.map fun a => if a.id = id then { a with frames := a.frames.modify i f } else a }

/-- Actions of which nothing is left to do leave the queue. -/
def Sched.sweep (x : Sched) : Sched := { x with actions := x.actions.filter fun a => !a.spent }

/-- Frame `i` of an action has ended without a launch. -/
def Sched.endFrame (id i : Nat) (x : Sched) : Sched := (x.modFrame id i fun f => { f with ended := true }).sweep

/-- A message for the line side is sent, or owed until the barrier returns. -/
def State.tellLine (m : Msg) (s : State) : State :=
  let e := s.link.host
  { s with link := { s.link with host := if e.up then e.send s.host.follower m else { e with owed := e.owed ++ [m] } } }

/-- The note of a frame sent as FRAME_DOWN (R455). -/
def HostFrame.note (f : HostFrame) : Note :=
  { tag := f.tag, via := f.via, action := f.action, index := f.index, frame := true, cls := 4, kind := 4, unit := f.desc.chan, ofs := f.desc.ofs,
    planned := f.launch, slipped := f.slipped, seq := f.desc.seq, level := f.desc.level, closed := false }

/-- A frame of the transmit frame queue is dropped on the host side, with its record (R246, R424, R452). The line side hears of it, so that the
frame launches no more (log 84). Its note is closed: a record that the line side has made in the meantime is discarded (R94, R243). -/
def State.dropFrame (f : HostFrame) (st : Status) (cause : Nat) (s : State) : State :=
  let h := { s.host with txq := s.host.txq.filter fun g => !(g.action == f.action && g.index == f.index),
                         notes := s.host.notes ++ [{ f.note with closed := true }] }
  { s with host := h.completion h.follower f.via (s.line.chanEpoch f.desc.chan) f.desc.chan f.tag f.index f.desc.seq
                     (dropped st cause f.slipped f.launch f.desc.level) }.tellLine (.frameGone f.action f.index f.desc.chan cause)

/-- The words of a retract record (Table 7.9). -/
def retractWords (status src : Nat) (ts : Tick) (adj : Bool) (c : CutFrame) : List W16 :=
  [w (0x4000 + status), 18, w src, w (0x400 + b2n adj)] ++ tickWords ts ++ [c.epoch, w c.chan, c.rxId, w c.segments]
    ++ wordsOf 2 c.bytes ++ c.sync

/-- A retract record of the host side in the receive frame queue (R220, R335). -/
def HostSide.retract (status src : Nat) (t : Tick) (c : CutFrame) (h : HostSide) : HostSide :=
  let r := h.stamp src t
  r.2.2.place 1 (.plain (retractWords status src r.1 r.2.1 c))

end Sys2Proof.Machine
end

