-- ==== Sys2Proof/Machine/LineOps.lean ====
section
/-! DEFINITION. The shared operations of line ports and channels: flags and events (R117, R118, R139), the driver enable (R122, R123), on-air
endings (R241, R244) and the completion record of the line side (R246). -/

namespace Sys2Proof.Machine

/-! ## Ports -/

/-- The modes whose line outputs are active (Table 1.6). -/
def outputsActive : Mode → Bool
  | .headend => true | .relay => true | .corridor => true | .holdover => true | .island => true
  | .boot => false | .config => false | .survey => false | .test => false | .maintain => false | .quarantine => false | .safe => false

/-- Row `i` of Table 4.2. -/
def Port.row (q : Port) (i : Nat) : Nat := nth q.cfg i 0

/-- ENABLE. -/
def Port.on (q : Port) : Bool := q.row 0 == 1

/-- Whether ENABLE and the flags of a port let it transmit (R117). -/
def Port.clear (q : Port) : Bool := q.on && !q.muted && !q.fault && q.faultDue.isNone

/-- Whether a port transmits (R117), or in TEST carries a frame internally (R230). -/
def Port.carries (mode : Mode) (q : Port) : Bool := q.clear && (outputsActive mode || mode == .test)

/-- Whether port `p` transmits: not while the line side has declared the barrier down (R453). -/
def Line.carries (l : Line) (mode : Mode) (p : Nat) : Bool := !l.down && (nth l.ports p Port.reset).carries mode

/-- A span in µs as ticks. -/
def microTicks (n : Nat) : Tick := (n * 1500 : Nat)

/-- An event that increments a port's epoch (R118, R139). -/
def Line.portEvent (t : Tick) (p code : Nat) (fields : List W16) (l : Line) : Line :=
  let ep := (l.port p).epoch + 1
  (l.modPort p fun q => { q with epoch := ep }).eventAt t code (0x100 + p) 3 true ep p fields

/-- An event of a port that leaves its epoch (R139). -/
def Line.portNote (t : Tick) (p code : Nat) (fields : List W16) (l : Line) : Line :=
  l.eventAt t code (0x100 + p) 3 false (l.port p).epoch p fields

/-- ENABLE, MUTED and FAULT as PORT_STATE carries them. -/
def Port.flags (q : Port) : List W16 := [w (b2n q.on), w (b2n q.muted), w (b2n q.fault)]

/-- A change of a port that raises PORT_STATE when it changes a flag (R118, Table 4.7). -/
def Line.changeFlags (t : Tick) (p cause : Nat) (tag : W16) (f : Port → Port) (l : Line) : Line :=
  let l' := l.modPort p f
  if (l'.port p).flags = (l.port p).flags then l'
  else l'.portEvent t p 0x040 ([w p] ++ (l.port p).flags ++ (l'.port p).flags ++ [w cause, tag])

/-- PORT_CONFIG with its bitmap (Table 4.7). -/
def Line.portConfigEvent (p : Nat) (tag : W16) (bits : Nat) (l : Line) : Line :=
  l.portEvent l.clock.tb p 0x041 ([w p, tag] ++ wordsOf 2 bits)

/-- An event that increments a channel's epoch. -/
def Line.chanEvent (t : Tick) (c code : Nat) (fields : List W16) (l : Line) : Line :=
  let ep := (l.chan c).epoch + 1
  (l.modChan c fun x => { x with epoch := ep }).eventAt t code (0x200 + c) 4 true ep c fields

/-- An event of a channel that leaves its epoch. -/
def Line.chanNote (t : Tick) (c code : Nat) (fields : List W16) (l : Line) : Line :=
  l.eventAt t code (0x200 + c) 4 false (l.chan c).epoch c fields

/-! ## Channels -/

/-- Setting `i` of Table 11.15. -/
def Chan.row (x : Chan) (i : Nat) : Nat := nth x.cfg i 0

/-- RX_PORT of a channel that receives. -/
def Chan.rxPort (x : Chan) : Option Nat :=
  match x.place with
  | some p => if p.rxPort = 0xFF then none else some p.rxPort
  | none => none

/-- The port-set entries in use, with their index. -/
def Placement.entries (p : Placement) : List (Nat × Nat) := (p.portSet.zipIdx.filter fun e => e.1 != 0xFF).map fun e => (e.2, e.1)

/-- The port-set entries of a channel, with their index. -/
def Chan.entries (x : Chan) : List (Nat × Nat) := (x.place.map Placement.entries).getD []

/-- The reference port of a placement: the lowest port of its set, else its receive port (R77). -/
def Placement.refPort (p : Placement) : Nat :=
  match p.entries.map (·.2) with
  | [] => p.rxPort
  | a :: r => r.foldl min a

/-- The reference port of a transmission or channel action (R77). -/
def Chan.refPort (x : Chan) : Nat := (x.place.map Placement.refPort).getD 0

/-- RATE_K of a channel. -/
def Chan.rateK (x : Chan) : Nat := (x.place.map (·.rateK)).getD 0

/-- The occupied band fc ± 0.625 Rs in units of 2^-32 Hz (R132). -/
def bandOf (f : W32) (rateK : Nat) : Int × Int :=
  let fc : Int := (f.toNat * 1500000000 : Nat)
  let half : Int := (2500000 * 2 ^ (32 - rateK) : Nat)
  (fc - half, fc + half)

/-- A frequency in Hz in the units of `bandOf`. -/
def hertz (f : Nat) : Int := (f * 2 ^ 32 : Nat)

/-- Whether two bands share an interval of non-zero width (R133). -/
def bandsOverlap (a b : Int × Int) : Bool := decide (max a.1 b.1 < min a.2 b.2)

/-- The guard G at an edge (R136). -/
def guardAt (f : Nat) : Int := max (hertz 25000) (hertz f / 200)

/-- Condition 6 of R133 for one port: inside an allowed band with its guards, and clear of every notch. -/
def Port.allows (q : Port) (b : Int × Int) : Bool :=
  q.bands.any (fun e => decide (hertz e.1 + guardAt e.1 ≤ b.1 ∧ b.2 ≤ hertz e.2 - guardAt e.2)) &&
    q.notches.all fun e => decide (b.2 ≤ hertz e.1 - guardAt e.1 ∨ hertz e.2 + guardAt e.2 ≤ b.1)

/-- A placement as words 9 to 16 of CHANNEL_PLACE; an unplaced state under R131. -/
def placeWords (p : Option Placement) : List W16 :=
  let q := p.getD { rxPort := 0xFF, portSet := List.replicate 8 0xFF, f := 0, rateK := 0 }
  let e (i : Nat) := nth q.portSet i 0xFF
  [w q.rxPort] ++ (List.range 4).map (fun i => w (e (2 * i) + 256 * e (2 * i + 1))) ++ wordsOf 2 q.f.toNat
    ++ [w (q.rateK + if p.isNone then 0x8000 else 0)]

/-! ## Frames that will launch -/

/-- The launch instant of frame `i` of an action (R228). -/
def Action.frameLaunch (a : Action) (f : TxFrame) : Tick := a.launch + f.desc.ofs

/-- RELAY_VIA of a channel (R289). -/
def Line.via (l : Line) (c : Nat) : Nat := (l.chan c).via

/-- The launch instants that a channel has before it on a port of its set: host frames, relayed copies and the device's own frames, of which a
time-transfer reply uses one port alone (R174). -/
def Line.launches (l : Line) (c p : Nat) : List Tick :=
  (l.sched.actions.flatMap fun a => (a.frames.filter fun f => f.desc.chan == c && !f.launched && !f.ended).map a.frameLaunch)
    ++ (l.relay.copies.filter fun k => k.chan == c).map (·.launch)
    ++ (l.time.planned.filter fun o => o.chan == c && o.port.all (· == p)).map (·.launch)

/-- LPnn_DRVEN low at once, without DRV_TAIL (R126, R129). -/
def Port.cutDrv (q : Port) : Port := { q with drven := false, holders := [], fallAt := none }

/-- When LPnn_DRVEN rises for a launch (R122). -/
def Port.riseAt (q : Port) (t : Tick) : Tick := t - q.row 3 - microTicks (q.row 5)

/-- How many launches of a channel ask for a port's driver enable now: those whose rise has come, while the port may transmit (R117, R122). In MAINTAIN,
while new line firmware starts, none does. -/
def Line.risen (l : Line) (c p : Nat) : Nat :=
  if l.fw.isNone && (l.port p).clear && (l.chan c).entries.any (fun e => e.2 == p) then
    ((l.launches c p).filter fun t => decide ((l.port p).riseAt t ≤ l.clock.tb)).length else 0

/-- The transmissions of a channel that have started on a port and neither ended nor faded out there, each by the instant at which its last sample, or that of
its ending, leaves the converter (R122, R241): the frame on air, and endings that outlast their frame. -/
def Line.airing (l : Line) (c p : Nat) : List Tick :=
  (((l.chan c).onAir.map fun o => (o.entries.filter fun e => e.port == p && e.started && !e.complete).map fun e =>
      match e.ended with | some x => x.1 + 750 | none => o.endAt - e.trim).getD [])
    ++ ((l.port p).lateEnds.filter fun x => x.chan == c).map fun x => x.at_ + 750

/-- How many transmissions of a channel may hold a port's driver enable now: those on air there and the launches whose rise has come. -/
def Line.holds (l : Line) (c p : Nat) : Nat := (l.airing c p).length + l.risen c p

/-- Whether a frame that started on a port has not faded out there. -/
def Line.fading (l : Line) (p : Nat) : Bool := (List.range l.chans.length).any fun c => !(l.airing c p).isEmpty

/-- `k` occurrences of a channel leave a list. -/
def eraseTimes (c : Nat) : Nat → List Nat → List Nat
  | 0, xs => xs
  | n + 1, xs => eraseTimes c n (xs.erase c)

/-- The driver enable of a port after transmissions of a channel have ended, dropped or slipped: what they held falls DRV_TAIL after `t`
(R122, R123). -/
def Line.settleDrv (c p : Nat) (t : Tick) (l : Line) : Line :=
  let extra := (l.port p).holders.count c - l.holds c p
  if extra = 0 then l
  else l.modPort p fun q =>
    { q with holders := eraseTimes c extra q.holders,
             fallAt := some (max (q.fallAt.getD 0) (t + microTicks (q.row 6))) }

/-- The driver enables of every port of a channel's set settle at `t`. -/
def Line.settleSet (c : Nat) (t : Tick) (l : Line) : Line :=
  ((l.chan c).entries.map (·.2)).foldl (fun l p => l.settleDrv c p t) l

/-- A transmission of a channel holds a port's driver enable high (R122). In TEST the enable stays low (R230). -/
def Line.holdDrv (mode : Mode) (c p : Nat) (l : Line) : Line :=
  if outputsActive mode then l.modPort p fun q => { q with drven := true, holders := q.holders ++ [c] } else l

/-- How many transmissions of a channel on a port have had their tail: their last sample, or that of their ending, left the converter DRV_TAIL ago (R122). -/
def Line.tailsOver (l : Line) (c p : Nat) : Nat :=
  ((l.airing c p).filter fun t => decide (t + microTicks ((l.port p).row 6) ≤ l.clock.tb)).length

/-- How many transmissions of a channel ask for a port's driver enable now: those on air whose tail has not passed, and the launches whose rise has come
(R122). -/
def Line.asks (l : Line) (c p : Nat) : Nat := l.holds c p - l.tailsOver c p

/-- Whether a transmission holds a port's driver enable high: one on air whose tail has not passed, or, in a mode whose outputs are active, one whose rise
has come, also at this very tick, so that intervals that touch leave it high (R117, R122). -/
def Line.held (l : Line) (mode : Mode) (p : Nat) : Bool :=
  (l.port p).holders.any (fun c => decide ((l.port p).holders.count c > l.tailsOver c p)) ||
    (outputsActive mode && (List.range l.chans.length).any fun c => decide (l.risen c p > 0))

/-- A port ceases to transmit: the transmissions that have begun there hold the driver enable until their tails, a tail goes on, and a rise for a frame that
has not launched ends at once (R117). -/
def Line.dropRise (p : Nat) (l : Line) : Line :=
  let keep := (l.port p).holders.dedup.flatMap fun c => List.replicate (min ((l.port p).holders.count c) (l.airing c p).length) c
  l.modPort p fun q => if keep.isEmpty && q.fallAt.isNone then q.cutDrv else { q with holders := keep }

/-! ## On-air endings -/

/-- The ending of an entry at instant `e` of the converter (R241). A started ending is not ended again; of an ending still to start and a new one the
earlier counts, and of two at one instant the lower cause (R244). An ending after the entry's last sample has left its converter is one too
(log 91). -/
def TxEntry.endAt (e : Tick) (cause : Nat) (x : TxEntry) : TxEntry :=
  if !x.started || x.complete then x
  else match x.ended with
    | none => { x with ended := some (e, cause) }
    | some (t, k) => if e < t then { x with ended := some (e, cause) } else if e = t then { x with ended := some (t, min k cause) } else x

/-- The frame on air of a channel ends early on the entries named. -/
def Line.endEntries (which : TxEntry → Bool) (e : Tick) (cause c : Nat) (l : Line) : Line :=
  l.modChan c fun x => { x with onAir := x.onAir.map fun o =>
    { o with entries := o.entries.map fun n => if which n then n.endAt e cause else n } }

/-- Every frame on air on a port ends there (R120, R126). -/
def Line.endPort (p : Nat) (e : Tick) (cause : Nat) (l : Line) : Line :=
  (List.range l.chans.length).foldl (fun l c => l.endEntries (fun n => n.port == p) e cause c) l

/-- The frame on air of a channel ends on every port (R242). -/
def Line.endChan (c : Nat) (e : Tick) (cause : Nat) (l : Line) : Line := l.endEntries (fun _ => true) e cause c

/-- Every frame on air ends on every port (R32, R243, R460). -/
def Line.endAll (e : Tick) (cause : Nat) (l : Line) : Line := (List.range l.chans.length).foldl (fun l c => l.endChan c e cause) l

/-! ## Completion records -/

/-- Widths of Table 8.5. -/
def txWidths : List Nat := [32, 32, 32, 16, 32, 16, 16, 32, 32]

/-- Counter `i` of Table 8.5 of a channel. -/
def Line.countTx (c i k : Nat) (l : Line) : Line := l.modChan c fun x => { x with ctrs8 := countAt i (nth txWidths i 32) k x.ctrs8 }

/-- The counter of a status (Table 8.5). -/
def statusCounter : Status → Nat
  | .ok => 0 | .late => 2 | .busy => 3 | .epochStale => 5 | .barrier => 6
  | .accepted => 4 | .noResource => 4 | .aborted => 4 | .mode => 4 | .quarantined => 4

/-- The transmit completion record of the line side for frame `index` of an action, source the channel, with the channel epoch that it carries (R246),
and its counters (R247). -/
def Line.completion (t : Tick) (epoch : W16) (c : Nat) (tag : W16) (action index : Nat) (seq : W16) (o : TxOutcome) (l : Line) : Line :=
  let l := (l.countTx c (statusCounter o.status) 1).countTx c 7 o.symbols
  let l := if o.status = .ok ∧ o.cut = true then l.countTx c 1 1 else l
  let r := l.stamp (0x200 + c) t
  r.2.2.emit (.event (.plain (completionWords (0x200 + c) r.1 r.2.1 epoch c tag index seq o)) (some (action, index)))

/-- The status of a cause when no port completes (Table 8.3). -/
def causeStatus (cause : Nat) : Status :=
  if cause = 0 then .ok else if cause ≤ 2 then .late else if cause = 3 then .busy else if cause = 10 then .epochStale
  else if cause = 15 then .barrier else .aborted

/-- The earliest ending of a frame: instant and cause, on equal instants the lower code (R244). -/
def OnAir.firstEnd (o : OnAir) : Option (Tick × Nat) :=
  (o.entries.filterMap (·.ended)).foldl (fun b e =>
    match b with
    | none => some e
    | some x => if e.1 < x.1 ∨ (e.1 = x.1 ∧ e.2 < x.2) then some e else some x) none

/-- The entries that satisfy a test, as bits (Table 8.4, word 18). -/
def OnAir.bits (o : OnAir) (f : TxEntry → Bool) : Nat := (o.entries.zipIdx.map fun p => b2n (f p.1) * 2 ^ p.2).sum

/-- Symbols whose pulse peak lies before the earliest ending at the reference plane; all of them without one (Table 8.4). -/
def OnAir.sent (o : OnAir) : Nat :=
  let peaks (e : TxEntry) : Option Nat := e.ended.map fun x => (-((o.launch - (x.1 + e.trim)) / symbolTicks o.rateK)).toNat - 8
  (o.entries.filterMap peaks).foldl min o.symbols

/-- Whether an entry carried the frame to its end. -/
def TxEntry.whole (e : TxEntry) : Bool := e.started && e.ended.isNone

/-- When the record of a frame is due (R246): its end when a port completes it, else the completion of the last ending at the
reference plane. -/
def OnAir.dueAt (o : OnAir) : Tick :=
  if o.entries.any TxEntry.whole then o.endAt
  else (o.entries.filterMap fun e => e.ended.map fun x => x.1 + 750 + e.trim).foldl max o.launch

/-- What the completion record of a frame on air tells (R244 to R246). `clip` is its CLIP flag. -/
def OnAir.outcome (o : OnAir) (slipped level : Nat) (clip : Bool) : TxOutcome :=
  let cause := (o.firstEnd.map (·.2)).getD 0
  { status := if o.entries.any TxEntry.whole then .ok else causeStatus cause, cause := cause, cut := o.firstEnd.isSome, clip := clip,
    slipped := slipped, launch := o.launch, complete := o.bits TxEntry.whole, ended := o.bits fun e => e.started && e.ended.isSome,
    symbols := o.sent, txb := some o.txb, level := level, impSteps := min 65535 o.steps }

/-! ## Self-overlap holds -/

/-- The counters of Table 4.8 of a channel: self-overlap holds and placements refused. -/
def Line.countPlace (c i : Nat) (l : Line) : Line := l.modChan c fun x => { x with ctrs4 := countAt i (nth [32, 16] i 32) 1 x.ctrs4 }

/-- The channels that a transmission of a band on a port holds (R135). -/
def Line.overlapped (l : Line) (p : Nat) (band : Int × Int) : List Nat :=
  (l.chans.zipIdx.filter fun x => match x.1.place with
    | some q => q.rxPort == p && bandsOverlap band (bandOf q.f q.rateK)
    | none => false).map (·.2)

/-- The samples of an interval are marked (R127, R135); marks that no reception needs any more are let go. A frame whose candidate is still to be declared
needs those of its header symbols, the first of which peaks 7 symbols before the declaration (R200, R201). -/
def Chan.mark (a b : Tick) (x : Chan) : Chan :=
  let old := if x.frames.isEmpty && x.ctx.all Option.isNone then x.marks.filter fun m => decide (a ≤ m.2 + 16 * symbolTicks x.rateK) else x.marks
  { x with marks := old ++ [(a, b)] }

/-- Context `i` of a channel is free (R202). -/
def Chan.freeCtx (t : Tick) (i : Nat) (x : Chan) : Chan := { x with ctx := x.ctx.set i none, ctxEnd := max x.ctxEnd t }

/-- Both contexts of a channel are free. -/
def Chan.freeBoth (t : Tick) (x : Chan) : Chan :=
  { x with ctx := [none, none], ctxEnd := if x.ctx.any Option.isSome then max x.ctxEnd t else x.ctxEnd }

/-- Preamble search stops on the channels that a transmission overlaps; a hold that goes on is not counted again (R135, Table 4.8).
The first sample leaves the converter at `t`. -/
def Line.startHold (p : Nat) (band : Int × Int) (t : Tick) (l : Line) : Line :=
  (l.overlapped p band).foldl (fun l c =>
    let l := if (l.chan c).holdFrom.isSome then l else (l.countPlace c 0).modChan c fun x => { x with holdFrom := some t }
    l.modChan c fun x => { x with holdUntil := none }) l

/-- The transmission's last sample has left the converter at `t`: the holds end 10 µs later (R135). -/
def Line.endHold (p : Nat) (band : Int × Int) (t : Tick) (l : Line) : Line :=
  let l := l.modPort p fun q => { q with tails := (t + 15000, band) :: q.tails.filter fun x => decide (l.clock.tb < x.1) }
  (l.overlapped p band).foldl (fun l c => l.modChan c fun x =>
    { x with holdUntil := some (max (x.holdUntil.getD t) (t + 15000)) }) l

/-- Whether a transmission on air, or the ending of one, overlaps a channel on its receive port. -/
def Line.stillHeld (l : Line) (c : Nat) : Bool :=
  match (l.chan c).place with
  | none => false
  | some q =>
    (l.chans.any fun x => match x.onAir with
      | some o => bandsOverlap (bandOf o.f o.rateK) (bandOf q.f q.rateK) && o.entries.any fun e => e.port == q.rxPort && e.started && !e.complete
      | none => false)
      || (l.port q.rxPort).lateEnds.any fun e => bandsOverlap (bandOf e.f e.rateK) (bandOf q.f q.rateK)

/-- The end of the holds that transmissions which have ended still cause on a channel (R135). -/
def Line.tailHold (l : Line) (c : Nat) : Option Tick :=
  match (l.chan c).place with
  | none => none
  | some q => (((l.port q.rxPort).tails.filter fun x => decide (l.clock.tb < x.1) && bandsOverlap x.2 (bandOf q.f q.rateK)).map (·.1)).max?

/-- Whether the first sample of a launch of channel `d` has left the converter of a port that is to carry it, its L still to come (R113, R135). -/
def Line.leadsIn (l : Line) (mode : Mode) (d p : Nat) : Bool :=
  outputsActive mode && l.carries mode p && (l.chan d).entries.any (fun e => e.2 == p) &&
    (l.launches d p).any fun t => decide (t - (l.port p).row 3 ≤ l.clock.tb ∧ l.clock.tb ≤ t)

/-- Whether a transmission that overlaps a channel has left the converter of its receive port and not yet reached its L (R135). -/
def Line.heldAhead (l : Line) (mode : Mode) (c : Nat) : Bool :=
  match (l.chan c).place with
  | none => false
  | some q => (List.range l.chans.length).any fun d => match (l.chan d).place with
    | some x => bandsOverlap (bandOf x.f x.rateK) (bandOf q.f q.rateK) && l.leadsIn mode d q.rxPort
    | none => false

end Sys2Proof.Machine
end

