-- ==== Sys2Proof/Machine/Numeric.lean ====
section
/-! DEFINITION. Arithmetic on measured values: square roots, angles, logarithms and the unit circle, in integers. Where a result is irrational it is
computed to 60 bits or more before it is rounded as R519 says (log 90). -/

namespace Sys2Proof

/-- The sum of two. -/
def Cx.add (a b : Cx) : Cx := ⟨a.re + b.re, a.im + b.im⟩
/-- The difference of two. -/
def Cx.sub (a b : Cx) : Cx := ⟨a.re - b.re, a.im - b.im⟩
/-- The product of two. -/
def Cx.mul (a b : Cx) : Cx := ⟨a.re * b.re - a.im * b.im, a.re * b.im + a.im * b.re⟩
/-- The conjugate. -/
def Cx.conj (a : Cx) : Cx := ⟨a.re, -a.im⟩
/-- An integer multiple. -/
def Cx.scale (k : Int) (a : Cx) : Cx := ⟨k * a.re, k * a.im⟩
/-- The squared magnitude. -/
def Cx.norm (a : Cx) : Nat := (a.re * a.re + a.im * a.im).toNat
/-- The sum of a list. -/
def Cx.sum (xs : List Cx) : Cx := xs.foldl Cx.add ⟨0, 0⟩
/-- Both parts divided, rounded down. -/
def Cx.shrink (k : Nat) (a : Cx) : Cx := ⟨a.re / k, a.im / k⟩

end Sys2Proof

namespace Sys2Proof.Machine

/-- The integer part of a square root, from bit `i - 1` down. -/
def isqrtFrom (n : Nat) : Nat → Nat → Nat
  | 0, r => r
  | i + 1, r => if (r + 2 ^ i) * (r + 2 ^ i) ≤ n then isqrtFrom n i (r + 2 ^ i) else isqrtFrom n i r

/-- The square root of a ratio rounded to nearest, ties to even (R519), for results below 2^32; at most 2^32 - 1. -/
def roundSqrt (num den : Nat) : Nat :=
  let q := isqrtFrom (num / den) 32 0
  let l := (2 * q + 1) * (2 * q + 1) * den
  if l < 4 * num then q + 1 else if l = 4 * num then q + q % 2 else q

/-- A complex number scaled to 64 bits, its direction kept. -/
def fitCx (a : Cx) : Cx :=
  let n := max a.re.natAbs a.im.natAbs
  if n < 2 ^ 64 then a.scale (2 ^ (63 - n.log2)) else a.shrink (2 ^ (n.log2 - 63))

/-- The first `n` bits of the angle of a direction as a fraction of a turn: a squaring doubles the angle. -/
def turnBits : Nat → Cx → Nat
  | 0, _ => 0
  | n + 1, a => (if a.im < 0 ∨ (a.im = 0 ∧ a.re < 0) then 2 ^ n else 0) + turnBits n (fitCx (a.mul a))

/-- The angle of a direction in angle steps (R51), rounded to nearest. -/
def turnAngle (a : Cx) : W16 := BitVec.ofNat 16 ((turnBits 17 (fitCx a) + 1) / 2)

/-- `n` fraction bits of the base-2 logarithm of a mantissa `m` in 2^63 to 2^64. -/
def log2Bits : Nat → Nat → Nat
  | 0, _ => 0
  | n + 1, m =>
    let s := m * m / 2 ^ 63
    if s < 2 ^ 64 then log2Bits n s else 2 ^ n + log2Bits n (s / 2)

/-- The base-2 logarithm of a positive ratio in 2^-40, cut off there. -/
def log2Ratio (num den : Nat) : Int :=
  let n := num * 2 ^ 128 / den
  let e : Nat := n.log2
  let m : Nat := if e < 63 then n * 2 ^ (63 - e) else n / 2 ^ (e - 63)
  (Int.ofNat e - 128) * 2 ^ 40 + Int.ofNat (log2Bits 40 m)

/-- A power with a large exponent. -/
def bigPow (x k : Nat) : Nat := (x ^ 256) ^ (k / 256) * x ^ (k % 256)

/-- Whether 10 log10 of a positive ratio is at least `h` 512ths of a decibel. -/
def dbAtLeast (num den : Nat) (h : Int) : Bool :=
  decide (bigPow den 5120 * bigPow 10 h.toNat ≤ bigPow num 5120 * bigPow 10 (-h).toNat)

/-- 10 log10 of a positive ratio as Q8.8, rounded to nearest (R248, R249, R519), not yet saturated: an estimate, then the exact value decides. It is no
tie, for no ratio has a logarithm that lies half way. -/
def dbQ88 (num den : Nat) : Int :=
  let n := roundDiv (log2Ratio num den * 13557185762996477) (2 ^ 84)
  if !dbAtLeast num den (2 * n - 1) then n - 1 else if dbAtLeast num den (2 * n + 1) then n + 1 else n

/-- The first point of the circle after 1, a 64th of a turn on, in 2^-62. -/
def unitStep : Cx := ⟨4589479489746651964, 452024275624069880⟩

/-- exp(2πj k / 64) in 2^-62. -/
def unitRoot : Nat → Cx
  | 0 => ⟨2 ^ 62, 0⟩
  | k + 1 => ((unitRoot k).mul unitStep).shrink (2 ^ 62)

/-! ## Rational values -/

/-- An integer complex number as a rational one. -/
def Cq.ofCx (a : Cx) : Cq := ⟨a.re, a.im⟩
/-- The sum of two. -/
def Cq.add (a b : Cq) : Cq := ⟨a.re + b.re, a.im + b.im⟩
/-- The difference of two. -/
def Cq.sub (a b : Cq) : Cq := ⟨a.re - b.re, a.im - b.im⟩
/-- The product of two. -/
def Cq.mul (a b : Cq) : Cq := ⟨a.re * b.re - a.im * b.im, a.re * b.im + a.im * b.re⟩
/-- The conjugate. -/
def Cq.conj (a : Cq) : Cq := ⟨a.re, -a.im⟩
/-- A rational multiple. -/
def Cq.scale (k : Rat) (a : Cq) : Cq := ⟨k * a.re, k * a.im⟩
/-- The squared magnitude. -/
def Cq.norm (a : Cq) : Rat := a.re * a.re + a.im * a.im
/-- The sum of a list. -/
def Cq.sum (xs : List Cq) : Cq := xs.foldl Cq.add ⟨0, 0⟩

/-- A point of the unit circle, `k` 64ths of a turn from 1. -/
def rootOf (k : Nat) : Cq := (Cq.ofCx (unitRoot k)).scale (1 / 2 ^ 62)

/-- The mean of rational values, where there are any. -/
def meanOf (xs : List Rat) : Option Rat := if xs.isEmpty then none else some (xs.sum / xs.length)

/-- 10 log10 of a ratio of rational values that are not negative as signed Q8.8 dB, saturated; 0x8000 where both are 0 (R250). -/
def ratioDb (a b : Rat) : W16 :=
  if a = 0 ∧ b = 0 then 0x8000 else if b = 0 then 0x7FFF else if a = 0 then 0x8001
  else BitVec.ofNat 16 (ofSigned 16 (max (-32767) (min 32767 (dbQ88 (a / b).num.toNat (a / b).den))))

/-- Whether a ratio of rational values that are not negative exceeds `half` half decibels (R210). -/
def exceedsDb (a b : Rat) (half : Nat) : Bool :=
  if b = 0 then decide (a ≠ 0) else if a = 0 then false
  else decide ((a / b).num.toNat ^ 20 > (a / b).den ^ 20 * bigPow 10 half)

/-- Whether a ratio of rational values and its inverse stay within `half` half decibels. -/
def withinDb (a b : Rat) (half : Nat) : Bool := !exceedsDb a b half && !exceedsDb b a half

/-- The direction of a rational complex number, in integers. -/
def Cq.direction (a : Cq) : Cx := ⟨a.re.num * a.im.den, a.im.num * a.re.den⟩

/-- The size of an angle in 2^-40 of a turn, at most half a turn. -/
def Cq.turn (a : Cq) : Nat :=
  let t := turnBits 40 (fitCx a.direction)
  min t (2 ^ 40 - t)

/-- A value rounded half to even (R519). -/
def roundRat (x : Rat) : Int := roundDiv x.num x.den

end Sys2Proof.Machine
end

