-- ==== Sys2Proof/Machine/Demod.lean ====
section
/-! DEFINITION. From received symbols to soft values (R200, R201, R208 to R212, R248, R249): the SYNC metric, gain and noise, washes, the demapper and
the measures of a frame. Every value is exact but for the constants of the unit circle and of the constellations (log 90). -/

namespace Sys2Proof.Machine

/-! ## SYNC -/

/-- SYNC symbol `m` (R147). -/
def syncSymbol (m : Nat) : Cq := rootOf (syncPhase m)

/-- The sum of received SYNC symbols times the conjugates of those sent (R201, R208). -/
def syncSum (r : List Cx) : Cq := Cq.sum (r.zipIdx.map fun p => (Cq.ofCx p.1).mul (syncSymbol p.2).conj)

/-- The square of the metric M (R201); 0 where nothing is received. -/
def syncSquare (r : List Cx) : Rat :=
  let p := (r.map Cx.norm).sum
  if p = 0 then 0 else (syncSum r).norm / (320 * p)

/-- The metric as it is reported: M in Q0.16, 0xFFFF for 1 (R201, R519). -/
def Lock.metric (k : Lock) : W16 :=
  let m := k.square * 2 ^ 32
  BitVec.ofNat 16 (min 65535 (roundSqrt m.num.toNat m.den))

/-- The SNR estimate of SYNC: that of a frame with fewer than three pilots (R171, R175, R248). -/
def Lock.snr (k : Lock) : W16 := ratioDb k.gain.norm k.noise

/-- How units `a` and `b` of a received SYNC correlate: positive where they are identical, negative where one is inverted (log 99). -/
def unitsAgree (r : List Cx) (a b : Nat) : Int :=
  (Cx.sum (List.zipWith (fun x y => x.mul y.conj) ((r.drop (32 * a)).take 32) ((r.drop (32 * b)).take 32))).re

/-- Two inverted units that follow at least four identical ones (R201). -/
def unitsFound (r : List Cx) : Bool :=
  [4, 5, 6].all (fun k => decide (unitsAgree r k (k + 1) > 0)) && decide (unitsAgree r 7 8 < 0) && decide (unitsAgree r 8 9 > 0)

/-- The initial gain G (R208). -/
def syncGain (r : List Cx) : Cq := (syncSum r).scale (1 / 320)

/-- The initial noise variance (R208). -/
def syncNoise (r : List Cx) : Rat :=
  let g := syncGain r
  (r.zipIdx.map fun p => ((Cq.ofCx p.1).sub (g.mul (syncSymbol p.2))).norm).sum / 320

/-- What SYNC gives of a frame (R201, R208). -/
def lockOf (y : SyncCand) : Lock :=
  { launch := y.launch, square := syncSquare y.sync, carrier := y.carrierMhz, gain := syncGain y.sync, noise := syncNoise y.sync }

/-! ## Received symbols -/

/-- The scaling K of a MOD (Table 5.5). -/
def scaleK (mod : Nat) : Rat := (isqrtFrom (2 ^ 124 / nth [1, 2, 10, 42, 170, 682] mod 1) 63 0 : Rat) / 2 ^ 62

/-- The points of a MOD with their bits (R161). -/
def points (mod : Nat) : List (Bits × Cq) :=
  (List.range (2 ^ symbolBits mod)).map fun v =>
    let bits := natBits (symbolBits mod) v
    (bits, Cq.scale (scaleK mod) ⟨(symbolOf bits).1, (symbolOf bits).2⟩)

/-- Received symbols as the tracker and the demapper see them: the data symbols and pilots of a frame in order, how many data symbols the frame and
its header have, its MOD, what SYNC gave, and which symbols are erased for their samples or the truncation. -/
structure Stream where
  syms : List Cx
  data : Nat
  head : Nat
  mod : Nat
  gain : Cq
  noise : Rat
  bad : Nat → Bool

/-- Symbol `m`, counted from SYNC symbol 0, where it was received and is not erased for its samples. -/
def Stream.sym (x : Stream) (m : Nat) : Option Cq :=
  if m < 320 ∨ x.bad m = true then none else (x.syms[m - 320]?).map Cq.ofCx

/-- The symbol index of pilot `i`: after data symbol 31i + 30, or after the last one (R162). -/
def Stream.pilotAt (x : Stream) (i : Nat) : Nat := 320 + min (31 * (i + 1)) x.data + i

/-- How many pilots the stream has. -/
def Stream.pilots (x : Stream) : Nat := ceilDiv x.data 31

/-- g_i of a pilot that is not erased (R208). -/
def Stream.g (x : Stream) (i : Nat) : Option Cq :=
  if i < x.pilots then (x.sym (x.pilotAt i)).map fun r => r.mul (rootOf (pilotPhase i)).conj else none

/-- The MOD of data symbol `d`: the header is BPSK (R160). -/
def Stream.modOf (x : Stream) (d : Nat) : Nat := if d < x.head then 0 else x.mod

/-- A wash as the tracker finds it: the interval in which it begins, the one in which the new state settles, and its KIND and steps in Q8.8 dB. -/
structure WashRun where
  first : Nat
  last : Option Nat
  kind : Nat
  noise : Int
  gain : Int

/-- Whether pilot `i` lies in a wash span: the pilot of the settling interval comes after it (R211). -/
def lost (ws : List WashRun) (i : Nat) : Bool := ws.any fun p => decide (p.first ≤ i) && (p.last.map fun j => decide (i < j)).getD true

/-- g_i of a pilot up to `lim` outside every span. -/
def Stream.seen (x : Stream) (ws : List WashRun) (lim i : Nat) : Option Cq := if i ≤ lim ∧ lost ws i = false then x.g i else none

/-- The smoothed gain of a pilot, a neighbour that is not there replaced (R208). -/
def Stream.smooth (x : Stream) (ws : List WashRun) (lim i : Nat) (g : Cq) : Cq :=
  let before := if i = 0 then g else (x.seen ws lim (i - 1)).getD g
  let after := (x.seen ws lim (i + 1)).getD g
  ((before.add (g.scale 2)).add after).scale (1 / 4)

/-- The first pilot of the region that data interval `k` lies in: that at which the last span before it settled; none from the frame's start. -/
def regionStart (ws : List WashRun) (k : Nat) : Option Nat :=
  (ws.filterMap fun p => p.last.filter fun j => decide (j < k)).foldl (fun b j => some (max (b.getD 0) j)) none

/-- The pilot before which the region of data interval `k` ends: that of the interval in which the next wash begins. -/
def regionEnd (ws : List WashRun) (k lim : Nat) : Nat :=
  (ws.filterMap fun p => if k < p.first then some p.first else none).foldl min (lim + 1)

/-- The smoothed gains of a region, by symbol; G stands at SYNC symbol 319 (R208). -/
def Stream.anchors (x : Stream) (ws : List WashRun) (lim k : Nat) : List (Nat × Cq) :=
  let a := regionStart ws k
  let pilots := (List.range (regionEnd ws k lim)).filter fun i => decide (a.getD 0 ≤ i)
  (if a.isNone then [(319, x.gain)] else []) ++
    pilots.filterMap fun i => (x.seen ws lim i).map fun g => (x.pilotAt i, x.smooth ws lim i g)

/-- The gain interpolated linearly by symbol position, and the nearest one beyond the ends. -/
def interpolate (anchors : List (Nat × Cq)) (m : Nat) : Option Cq :=
  match (anchors.filter fun a => decide (a.1 ≤ m)).getLast?, anchors.find? fun a => decide (m < a.1) with
  | some a, some b => some ((a.2.scale (((b.1 - m : Nat) : Rat) / (b.1 - a.1 : Nat))).add (b.2.scale (((m - a.1 : Nat) : Rat) / (b.1 - a.1 : Nat))))
  | some a, none => some a.2
  | none, some b => some b.2
  | none, none => none

/-- The squared distance from a symbol to the nearest point (R210): that of the hard decision. -/
def missOf (mod : Nat) (y g : Cq) : Rat :=
  match (points mod).map fun p => (y.sub (g.mul p.2)).norm with
  | [] => 0
  | a :: r => r.foldl min a

/-- The data symbols of pilot interval `k` (R210). -/
def Stream.interval (x : Stream) (k : Nat) : List Nat := (List.range 31).map (31 * k + ·) |>.filter fun d => decide (d < x.data)

/-- The noise n_k of an interval under given gains: over its data symbols that are not erased (R210). -/
def Stream.noiseIn (x : Stream) (anchors : List (Nat × Cq)) (k : Nat) : Option Rat :=
  meanOf ((x.interval k).filterMap fun d =>
    match x.sym (symbolIndex d), interpolate anchors (symbolIndex d) with
    | some y, some g => some (missOf (x.modOf d) y g)
    | _, _ => none)

/-- The noise of an interval as pilot `k` arrives: the next pilot is still absent (log 98). -/
def Stream.noiseAt (x : Stream) (ws : List WashRun) (k : Nat) : Option Rat := x.noiseIn (x.anchors ws k k) k

/-- The noise of an interval inside a span, between its two pilots (log 98). -/
def Stream.noiseBetween (x : Stream) (k : Nat) : Option Rat :=
  x.noiseIn ((List.range 2).filterMap fun e => (x.g (k - 1 + e)).map fun g => (x.pilotAt (k - 1 + e), g)) k

/-! ## Washes -/

/-- The three thresholds of a channel: WASH_NOISE and WASH_GAIN in half decibels, WASH_PHASE in degrees (Table 7.1). -/
structure WashSet where
  noise : Nat
  gain : Nat
  phase : Nat

/-- Whether the phase of a pilot step exceeds `half` half degrees. The received symbols are corrected by the carrier-offset estimate, so the
predicted rotation is none (R210). -/
def phaseExceeds (a b : Cq) (half : Nat) : Bool := decide ((a.mul b.conj).turn * 720 > half * 2 ^ 40)

/-- The KIND of a wash at interval `k`: which of the three conditions of R210 hold (Table 7.10). With pilot `k` or the one before it erased the conditions
on gain and phase do not hold, nor does that on noise with no unerased data symbol (DESIGN CHOICE, log 124). -/
def Stream.kindAt (x : Stream) (t : WashSet) (ref : Rat) (n : Option Rat) (k : Nat) : Nat :=
  b2n ((n.map fun v => exceedsDb v ref t.noise).getD false) +
    match x.g k, x.g (k - 1) with
    | some a, some b => 2 * b2n (!withinDb a.norm b.norm t.gain) + 4 * b2n (phaseExceeds a b (2 * t.phase))
    | _, _ => 0

/-- Whether intervals `k - 1` and `k` agree within half of each threshold (R211). Without the pilot or an unerased data symbol of either they do not
(DESIGN CHOICE, log 125). -/
def Stream.settles (x : Stream) (t : WashSet) (n0 n1 : Option Rat) (k : Nat) : Bool :=
  match n0, n1, x.g k, x.g (k - 1) with
  | some u, some v, some a, some b =>
    !exceedsDb (v * v) (u * u) t.noise && !exceedsDb (u * u) (v * v) t.noise && withinDb (a.norm * a.norm) (b.norm * b.norm) t.gain &&
      !phaseExceeds a b t.phase
  | _, _, _, _ => false

/-- A signed Q8.8 value from its word. -/
def signed16 (v : W16) : Int := v.toInt

/-- The tracker after one more interval: the spans so far, the last perhaps still to settle, and the reference noise (R210, R211). -/
def Stream.track (x : Stream) (t : WashSet) (st : List WashRun × Rat) (k : Nat) : List WashRun × Rat :=
  let (ws, ref) := st
  match ws.find? fun p => p.last.isNone with
  | some p =>
    let n0 := x.noiseBetween (k - 1)
    let n1 := x.noiseBetween k
    if x.settles t n0 n1 k then
      (ws.map fun q => if q.last.isNone then { p with last := some k } else q, ((n0.getD 0) + n1.getD 0) / 2)
    else st
  | none =>
    let n := x.noiseAt ws k
    let kind := x.kindAt t ref n k
    if kind = 0 then st
    else
      let gain := match x.g k, x.g (k - 1) with | some a, some b => signed16 (ratioDb a.norm b.norm) | _, _ => 0
      (ws ++ [{ first := k, last := none, kind := kind, noise := signed16 (ratioDb (n.getD 0) ref), gain := gain }], ref)

/-- The washes of a stream so far, from pilot 1 on (R210): the intervals whose pilot has been received are judged. -/
def Stream.washes (x : Stream) (t : WashSet) : List WashRun :=
  let seen := (List.range x.pilots).filter fun k => decide (1 ≤ k) && decide (x.pilotAt k - 320 < x.syms.length)
  (seen.foldl (x.track t) ([], x.noise)).1

/-! ## Soft values -/

/-- The last pilot of a stream. -/
def Stream.lim (x : Stream) : Nat := x.pilots - 1

/-- The gain of data symbol `d` (R208). -/
def Stream.gainAt (x : Stream) (ws : List WashRun) (d : Nat) : Option Cq := interpolate (x.anchors ws x.lim (d / 31)) (symbolIndex d)

/-- Whether data symbol `d` lies in a wash span. -/
def washed (ws : List WashRun) (d : Nat) : Bool := ws.any fun p => decide (p.first ≤ d / 31) && (p.last.map fun j => decide (d / 31 ≤ j)).getD true

/-- The noise variance for data symbol `d`: the mean over the pilot intervals of its region up to its own (R209; log 98), or that of SYNC where
none of them has an unerased symbol. -/
def Stream.variance (x : Stream) (ws : List WashRun) (d : Nat) : Rat :=
  let k := d / 31
  let from_ := (regionStart ws k).map (· + 1)
  let ks := (List.range (k + 1)).filter fun i => decide (from_.getD 0 ≤ i)
  (meanOf (ks.filterMap fun i => x.noiseIn (x.anchors ws x.lim i) i)).getD x.noise

/-- A quotient that a divisor of 0 leaves undivided (log 98). -/
def perNoise (a b : Rat) : Rat := if b = 0 then a else a / b

/-- The least squared distance from a symbol to a point whose bit `b` is `v` (R209). -/
def nearest (mod : Nat) (y g : Cq) (b : Nat) (v : Bool) : Rat :=
  match ((points mod).filter fun p => p.1.getD b false == v).map fun p => (y.sub (g.mul p.2)).norm with
  | [] => 0
  | a :: r => r.foldl min a

/-- The soft value of bit `b` of data symbol `d` (R209): a positive one favours 0, an erased symbol gives 0. -/
def Stream.llr (x : Stream) (ws : List WashRun) (d b : Nat) : Rat :=
  if washed ws d then 0
  else match x.sym (symbolIndex d), x.gainAt ws d with
    | some y, some g => perNoise (nearest (x.modOf d) y g b true - nearest (x.modOf d) y g b false) (x.variance ws d)
    | _, _ => 0

/-- Whether data symbol `d` is erased (R200, R211). -/
def Stream.erased (x : Stream) (ws : List WashRun) (d : Nat) : Bool := washed ws d || (x.sym (symbolIndex d)).isNone

/-- The inverse of 73 modulo the length of a codeword, or of the 352 sent bits of a header. -/
def inverse73 (n : Nat) : Nat := if n = 352 then 217 else 505

/-- The stream position in its part at which bit `b` of codeword `j` of `c` words of `n` bits is sent: 73u + 17j is b modulo n there (R157). -/
def bitPlace (c n j b : Nat) : Nat := c * ((b + (n - 17 * j % n)) * inverse73 n % n) + j

/-- The data symbol and the bit in it at which copy `r` of a bit at `place` of `len` positions travels (R158 to R160). -/
def Stream.spot (x : Stream) (header : Bool) (len place r : Nat) : Nat × Nat :=
  let q := if header then 1 else symbolBits x.mod
  let pos := r * len + place
  ((if header then 0 else x.head) + pos / q, pos % q)

/-- The soft value of a sent bit: the sum over its copies (R209). -/
def Stream.soft (x : Stream) (ws : List WashRun) (header : Bool) (reps len place : Nat) : Rat :=
  ((List.range reps).map fun r => let p := x.spot header len place r; x.llr ws p.1 p.2).sum

/-- The decoder's input for the header codeword (R151, R189). -/
def Stream.headerSoft (x : Stream) (ws : List WashRun) (reps : Nat) : List Soft :=
  (List.range 576).map fun b =>
    if 64 ≤ b ∧ b < 288 then .known else .value (x.soft ws true reps 352 (bitPlace 1 352 0 (if b < 64 then b else b - 224)))

/-- The decoder's input for payload codeword `j` of `c` words of `n` bits, of which those from `fill` on up to `k` are fill (R185, R189). -/
def Stream.wordSoft (x : Stream) (ws : List WashRun) (reps c n k fill j : Nat) : List Soft :=
  (List.range n).map fun b =>
    if fill ≤ b ∧ b < k then .known else .value (x.soft ws false reps (c * n) (bitPlace c n j b))

/-! ## Measures -/

/-- The EVM over data symbols in Q8.8 dB (R249). -/
def Stream.evm (x : Stream) (ws : List WashRun) (ds : List Nat) : W16 :=
  let parts := ds.filterMap fun d =>
    if washed ws d then none
    else match x.sym (symbolIndex d), x.gainAt ws d with
      | some y, some g => some (missOf (x.modOf d) y g, g.norm)
      | _, _ => none
  if parts.isEmpty then 0x8000 else ratioDb (parts.map (·.1)).sum (parts.map (·.2)).sum

/-- The SNR estimate in Q8.8 dB (R248). -/
def Stream.snr (x : Stream) (ws : List WashRun) : W16 :=
  let triple (i : Nat) : Option (Rat × Rat) :=
    if i = 0 then none
    else match x.seen ws x.lim (i - 1), x.seen ws x.lim i, x.seen ws x.lim (i + 1) with
      | some _, some g, some _ => let s := x.smooth ws x.lim i g; some (s.norm, (g.sub s).norm)
      | _, _, _ => none
  let parts := (List.range x.pilots).filterMap triple
  if parts.length < 3 then ratioDb x.gain.norm x.noise else ratioDb (parts.map (·.1)).sum ((8 / 3 : Rat) * (parts.map (·.2)).sum)

/-- The mean power of the received data symbols and pilots that are not erased, relative to port full scale (Table 7.6; log 98). -/
def Stream.power (x : Stream) (ws : List WashRun) : W16 :=
  let data := (List.range x.data).filterMap fun d => if washed ws d then none else x.sym (symbolIndex d)
  let pilots := (List.range x.pilots).filterMap fun i => if lost ws i then none else x.sym (x.pilotAt i)
  match meanOf ((data ++ pilots).map Cq.norm) with
  | none => 0x8000
  | some p => ratioDb p (2 ^ 40)

/-- The data symbols that carry a bit of codeword `j`, each once (R249). -/
def Stream.carriers (x : Stream) (reps c n j : Nat) : List Nat :=
  ((List.range n).flatMap fun b => (List.range reps).map fun r => (x.spot false (c * n) (bitPlace c n j b) r).1).dedup

/-- How many sent copies of the bits of codeword `j` lie in erased symbols (Table 7.7). -/
def Stream.lostCopies (x : Stream) (ws : List WashRun) (reps c n j : Nat) : Nat :=
  (((List.range n).flatMap fun b => (List.range reps).map fun r => (x.spot false (c * n) (bitPlace c n j b) r).1).filter (x.erased ws)).length

end Sys2Proof.Machine
end

