-- ==== Sys2Proof/Machine/Signal.lean ====
section
/-! DEFINITION. The transmitted signal of a port (R111, R142 to R144, R161, R235, R241): the symbols, the reference pulse, the carrier phase, the fade of an
ending, the sum of a port's channels and its clipper, and the clip samples. Every value is exact but for the constants of the unit circle, of the
constellations, of the levels and of pi (log 90). -/

namespace Sys2Proof.Machine

/-! ## Functions of an angle -/

/-- exp(2πj / 2^n) in 2^-62, by halving the angle. -/
def halfRoot : Nat → Cx
  | 0 => ⟨2 ^ 62, 0⟩
  | 1 => ⟨-2 ^ 62, 0⟩
  | 2 => ⟨0, 2 ^ 62⟩
  | n + 1 =>
    let a := halfRoot n
    let c : Int := isqrtFrom ((2 ^ 62 + a.re) * 2 ^ 61).toNat 63 0
    ⟨c, a.im * 2 ^ 61 / c⟩

/-- exp(2πjx) in 2^-62 for an angle of `x` 2^-40 of a turn. -/
def turnOf (x : Nat) : Cx :=
  (List.range 40).foldl (fun a i => if x.testBit (39 - i) then (a.mul (halfRoot (i + 1))).shrink (2 ^ 62) else a) ⟨2 ^ 62, 0⟩

/-- exp(2πjx) for an angle of `x` turns. -/
def expTurn (x : Rat) : Cq := (Cq.ofCx (turnOf ((x * 2 ^ 40).floor % 2 ^ 40).toNat)).scale (1 / 2 ^ 62)

/-- The ratio of a circle's length to its diameter. -/
def piRat : Rat := 3622009729038561421 / 2 ^ 60

/-! ## The pulse -/

/-- The root-raised-cosine response with roll-off 0.25 at `x` symbol periods, 1 at 0 (R143). -/
def rrc (x : Rat) : Rat :=
  if x = 0 then 1
  else
    let edge := if x = 1 ∨ x = -1 then (1 - 2 / piRat) * -(expTurn (1 / 8)).re / 4
      else ((expTurn (3 * x / 8)).im + x * (expTurn (5 * x / 8)).re) / (piRat * x * (1 - x * x))
    edge / (3 / 4 + 1 / piRat)

/-- The reference pulse at `x` symbol periods from its peak (R143). -/
def pulse (x : Rat) : Rat :=
  if x < -8 ∨ 8 < x then 0 else rrc x * (42 / 100 + (expTurn (x / 16)).re / 2 + 8 / 100 * (expTurn (x / 8)).re)

/-! ## The symbols -/

/-- A data symbol as it is sent (R161). -/
def sentPoint (mod : Nat) (a : Int × Int) : Cq := Cq.scale (scaleK mod) ⟨a.1, a.2⟩

/-- Symbol `m` of a frame, counted from SYNC symbol 0 (R140, R147, R160 to R163). -/
def OnAir.symbol (o : OnAir) (m : Nat) : Cq :=
  if m < 320 then syncSymbol m
  else if (m - 320) % 32 = 31 ∨ m + 1 = o.symbols then rootOf (pilotPhase ((m - 320) / 32))
  else
    let d := 31 * ((m - 320) / 32) + (m - 320) % 32
    let head := 352 * repeats (hdrMod o.hdr)
    let q := symbolBits (hdrMod o.hdr)
    let parts := frameStream o.hdr o.bytes
    if d < head then sentPoint 0 (dataSymbol 1 parts.1 d) else sentPoint (hdrMod o.hdr) (dataSymbol q parts.2 (d - head))

/-! ## The carrier -/

/-- The carrier phase of a frame in turns at an instant whose NCO count is `nco` (R144): that of L, and F times what the factor 1 + c has gained since. -/
def OnAir.theta (o : OnAir) (nco : Nat) : Rat :=
  ((carrierPhase o.f o.launch).toNat : Rat) / 2 ^ 32 + (o.f.toNat : Rat) * ((nco - o.nco : Nat) : Rat) / 2 ^ 64

/-- The level A of an entry: `level` quarter decibels below a full-scale sine (R144, R235). -/
def TxEntry.amplitude (e : TxEntry) : Rat := (4480843039401383626 / 2 ^ 62) ^ e.level

/-- What is left of an entry's contribution at timebase instant `t` at the reference plane: all of it until its ending begins, then a raised cosine from 1
to 0 over 750 ticks, then nothing (R241). -/
def TxEntry.fade (e : TxEntry) (t : Tick) : Rat :=
  match e.ended with
  | none => 1
  | some (begun, _) =>
    let x := t - e.trim - begun
    if x ≤ 0 then 1 else if 750 ≤ x then 0 else (1 + (expTurn ((x : Rat) / 1500)).re) / 2

/-- y(t) of a port-set entry at timebase instant `t`, the NCO count then being `nco`, relative to the port's full scale (R144), as its ending leaves it
(R241). -/
def OnAir.signal (o : OnAir) (e : TxEntry) (nco : Nat) (t : Tick) : Rat :=
  let ts := symbolTicks o.rateK
  let sum := Cq.sum ((List.range o.symbols).map fun m => (o.symbol m).scale (pulse (((t - (o.launch + (m + 8) * ts : Tick)) : Rat) / ts)))
  e.fade t * e.amplitude * ((expTurn (o.theta nco)).mul sum).re

/-! ## The transmit chain of a port -/

/-- The NCO count at a timebase instant, no step lying between it and the present: both turn by 1 + c (R39). -/
def Clock.ncoAt (k : Clock) (t : Tick) : Nat := ((k.nco : Int) + (t - k.tb) * 2 ^ 32 - k.frac).toNat

/-- The sum of every channel that transmits on a port in the sample that leaves its converter at an instant, relative to full scale (R111): each frame
reaches the reference plane TX_TRIM later (R113). -/
def Line.portSum (l : Line) (p : Nat) (t : Tick) : Rat :=
  (l.chans.flatMap fun x => match x.onAir with
    | some o => (o.entries.filter fun e => e.port == p && e.started).map fun e => o.signal e (l.clock.ncoAt (t + e.trim)) (t + e.trim)
    | none => []).sum

/-- A sample of a port's sum in steps of a 16-bit converter of full scale 32,768, unlimited. -/
def Line.rawSample (l : Line) (p : Nat) (t : Tick) : Int := roundRat (l.portSum p t * 32768)

/-- The sample as the clipper leaves it, limited to the 16-bit range (R111). The mask filter of the port, whose response the specification does not give, and
the attenuator follow. -/
def Line.clippedSample (l : Line) (p : Nat) (t : Tick) : Int := max (-32768) (min 32767 (l.rawSample p t))

/-- Whether the clipper limits the sample of a port at an instant (R111). -/
def Line.limits (l : Line) (p : Nat) (t : Tick) : Bool := l.clippedSample p t != l.rawSample p t

/-- The factor of TX_ATT, 0.25 dB a step (R111). -/
def Port.attenuation (q : Port) : Rat := (4480843039401383626 / 2 ^ 62) ^ q.row 2

/-! ## Clip samples -/

/-- A clip sample is counted and kept for the stroke's event. A receive one marks the channel samples derived from it (R110): those of its own instant, for
the specification gives the channel filter no spread (log 121). A transmit one is a sample that the clipper has limited, and belongs to the frames on air
on the port (R111, R236). -/
def Line.noteClip (l : Line) (x : ClipSample) : Line :=
  let q := l.port x.port
  let sends (o : OnAir) : Bool := o.entries.any fun e => e.port == x.port && e.started && !e.complete &&
    decide (o.launch - e.trim ≤ x.at_ ∧ x.at_ < o.endAt - e.trim)
  let flag (o : OnAir) : OnAir := { o with clip := o.clip || sends o }
  let ok := q.on && decide (x.at_ ≤ l.clock.tb) && !q.clips.contains x && (!x.tx || ((l.chans.any fun c => (c.onAir.map sends).getD false) && l.limits x.port x.at_))
  if !ok then l
  else
    let l := l.modPort x.port fun q =>
      { q with clips := q.clips ++ [x], ctrs := countAt (if x.tx then 1 else 0) 32 1 q.ctrs,
               markEnd := if x.tx then q.markEnd else max q.markEnd x.at_ }
    if x.tx then { l with chans := l.chans.map fun (c : Chan) => { c with onAir := c.onAir.map flag } }
    else { l with chans := l.chans.map fun (c : Chan) => if c.rxPort = some x.port then c.mark x.at_ x.at_ else c }

/-- Clip samples as a command reports them (log 92). -/
def Line.noteClips (xs : List ClipSample) (l : Line) : Line := xs.foldl Line.noteClip l

end Sys2Proof.Machine
end

