-- ==== Sys2Proof/Machine/Decoder.lean ====
section
/-! DEFINITION. Received frames between the tracker and the decoder array: erasures (R200), washes (R210 to R212), and the codewords that the array
holds, serves and ends (R188 to R194), and the records of a frame (R222 to R225). -/

namespace Sys2Proof.Machine

/-! ## Frames of a channel -/

/-- Widths of Table 7.11, RX_FRAME_ID left out. -/
def rxWidths : List Nat := [32, 32, 32, 32, 16, 16, 32, 32, 32, 32, 32, 16, 16, 32, 32, 32, 32]

/-- Counter `i` of Table 7.11 of a channel. -/
def Chan.countRx (i k : Nat) (x : Chan) : Chan := { x with ctrs7 := countAt i (nth rxWidths i 32) k x.ctrs7 }

/-- A committed frame cut off by a change of placement at `t` (R207): every later symbol is erased. -/
def RxFrame.truncate (t : Tick) (x : RxFrame) : RxFrame :=
  if x.endAt ≤ t then x else { x with trunc := some t, endAt := t }

/-- A frame changed. -/
def Line.modFrame (c : Nat) (r : W16) (g : RxFrame → RxFrame) (l : Line) : Line :=
  l.modChan c fun x => { x with frames := x.frames.map fun f => if f.rxId = r then g f else f }

/-- The frame of an RX_FRAME_ID. -/
def Line.frame? (l : Line) (c : Nat) (r : W16) : Option RxFrame := (l.chan c).frames.find? fun f => f.rxId == r

/-- Symbols N of a frame. -/
def RxFrame.total (f : RxFrame) : Nat := frameSymbols (hdrMod f.hdr) (hdrRate f.hdr) (hdrLift f.hdr) (hdrLen f.hdr)

/-- The data symbols of a frame. -/
def RxFrame.data (f : RxFrame) : Nat := dataSymbols (hdrMod f.hdr) (hdrRate f.hdr) (hdrLift f.hdr) (hdrLen f.hdr)

/-- The pulse peak of a data symbol of a frame (R142, R162). -/
def RxFrame.peak (f : RxFrame) (d : Nat) : Tick := pulsePeak f.launch f.rateK (symbolIndex d)

/-- C of a frame. -/
def RxFrame.count (f : RxFrame) : Nat := f.cws.length

/-- How many data symbols and pilots of a frame that launched at `launch` at the port have been received: those whose pulse peak has come (R142). A frame
that is cut off keeps every symbol before the cut (R207). -/
def receivedBy (rateK : Nat) (launch now : Tick) : Nat := ((now - launch) / (symbolTicks rateK : Nat)).toNat - 327

/-! ## Erasures -/

/-- The intervals of marked samples of a channel, the hold in progress among them. -/
def Chan.marked (now : Tick) (x : Chan) : List (Tick × Tick) := x.marks ++ (x.holdFrom.map fun a => (a, x.holdUntil.getD now)).toList

/-- Whether a sample within half a symbol of the pulse peak of symbol `m` is marked (R200): both are instants at the port. -/
def markedAt (rateK : Nat) (launch : Tick) (marks : List (Tick × Tick)) (m : Nat) : Bool :=
  let t := pulsePeak launch rateK m
  let half : Tick := (symbolTicks rateK / 2 : Nat)
  marks.any fun p => decide (p.1 ≤ t + half) && decide (t - half ≤ p.2)

/-- Whether symbol `m` of a frame is erased for its samples or the truncation (R200, R207). The instant of the change is compared with the frame's
own instants, RX_TRIM removed, as the record gives them (log 107). -/
def RxFrame.bad (f : RxFrame) (marks : List (Tick × Tick)) (m : Nat) : Bool :=
  f.trunc.any (fun c => decide (c ≤ pulsePeak f.launch f.rateK m)) || markedAt f.rateK f.lock.launch marks m

/-- A frame as the tracker and the demapper see it. -/
def RxFrame.stream (f : RxFrame) (marks : List (Tick × Tick)) : Stream :=
  { syms := f.syms, data := f.data, head := 352 * f.rep, mod := hdrMod f.hdr, gain := f.lock.gain, noise := f.lock.noise, bad := f.bad marks }

/-- Whether symbol `m` of a frame is erased: also in a wash span (R200, R211), or where nothing was received of it. -/
def RxFrame.erases (f : RxFrame) (marks : List (Tick × Tick)) (m : Nat) : Bool :=
  f.bad marks m || decide (f.syms.length ≤ m - 320) || f.spans.any fun p => decide (symbolIndex p.first ≤ m) && (p.rest || decide (m ≤ symbolIndex p.last))

/-- The erased symbols of a frame, SYNC left out (R200). -/
def RxFrame.erasedCount (f : RxFrame) (marks : List (Tick × Tick)) : Nat :=
  ((List.range f.total).filter fun m => decide (320 ≤ m) && f.erases marks m).length

/-! ## Washes -/

/-- The wash thresholds of settings, where WASH_ENABLE is 1 (Table 7.1). -/
def washSet (cfg : List Nat) : Option WashSet :=
  if nth cfg 8 0 = 1 then some { noise := nth cfg 9 0, gain := nth cfg 10 0, phase := nth cfg 11 0 } else none

/-- The washes of a stream under settings. -/
def Stream.found (x : Stream) (cfg : List Nat) : List WashRun := ((washSet cfg).map x.washes).getD []

/-- The span of a wash in data symbols (R211). -/
def RxFrame.spanOf (f : RxFrame) (p : WashRun) (told : Bool) : WashSpan :=
  { first := 31 * p.first, last := (p.last.map fun j => min (f.data - 1) (31 * j + 30)).getD (f.data - 1), rest := p.last.isNone, kind := p.kind,
    noise := p.noise, gain := p.gain, told := told }

/-- The washes of a frame by the symbols received so far: each is counted, and the first 8 have an event to come (R210 to R212). -/
def Line.trackFrame (c : Nat) (r : W16) (l : Line) : Line :=
  match l.frame? c r with
  | none => l
  | some f =>
    let runs := (f.stream ((l.chan c).marked l.clock.tb)).found f.cfg
    let spans := runs.zipIdx.map fun p => f.spanOf p.1 (((f.spans[p.2]?).map (·.told)).getD (decide (8 ≤ p.2)))
    let fresh := runs.length - f.spans.length
    (l.modChan c (Chan.countRx 14 fresh)).modFrame c r fun f => { f with spans := spans, washes := min 65535 (f.washes + fresh) }

/-- The WASH event of a span (R212, Table 7.10). -/
def Line.washEvent (c : Nat) (f : RxFrame) (p : WashSpan) (l : Line) : Line :=
  let t := f.peak p.first
  let q (v : Int) := BitVec.ofNat 16 (ofSigned 16 v)
  l.chanNote t c 0x051 ([w c, w f.port, f.rxId, w p.kind, q p.noise, q p.gain] ++ tickWords t ++ [l.localPhase f.port t]
    ++ wordsOf 2 (l.strokeOffset f.port t).1.toNat ++ wordsOf 2 p.first ++ wordsOf 2 (p.last + 1 - p.first))

/-- The events of the spans that are over go out, in order: of those that have settled, or at the frame's end of all (R212). -/
def Line.tellWashes (c : Nat) (r : W16) (atEnd : Bool) (l : Line) : Line :=
  match l.frame? c r with
  | none => l
  | some f =>
    let l := (f.spans.filter fun p => !p.told && (atEnd || !p.rest)).foldl (fun l p => l.washEvent c f p) l
    l.modFrame c r fun f => { f with spans := f.spans.map fun p => if atEnd || !p.rest then { p with told := true } else p }

/-- Symbols of a frame are received (R208): its washes follow. -/
def Line.receive (c : Nat) (r : W16) (xs : List Cx) (l : Line) : Line :=
  let keep (f : RxFrame) := min (f.total - 320) (receivedBy f.rateK f.lock.launch l.clock.tb)
  (l.modFrame c r fun f => { f with syms := (f.syms ++ xs).take (keep f) }).trackFrame c r

/-! ## The decoder array -/

/-- The class of a frame's codewords (R192). -/
def RxFrame.cls (f : RxFrame) : Nat := if hdrType f.hdr = 0 then 3 else 2

/-- The payload codewords of a frame as the array takes them in (R189, R209). -/
def RxFrame.jobs (c : Nat) (marks : List (Tick × Tick)) (f : RxFrame) : List Job :=
  let x := f.stream marks
  let ws := x.found f.cfg
  let k := infoBits (hdrRate f.hdr) (hdrLift f.hdr)
  (List.range f.count).map fun j =>
    { chan := c, rxId := f.rxId, index := j, cls := f.cls, endAt := f.endAt,
      soft := x.wordSoft ws f.rep f.count (codeBits (hdrLift f.hdr)) k (payloadBits (hdrLen f.hdr) - j * k) j, engine := false }

/-- The order within a class: earliest frame end, then channel, then codeword (R192). -/
def Job.upTo (a b : Job) : Bool :=
  decide (a.endAt < b.endAt ∨ (a.endAt = b.endAt ∧ (a.chan < b.chan ∨ (a.chan = b.chan ∧ a.index ≤ b.index))))

/-- The instant at which the header of a candidate is complete under a hypothesis (R204). -/
def headerAt (rateK : Nat) (launch : Tick) (r : Nat) : Tick := launch + (headerDone r * symbolTicks rateK : Nat)

/-- The header codeword of context `i` of a channel, where it is complete (R204). -/
def Chan.headerWord (now : Tick) (c i : Nat) (x : Chan) : Option HeaderWord :=
  match nth x.ctx i none with
  | some (.cand k _ (r :: _) syms _) =>
    if headerAt x.rateK k.launch r ≤ now then
      some { chan := c, ctx := i, at_ := headerAt x.rateK k.launch r, rep := r, lock := k, rateK := x.rateK, syms := syms, marks := x.marked now, cfg := x.cfg }
    else none
  | _ => none

/-- The header codewords of a channel's contexts. -/
def Chan.headerWords (now : Tick) (c : Nat) (x : Chan) : List HeaderWord := (List.range x.ctx.length).filterMap fun i => x.headerWord now c i

/-- The header codewords in the array: those of the candidates, and those whose context has been freed since (R192, R194). -/
def Line.headersHeld (l : Line) : List HeaderWord := l.headers ++ l.chans.zipIdx.flatMap fun p => p.1.headerWords l.clock.tb p.2

/-- How many header codewords the array holds. -/
def Line.headersIn (l : Line) : Nat := l.headersHeld.length

/-- The order of header codewords (R192): the end of a frame whose header is not read yet is unknown, and that of the header stands for it (log 126); then
channel, then context. -/
def HeaderWord.before (a b : HeaderWord) : Bool :=
  decide (a.at_ < b.at_ ∨ (a.at_ = b.at_ ∧ (a.chan < b.chan ∨ (a.chan = b.chan ∧ a.ctx < b.ctx))))

/-- Whether a header codeword has one of the 24 engines (R192). -/
def Line.headerServed (l : Line) (h : HeaderWord) : Bool := decide ((l.headersHeld.filter fun a => a.before h).length < 24)

/-- The header codeword of a context that is freed stays in the array (R194). -/
def Line.keepHeader (c i : Nat) (l : Line) : Line := { l with headers := l.headers ++ ((l.chan c).headerWord l.clock.tb c i).toList }

/-- Those of every context of a channel. -/
def Line.keepHeaders (c : Nat) (l : Line) : Line := { l with headers := l.headers ++ (l.chan c).headerWords l.clock.tb c }

/-- Those of every channel. -/
def Line.keepAllHeaders (l : Line) : Line := { l with headers := l.headersHeld }

/-- Engines that payload codewords may have: 24, but engines 22 and 23 while a header codeword waits, and none that one needs (R192). -/
def Line.engines (l : Line) : Nat := if l.headersIn = 0 then 24 else 24 - max 2 l.headersIn

/-- The engines are given to the codewords that the array holds: by class, to those that are on one before those that wait, in the order of a class
(R192). -/
def Line.assign (l : Line) : Line :=
  let take (cls : Nat) (on : Bool) : List Job := (l.jobs.filter fun j => decide (j.cls = cls) && j.engine == on).insertionSort fun a b => a.upTo b
  let order := take 2 true ++ take 2 false ++ take 3 true ++ take 3 false
  { l with jobs := order.zipIdx.map fun p => { p.1 with engine := decide (p.2 < l.engines) } }

/-- A frame has been received to its end or its truncation: its washes are told, its measures taken (R200, R248, R249), and its codewords go to the
decoder array. -/
def Line.queueFrame (c : Nat) (r : W16) (l : Line) : Line :=
  let l := (l.trackFrame c r).tellWashes c r true
  match l.frame? c r with
  | none => l
  | some f =>
    let marks := (l.chan c).marked l.clock.tb
    let x := f.stream marks
    let ws := x.found f.cfg
    let ds := (List.range f.data).filter fun d => decide (352 * f.rep ≤ d)
    let l := l.modFrame c r fun f =>
      { f with snr := x.snr ws, evm := x.evm ws ds, power := x.power ws, erased := f.erasedCount marks }
    { l with jobs := l.jobs ++ f.jobs c marks }.assign

/-! ## Decoding -/

/-- A codeword's hard decisions with its known bits at 0, which the decoder never changes (R189). -/
def heldBits (soft : List Soft) (bits : Bits) : Bits :=
  List.zipWith (fun s b => match s with | .known => false | .value _ => b) soft (bits ++ List.replicate (soft.length - bits.length) false)

/-- How many parity checks hard decisions leave unsatisfied (R176, R190). -/
def badChecks (rate lift : Nat) (bits : Bits) : Nat :=
  let z := liftSize lift
  let blocks := bitBlocks z 24 bits
  ((baseMatrix rate).map fun row => ((rowSum z blocks row).filter id).length).sum

/-- Whether the number of unsatisfied checks has not fallen in the last 6 iterations; the latest number comes first (R190; log 108). -/
def stalled : List Nat → Bool
  | us => decide (7 ≤ us.length) && (List.range 6).all fun i => decide (nth us (i + 1) 0 ≤ nth us i 0)

/-- How a codeword ends by the hard decisions at the end of each iteration (R190): its bits, its status and its iterations; none while it goes on.
`k` numbers the next iteration, `us` holds the unsatisfied checks of those before. -/
def decodeFrom (rate lift : Nat) (soft : List Soft) (most : Nat) (stall : Bool) : Nat → List Nat → List Bits → Option (Bits × Nat × Nat)
  | _, _, [] => none
  | k, us, b :: r =>
    let b := heldBits soft b
    let u := badChecks rate lift b
    if u = 0 then some (b, 0, k)
    else if stall && decide (8 ≤ k) && stalled (u :: us) then some (b, 2, k)
    else if k ≥ most then some (b, 1, k)
    else decodeFrom rate lift soft most stall (k + 1) (u :: us) r

/-- The bound of R193 for a frame's codewords. -/
def RxFrame.decodeBy (f : RxFrame) : Tick :=
  if f.cls = 2 then f.endAt + 600000 else f.endAt + (f.endAt - f.launch) + 3000000

/-- The ticks of `n` iterations of a codeword of a frame (log 83). -/
def RxFrame.iterTicks (f : RxFrame) (n : Nat) : Tick := (ceilDiv (25 * n * codeBits (hdrLift f.hdr)) 128 : Nat)

/-- Whether one more iteration of a codeword would break a bound of R193 (R191): its own, or that of a codeword that waits for an engine and has
min(16, DEC_MAX_ITER) iterations before it (log 83). -/
def Line.grantDue (l : Line) (f : RxFrame) : Bool :=
  let after := l.clock.tb + f.iterTicks 1
  decide (f.decodeBy < after) || l.jobs.any fun j => !j.engine && match l.frame? j.chan j.rxId with
    | some g => decide (g.decodeBy < after + g.iterTicks (min 16 (nth g.cfg 0 32)))
    | none => false

/-- How a payload codeword ends (R188, R190, R191): by its checks, by the stall rule, at DEC_MAX_ITER, or with GRANT after at least
min(16, DEC_MAX_ITER) iterations where one more may break a bound. -/
def Line.wordEnds (l : Line) (f : RxFrame) (j : Job) (iters : List Bits) : Option (Bits × Nat × Nat) :=
  let most := nth f.cfg 0 32
  match decodeFrom (hdrRate f.hdr) (hdrLift f.hdr) j.soft most (nth f.cfg 1 1 == 1) 1 [] iters with
  | some x => some x
  | none =>
    if iters.length ≥ min 16 most ∧ l.grantDue f = true then iters.getLast?.map fun b => (heldBits j.soft b, 3, iters.length) else none

/-! ## Records -/

/-- A codeword's entry (Table 7.7). -/
def RxFrame.entry (f : RxFrame) (x : CwEnd) : List W16 :=
  let of_ := f.rep * codeBits (hdrLift f.hdr)
  let share := if x.erased = 0 then 0 else max 1 (min 127 (roundDiv ((x.erased * 128 : Nat) : Int) of_).toNat)
  [w (share * 512 + x.status * 64 + x.iters), x.evm]

/-- The entries of codewords `a` to `a + n - 1`. -/
def RxFrame.entries (f : RxFrame) (a n : Nat) : List W16 := ((f.cws.drop a).take n).flatMap fun x => (x.map f.entry).getD [0, 0]

/-- The descrambled string of a frame's codewords so far, frame check included (R183). -/
def RxFrame.string (f : RxFrame) : List Byte :=
  decodedString f.hdr (f.cws.map fun x => (x.map (·.bits)).getD (List.replicate (codeBits (hdrLift f.hdr)) false))

/-- Payload bytes of a frame. -/
def RxFrame.len (f : RxFrame) : Nat := hdrLen f.hdr + 1

/-- Whether any codeword did not converge. -/
def RxFrame.unconv (f : RxFrame) : Bool := f.cws.any fun x => match x with | some y => decide (y.status ≠ 0) | none => true

/-- A line-side record of a channel in class and words 2 to 9 of the common form (R222). -/
def recordHead (cls status len c flags : Nat) (ts : Tick) (adj : Bool) (epoch : W16) : List W16 :=
  [w (cls * 4096 + status), w len, w (0x200 + c), w (0x400 + flags + b2n adj)] ++ tickWords ts ++ [epoch, w c]

/-- The flags of a received frame record (Table 7.6, word 3); UNCONV is a GOOD frame's (R213). -/
def RxFrame.flags (f : RxFrame) (cut good : Bool) : Nat :=
  b2n cut * 128 + b2n (decide (f.washes > 0)) * 64 + b2n (decide (f.erased > 0)) * 32 + b2n f.overlap * 16 + b2n f.trunc.isSome * 8 + b2n (good && f.unconv) * 4

/-- The received frame record (Table 7.6): from payload offset `ofs` on when segments went before. -/
def Line.frameRecord (c status : Nat) (cut : Bool) (f : RxFrame) (bytes : List Byte) (check : W32) (l : Line) : Line :=
  let ofs := if cut then f.segBytes else 0
  let body := bytes.drop ofs
  let r := l.stamp (0x200 + c) f.endAt
  let head := recordHead 1 status (41 + 2 * f.count + (body.length + 1) / 2) c (f.flags cut (status == 0)) r.1 r.2.1 f.epoch
    ++ tickWords (syncInstant f.launch f.rateK) ++ [f.rxId, w (f.ctx * 32768 + f.rep * 4096 + f.port)] ++ wordsOf 4 f.hdr ++ [f.phase]
    ++ wordsOf 2 f.stroke.toNat ++ wordsOf 2 (ofSigned 32 f.ofs) ++ [f.lock.metric, f.snr, f.evm, f.power] ++ wordsOf 2 f.lock.carrier.toNat
    ++ wordsOf 2 f.erased ++ [w f.washes, w f.count, w f.segs] ++ wordsOf 2 ofs ++ [w body.length] ++ wordsOf 2 check.toNat
    ++ f.entries 0 f.count
  r.2.2.emit (.frameUp { kind := 1, head := head, body := body, chan := c, rxId := f.rxId, sec := hdrSec f.hdr, cut := cut, status := status,
                         ofs := ofs, frameLen := f.len })

/-- Whether a candidate whose header is still to be tested begins before a frame's end (R203). -/
def Chan.mayMeet (f : RxFrame) (x : Chan) : Bool :=
  x.ctx.any fun k => match k with
    | some (.cand y _ _ _ _) => decide (y.launch < f.endAt)
    | _ => false

/-- The received frame record of a frame: it waits as long as a candidate that may still meet the frame has neither passed nor failed (R203; log 73). -/
def Line.finalRecord (c : Nat) (f : RxFrame) (q : FinalRecord) (l : Line) : Line :=
  if (l.chan c).ended.any fun e => e.frame.rxId == f.rxId then
    l.modChan c fun x => { x with ended := x.ended.map fun e => if e.frame.rxId = f.rxId then { e with owed := some q } else e }
  else l.frameRecord c q.status q.cut f q.bytes q.check

/-- The records that waited for OVERLAP and wait no longer (R203); what the barrier retracted in the meantime has none (R220). -/
def Line.settleEnded (c : Nat) (l : Line) : Line :=
  let x := l.chan c
  (x.ended.filter fun e => !x.mayMeet e.frame && !e.frame.closed).foldl
    (fun l e => e.owed.elim l fun q => l.frameRecord c q.status q.cut e.frame q.bytes q.check)
    (l.modChan c fun x => { x with ended := x.ended.filter fun e => x.mayMeet e.frame })

/-- Those of every channel. -/
def Line.settleAllEnded (l : Line) : Line := ((List.range l.chans.length).filter fun c => !(l.chan c).ended.isEmpty).foldl (fun l c => l.settleEnded c) l

/-- The retract record of a frame's segments (R219, Table 7.9). -/
def Line.retractFrame (c status : Nat) (f : RxFrame) (l : Line) : Line :=
  let r := l.stamp (0x200 + c) f.endAt
  let head := recordHead 4 status 18 c 0 r.1 r.2.1 f.epoch ++ [f.rxId, w f.segs] ++ wordsOf 2 f.segBytes
    ++ tickWords (syncInstant f.launch f.rateK)
  (r.2.2.modChan c fun x => x.countRx 16 1).emit (.frameUp { kind := 4, head := head, body := [], chan := c, rxId := f.rxId, sec := hdrSec f.hdr, cut := true,
                                                             status := status, ofs := f.segBytes, frameLen := f.len })

/-- The end of the last symbol that carries a bit of codeword `j`, the latest of its segment (R157 to R159, Table 7.5). -/
def RxFrame.wordEnd (f : RxFrame) (j : Nat) : Tick :=
  let n := codeBits (hdrLift f.hdr)
  let bit := (f.rep - 1) * f.count * n + f.count * (n - 1) + j
  frameEnd f.launch f.rateK (symbolIndex (352 * f.rep + bit / symbolBits (hdrMod f.hdr)) + 1)

end Sys2Proof.Machine
end

