-- ==== Sys2Proof/Machine/Sched.lean ====
section
/-! DEFINITION. The scheduler (R76 to R94): launch instants, lateness, slips, outcomes, acceptance, re-judgement and cancellation. -/

namespace Sys2Proof.Machine

/-! ## Launch specifiers -/

/-- The launch specifier in words 3 to 7 of a command (Table 3.1); none for a reserved FORM. -/
def parseSpec (c : Cmd) : Option LaunchSpec :=
  let x := c.word 3
  let form := match x % 8 with | 0 => some Form.next | 1 => some Form.time | 2 => some Form.stroke | 3 => some Form.angle | _ => none
  form.map fun f =>
    { form := f, slip := bitOf x 3, slipMax := bitsOf x 4 4, time := (c.value 4 4 : Nat), n := BitVec.ofNat 32 (c.value 4 2),
      ofs := toSigned 32 (c.value 6 2), angle := w (c.word 6) }

/-- Whether a form counts strokes. -/
def LaunchSpec.onStrokes (x : LaunchSpec) : Bool := x.form == .stroke || x.form == .angle

/-- Whether an action is a device mode change or LINE_FIRMWARE_UPDATE (Table 3.3, class 1). -/
def ActKind.device : ActKind → Bool
  | .modeSet _ => true
  | .lineFirmware _ _ => true
  | .mute _ _ => false | .unmute _ => false | .place _ _ => false | .chanMode _ _ _ => false | .frames _ => false

/-- The epoch of a unit of kind 1, 3 or 4. -/
def State.epochOf (kind unit : Nat) (s : State) : W16 :=
  match kind with
  | 1 => s.dev.modeEpoch
  | 3 => (s.line.port unit).epoch
  | _ => (s.line.chan unit).epoch

/-- The instant that a STROKE or ANGLE form gives for a stroke (R78); for a device action the angle is the reference's. -/
def Line.formAt (l : Line) (device : Bool) (x : LaunchSpec) (p : Nat) (n : W32) : Option Tick :=
  match x.form with
  | .stroke => (l.boundary p n).map (· + x.ofs)
  | .angle => (l.boundary p n).map fun b =>
      if device then angleInstant b (l.time.refAngle b) x.angle l.time.mainsFreq
      else angleInstant b (l.localPhase p b) x.angle (l.time.input (l.time.phaseInput (l.port p).input)).freq
  | .time => some x.time
  | .next => none

/-- KiB, rounded up. -/
def kib (n : Nat) : Nat := ceilDiv n 1024

/-- The lead that R85 asks of a command, in ticks. -/
def leadOf (frames : List FrameDesc) : Nat :=
  let secured := frames.filter (·.sec)
  let size (f : FrameDesc) := lenM1 f + 1
  let most := kib ((secured.map size).foldl max 0)
  1500 * (200 + 11 * most * ceilDiv secured.length 16 + kib ((frames.map size).sum))

/-- The launch instant of a form at acceptance (R78). NEXT is rounded up to a whole µs; a timestamp names the instant serially nearest to A (R74). -/
def Line.launchOf (l : Line) (device : Bool) (x : LaunchSpec) (p : Nat) (accepted : Tick) (frames : List FrameDesc) : Option Tick :=
  match x.form with
  | .next => some (-((-(accepted + leadOf frames)) / 1500) * 1500)
  | .time => some (nearTick accepted x.time.toNat)
  | _ => l.formAt device x p x.n

/-! ## Outcomes -/

/-- The scheduler's counters (Table 3.10), the adjusted timestamps left out: their widths. -/
def schedWidths : List Nat := [32, 32, 32, 32, 16, 16]

/-- Counter `i` of the scheduler. -/
def Line.countSched (i k : Nat) (l : Line) : Line :=
  { l with sched := { l.sched with ctrs := countAt i (nth schedWidths i 32) k l.sched.ctrs } }

/-- An action changed. -/
def Line.modAction (id : Nat) (f : Action → Action) (l : Line) : Line :=
  { l with sched := { l.sched with actions := l.sched.actions.map fun a => if a.id = id then f a else a } }

/-- An action leaves the queue. -/
def Line.removeAction (id : Nat) (l : Line) : Line :=
  { l with sched := { l.sched with actions := l.sched.actions.filter fun a => a.id != id } }

/-- A pending action. -/
def Line.action? (l : Line) (id : Nat) : Option Action := l.sched.actions.find? fun a => a.id == id

/-- The note of an action or frame is let go when its outcome record is placed (R455). -/
def HostSide.closeNote (action index : Nat) (h : HostSide) : HostSide :=
  { h with notes := h.notes.filter fun n => !(n.action == action && n.index == index) }

/-- A placement that ends ABORTED is a placement refused (Table 4.8). -/
def Line.refusedPlace (a : Action) (st : Status) (l : Line) : Line :=
  match a.kind with
  | .place c _ => if st = .aborted then l.countPlace c 1 else l
  | .modeSet _ => l | .lineFirmware _ _ => l | .mute _ _ => l | .unmute _ => l | .chanMode _ _ _ => l | .frames _ => l

/-- ACTION_DONE (R94, Table 3.9) and the end of the action. That of a device action is stamped by the follower (R97) and placed by device control;
one lost with the barrier waits in the hold like the others (R453, R454). -/
def State.actionDone (a : Action) (st : Status) (t : Tick) (s : State) : State :=
  let u := a.kind.unit
  let fields := [a.tag, w a.kind.cls, w (statusCode st), w a.slipped] ++ tickWords a.launch ++ tickWords t
  let s := { s with line := (s.line.removeAction a.id).refusedPlace a st }
  if a.kind.device && s.link.line.up then
    { s with host := (s.host.eventAt (s.hostTime t) 0x020 u.2.2 u.1 false s.dev.modeEpoch u.2.1 fields).closeNote a.id doneIndex }
  else
    { s with line := s.line.eventOut (some (a.id, doneIndex)) t 0x020 u.2.2 u.1 false (s.epochOf u.1 u.2.1) u.2.1 fields }

/-- A pending frame of an action ends without a launch, with its record (R246). -/
def Line.dropFrame (a : Action) (i : Nat) (st : Status) (cause : Nat) (t : Tick) (l : Line) : Line :=
  match a.frames[i]? with
  | none => l
  | some f =>
    if f.launched || f.ended then l
    else
      let l := { l with sched := l.sched.endFrame a.id i }
      (l.settleSet f.desc.chan l.clock.tb).completion t (l.chan f.desc.chan).epoch f.desc.chan a.tag a.id i f.desc.seq
        (dropped st cause a.slipped (a.frameLaunch f) f.desc.level)

/-- Every pending frame of an action ends so. -/
def Line.dropFrames (a : Action) (st : Status) (cause : Nat) (t : Tick) (l : Line) : Line :=
  (List.range a.frames.length).foldl (fun l i => l.dropFrame a i st cause t) l

/-- A pending action ends without effect: its frames with their records, any other with ACTION_DONE (R82, R93). -/
def State.endAction (a : Action) (st : Status) (cause : Nat) (t : Tick) (s : State) : State :=
  match a.kind with
  | .frames _ => { s with line := (s.line.dropFrames a st cause t).removeAction a.id }
  | _ => s.actionDone a st t

/-! ## Lateness and slips -/

/-- The threshold of acceptance, re-judgement and fix point in ticks (Table 3.2). -/
def leadTime : Tick := 300000

/-- The action moved to the nearest later stroke at which its form gives an instant that is not late (R83). -/
def Line.slipOf (l : Line) (a : Action) (ok : Tick → Bool) : Option Action :=
  if !a.spec.slip then none
  else
    let spec : LaunchSpec :=
      if a.spec.onStrokes then a.spec
      else { a.spec with form := .stroke, n := a.n0, ofs := a.launch - (l.boundary a.refPort a.n0).getD a.launch }
    (List.range (a.spec.slipMax + 1)).findSome? fun i =>
      if i + 1 ≤ a.slipped then none
      else match l.formAt a.kind.device spec a.refPort (strokeAdd a.n0 (i + 1)) with
        | some t =>
          if ok t then some { a with spec := spec, slipped := i + 1, launch := t, fixed := decide (t - 1500000 ≤ l.clock.tb) } else none
        | none => none

/-- A note with the launch of a moved action (R455). -/
def Note.moved (a : Action) (n : Note) : Note := if n.action = a.id then { n with planned := a.launch + n.ofs, slipped := a.slipped } else n

/-- The transmit frame queue and the notes follow a moved launch (R83, R232, R455). -/
def HostSide.moved (a : Action) (h : HostSide) : HostSide :=
  { h with txq := h.txq.map fun f =>
      if f.action = a.id then { f with launch := a.launch + f.desc.ofs, slipped := a.slipped } else f,
           notes := h.notes.map (Note.moved a) }

/-- An action is counted among those found late, once (Table 3.10). -/
def Line.countLate (a : Action) (l : Line) : Line :=
  if a.late then l else (l.modAction a.id fun b => { b with late := true }).countSched 1 1

/-- What the host side holds of an action follows its moved launch while the barrier is up (log 84). -/
def State.follows (a : Action) (s : State) : State := if s.link.line.up then { s with host := s.host.moved a } else s

/-- An action found late slips, or ends with status LATE (R82, R83). -/
def State.lateAction (a : Action) (ok : Tick → Bool) (cause : Nat) (s : State) : State :=
  let now := s.line.clock.tb
  let slip := if a.frames.any (·.launched) then none else s.line.slipOf a ok
  match slip with
  | some a' =>
    let l := (s.line.modAction a.id fun _ => a').countSched 2 (if a.slipped = 0 then 1 else 0)
    let l := (a.frames.map fun f => f.desc.chan).foldl (fun l c => l.settleSet c now) l
    { s with line := l }.follows a'
  | none => { s with line := s.line.countLate a }.endAction a .late cause now

/-- One frame of an action found late (R82): the whole action slips while none of its frames has launched, else the frame alone ends. -/
def State.lateFrame (a : Action) (i : Nat) (ok : Tick → Bool) (cause : Nat) (s : State) : State :=
  let slip := if a.frames.any (·.launched) then none else s.line.slipOf a ok
  match slip with
  | some _ => s.lateAction a ok cause
  | none => { s with line := (s.line.countLate a).dropFrame a i (causeStatus cause) cause s.line.clock.tb }

/-! ## Acceptance -/

/-- The result words of a scheduled action: L after slip and strokes slipped. -/
def Action.words (a : Action) : List W16 := tickWords a.launch ++ [w a.slipped]

/-- A scheduled action judged at acceptance (R81, R91, R303): the action as it will wait, or the status that refuses it. n_0 of a STROKE or ANGLE action is
the stroke that its specifier names, also where its L lies outside that stroke (R83; log 117). -/
def Line.judgeAction (l : Line) (a : Action) : Status × Option Action :=
  match l.launchOf a.kind.device a.spec a.refPort a.accepted (a.frames.map (·.desc)) with
  | none => (.noResource, none)
  | some t =>
    let n := if a.spec.onStrokes then a.spec.n else (l.strokeAt a.refPort t).getD 0
    let a := { a with launch := t, n0 := n, fixed := !a.spec.onStrokes || decide (t - 1500000 ≤ a.accepted) }
    if l.sched.actions.length ≥ 8192 ∨ t > a.accepted + 90000000000 then (.noResource, none)
    else if a.spec.form == .next || decide (a.accepted + leadTime ≤ t) then (.accepted, some a)
    else match l.slipOf a fun u => decide (a.accepted + leadTime ≤ u) with
      | some a' => (.accepted, some a')
      | none => (.late, none)

/-- An accepted action enters the queue, with its counters (R91, Table 3.10). -/
def Line.enqueue (b : Action) (l : Line) : Line :=
  let x := l.sched
  let l := { l with sched := { x with actions := x.actions ++ [b], nextId := x.nextId + 1 } }
  let l := (l.countSched 0 1).countSched 2 (if b.slipped = 0 then 0 else 1)
  { l with sched := { l.sched with ctrs := l.sched.ctrs.modify 5 fun c => ⟨max c.val (min 65535 l.sched.actions.length), c.ovf⟩ } }

/-- A scheduled command other than a transmission (R76, R94): accepted into the queue, or refused. -/
def State.schedule (acc : Accepted) (spec : LaunchSpec) (kind : ActKind) (refPort : Nat) (s : State) : Answer :=
  let exp := if acc.cmd.expect then acc.cmd.params.getLast? else none
  let a : Action :=
    { id := s.line.sched.nextId, tag := acc.cmd.tag, via := acc.cmd.via, kind := kind, spec := spec, refPort := refPort,
      accepted := acc.at_, n0 := 0, slipped := 0, launch := 0, fixed := false, expEpoch := exp, deferred := none, late := false, frames := [] }
  match s.line.judgeAction a with
  | (.accepted, some b) => ⟨.accepted, b.words, { s with line := s.line.enqueue b }⟩
  | (.late, _) => ⟨.late, [], { s with line := s.line.countSched 1 1 }⟩
  | (st, _) => ⟨st, [], s⟩

/-- The units that an action meets others on (R88, Table 3.7): the device, a port, or the channels of which `which` names the frames. -/
def Action.units (which : TxFrame → Bool) (a : Action) : List (Nat × Nat) :=
  match a.kind with
  | .frames _ => (a.frames.filter which).map fun f => (4, f.desc.chan)
  | k => [(k.unit.1, k.unit.2.1)]

/-- Whether two units are one for R88: the device is every unit, and a port is one with the channels whose port set names it (R237). -/
def Line.sameUnit (l : Line) (x y : Nat × Nat) : Bool :=
  let onPort (p c : Nat) : Bool := (l.chan c).entries.any fun e => e.2 == p
  x.1 == 1 || y.1 == 1 || x == y || (x.1 == 3 && y.1 == 4 && onPort x.2 y.2) || (y.1 == 3 && x.1 == 4 && onPort y.2 x.2)

/-- The order of R88: class, then acceptance instant, then CP0 before CP1, then acceptance. -/
def Action.before (a b : Action) : Bool :=
  let key (x : Action) : List Int := [x.kind.cls, x.accepted, cpOf x.via, x.id]
  decide (key a < key b)

/-- Whether an action still acts at an instant, and its frames that do. -/
def Action.actsAt (now : Tick) (a : Action) : Bool :=
  match a.deferred with
  | some t => decide (t = now)
  | none => match a.kind with
    | .frames _ => a.frames.any fun f => !f.launched && !f.ended && a.frameLaunch f == now
    | _ => decide (a.launch = now)

/-- Whether an action that goes before `a` under R88, on one of the units, has still to act at the present tick. -/
def Line.mustWait (l : Line) (a : Action) (units : List (Nat × Nat)) : Bool :=
  let now := l.clock.tb
  l.sched.actions.any fun b => b.actsAt now && b.before a &&
    (b.units fun f => !f.launched && !f.ended && b.frameLaunch f == now).any fun x => units.any (l.sameUnit x)

/-- An action whose L has come: it waits for nothing, the timebase stands at its L (R84), and every action that goes before it has acted (R88). -/
def Line.dueAction (l : Line) (id : Nat) : Option Action :=
  (l.action? id).filter fun a => a.deferred.isNone && a.launch == l.clock.tb && !l.mustWait a (a.units fun _ => true)

/-- Whether an action's expected epoch no longer holds (R92). -/
def State.stale (a : Action) (s : State) : Bool :=
  a.expEpoch.isSome && a.expEpoch != some (s.epochOf a.kind.unit.1 a.kind.unit.2.1)

/-- An action at its L: dropped with EPOCH_STALE when its expected epoch differs (R92), else its effect and ACTION_DONE OK (R94). -/
def State.takeEffect (a : Action) (effect : State → State) (s : State) : State :=
  if s.stale a then s.actionDone a .epochStale s.line.clock.tb else (effect s).actionDone a .ok s.line.clock.tb

/-! ## Fix point and re-judgement -/

/-- An action with its launch instant computed anew, where its form counts strokes (R79). -/
def Line.recomputed (l : Line) (a : Action) : Action :=
  if !a.spec.onStrokes then a
  else match l.formAt a.kind.device a.spec a.refPort (strokeAdd a.n0 a.slipped) with
    | some t => { a with launch := t }
    | none => a

/-- An action whose launch instant is recomputed and judged against a threshold (R79, R81). One that was fixed stays fixed, also where a GRID_STEP
moves its L more than 1 ms ahead (R86; log 89). -/
def State.rejudgeOne (lead : Tick) (a : Action) (s : State) : State :=
  let b := s.line.recomputed a
  let s := { s with line := s.line.modAction a.id fun _ => b }.follows b
  let now := s.line.clock.tb
  if b.launch < now + lead then s.lateAction b (fun t => decide (now + lead ≤ t)) 2 else s

/-- L recomputed for every STROKE and ANGLE action whose L is not fixed, after a change of the schedule or of a tracker (R79). -/
def State.recompute (s : State) : State :=
  (s.line.sched.actions.filter fun a => a.spec.onStrokes && !a.fixed && a.deferred.isNone).foldl (fun s a => s.rejudgeOne leadTime a) s

/-- The frames of an action whose L stays as a tick value, judged one by one, each by its own instant: those whose instant has passed are late, and the
whole action slips while none of them has launched (R82, R87; log 116). -/
def State.rejudgeStarted (id : Nat) (s : State) : State :=
  (List.range (((s.line.action? id).map fun a => a.frames.length).getD 0)).foldl (fun s i =>
    match s.line.action? id with
    | none => s
    | some a =>
      match a.frames[i]? with
      | some f =>
        if !f.launched && !f.ended && decide (a.frameLaunch f < s.line.clock.tb) then
          s.lateFrame a i (fun t => decide (s.line.clock.tb + leadTime ≤ t)) 2
        else s
      | none => s) s

/-- An action whose L stays as a tick value, after instants have passed in which nothing could act (R34, R87): what was to act in them is late. -/
def State.rejudgePassed (a : Action) (s : State) : State :=
  if !a.frames.isEmpty then s.rejudgeStarted a.id
  else if a.launch < s.line.clock.tb then s.lateAction a (fun t => decide (s.line.clock.tb + leadTime ≤ t)) 2 else s

/-- The re-judgement of Table 3.2: every action whose L is not yet fixed, and every STROKE or ANGLE action whose reference port is
affected. A fixed L stays as a tick value, and what it gives is late once its instant has passed, which an exit from MAINTAIN and a forward step, `passed`,
can bring about (R34, R86, R87). An action of which a frame has launched is judged frame by frame and not recomputed (R82; log 116). -/
def State.rejudge (passed : Bool) (affected : Nat → Bool) (s : State) : State :=
  (s.line.sched.actions.filter fun a => a.deferred.isNone).foldl (fun s a =>
    if a.frames.any (·.launched) then s.rejudgeStarted a.id
    else if !a.fixed || (a.spec.onStrokes && affected a.refPort) then s.rejudgeOne leadTime a
    else if passed then s.rejudgePassed a else s) s

/-- Whether a flood frame keeps to the catch and to 80 % of its launch stroke (R164, R230). -/
def Line.floodFits (l : Line) (c : Nat) (p : Nat) (d : FrameDesc) (t : Tick) : Bool :=
  let k := (l.chan c).rateK
  l.inCatch p t (headerEnd t k d.mod) &&
    decide (frameTicks k d.mod d.rate d.lift (lenM1 d) * 65536 * 5 ≤ 4 * ((l.launchStroke p t).map (l.strokeLength p)).getD 0)

/-- Frames that fail the catch or the 80 % limit at the fix point, on the strokes of the action's reference port (R77), end with cause CATCH (R165,
R230). -/
def Line.fixFrames (a : Action) (l : Line) : Line :=
  (a.frames.zipIdx.filter fun f => f.1.desc.type == 1 && !l.floodFits f.1.desc.chan a.refPort f.1.desc (a.frameLaunch f.1)).foldl
    (fun l f => l.dropFrame a f.2 .aborted 9 l.clock.tb) l

/-- The fix point of an action (R79), by its L as recomputed now: L is computed for the last time, judged and fixed. -/
def State.fixPoint (id : Nat) (s : State) : State :=
  match s.line.action? id with
  | none => s
  | some a =>
    if a.fixed || s.line.clock.tb < (s.line.recomputed a).launch - 1500000 then s
    else
      let t := s.rejudgeOne leadTime a
      match t.line.action? id with
      | none => t
      | some b =>
        if b.launch - 1500000 > t.line.clock.tb then t
        else
          let l := t.line.modAction id fun x => { x with fixed := true }
          { t with line := match l.action? id with | some c => l.fixFrames c | none => l }

/-- FIX_POINT (R79, R165). -/
def execFixPoint (dt : Nat) (action : Nat) (s : State) : Out := .next (((s.advance dt).fixPoint action).flush)

/-- The residency check of a frame (R81, R85). -/
def State.residencyCheck (id i : Nat) (s : State) : State :=
  match s.line.action? id with
  | none => s
  | some a =>
    match a.frames[i]? with
    | none => s
    | some f =>
      let now := s.line.clock.tb
      if f.launched || f.ended || f.payload.isSome || now < a.frameLaunch f - 60000 then s
      else s.lateFrame a i (fun t => decide (now < t + f.desc.ofs - 60000)) 1

/-- RESIDENCY_CHECK (R85). -/
def execResidencyCheck (dt : Nat) (action index : Nat) (s : State) : Out := .next (((s.advance dt).residencyCheck action index).flush)

/-! ## Commands -/

/-- ACTION_CANCEL: every pending action that holds the tag with 200 µs of lead ends (R93). -/
def State.cancel (acc : Accepted) (s : State) : Answer :=
  let tag := w (acc.cmd.word 3)
  let held := s.line.sched.actions.filter fun a => a.tag == tag && !a.frames.any (·.launched) && a.deferred.isNone
  let slow := s.line.sched.actions.filter fun a => a.tag == tag && (a.frames.any (·.launched) || a.deferred.isSome)
  let early := held.filter fun a => decide (acc.at_ + leadTime ≤ a.launch)
  let lateCount := held.length - early.length + slow.length
  if early.isEmpty && lateCount > 0 then ⟨.late, [], s⟩
  else
    let t := early.foldl (fun s a => s.endAction a .aborted 4 s.line.clock.tb) s
    ⟨.ok, [w early.length, w lateCount], { t with line := t.line.countSched 3 early.length }⟩

/-- Opcode 0x108 (Table 11.7). -/
def infoActionCancel : CmdInfo := ⟨0x108, false, true, setRun⟩

/-- ACTION_CANCEL (R93). -/
def execActionCancel (dt : Nat) (cmd : Cmd) (s : State) : Out :=
  .next ((s.advance dt).runL infoActionCancel cmd false (State.modeRefL cmd) State.cancel)

/-- Opcode 0x109 (Table 11.7). -/
def infoScheduleStatus : CmdInfo := ⟨0x109, true, true, setRun⟩

/-- SCHEDULE_STATUS: pending actions, pending relay launches and the counters of Table 3.10 (R300, R317); the adjusted timestamps of both sides count. -/
def State.scheduleStatus (acc : Accepted) (s : State) : Answer :=
  let l := s.line
  let adj := satAdd 32 s.host.adjusted.val l.adjusted
  let cs := l.sched.ctrs.take 4 ++ [{ adj with ovf := adj.ovf || s.host.adjusted.ovf }] ++ l.sched.ctrs.drop 4
  ⟨.ok, [w l.sched.actions.length, w l.relay.copies.length] ++ counterWords cs,
   { s with line := { l with sched := { l.sched with ctrs := clearAll acc.cmd.clr l.sched.ctrs },
                             adjusted := if acc.cmd.clr then Ctr.zero else l.adjusted },
            host := { s.host with adjusted := if acc.cmd.clr then Ctr.zero else s.host.adjusted } }⟩

/-- SCHEDULE_STATUS (R317). -/
def execScheduleStatus (dt : Nat) (cmd : Cmd) (s : State) : Out :=
  .next ((s.advance dt).runL infoScheduleStatus cmd false (State.modeRefL cmd) State.scheduleStatus)

end Sys2Proof.Machine
end

