-- ==== Sys2Proof/Machine/Ports.lean ====
section
/-! DEFINITION. Line ports (R107 to R130, R136, R137): settings, mute and unmute, faults, the driver enable, the current limit, the impedance
monitor and the mask. -/

namespace Sys2Proof.Machine

/-! ## PORT_CONFIGURE -/

/-- The ranges of the rows of Table 4.2 as PORT_CONFIGURE encodes them. -/
def portRanges : List (Nat × Nat) :=
  [(0, 1), (0, 3), (0, 127), (0, 4095), (0, 4095), (0, 500), (0, 500), (0, 1), (1, 2000), (1, 20000), (10, 2000), (0, 20000), (1, 40),
   (0, 10000)]

/-- Whether values lie in their ranges, one range each. -/
def inRanges : List (Nat × Nat) → List Nat → Bool
  | [], _ => true
  | _, [] => true
  | r :: rs, v :: vs => decide (r.1 ≤ v ∧ v ≤ r.2) && inRanges rs vs

/-- A list of settings with the masked rows replaced by the words of a command from word `ofs` on. -/
def maskedRows (mask ofs : Nat) (c : Cmd) (cfg : List Nat) : List Nat :=
  cfg.zipIdx.map fun p => if bitOf mask p.2 then c.word (ofs + p.2) else p.1

/-- The rows that differ, as bits. -/
def changedRows (a b : List Nat) : Nat := ((List.zipWith (fun x y => decide (x ≠ y)) a b).zipIdx.map fun p => b2n p.1 * 2 ^ p.2).sum

/-- The settings that a PORT_CONFIGURE would leave. -/
def Line.newPortCfg (l : Line) (c : Cmd) : List Nat := maskedRows (bitsOf (c.word 4) 0 14) 5 c (l.port (c.word 3)).cfg

/-- Opcode 0x040. A change of an idle-only setting is allowed only in CONFIG, SURVEY and TEST (R115). -/
def infoPortConfigure (idle : Bool) : CmdInfo := ⟨0x040, false, true, if idle then setIdle else setRun⟩

/-- Whether a channel names a port as its receive port or in its port set. -/
def Chan.uses (p : Nat) (x : Chan) : Bool := x.rxPort == some p || x.entries.any (fun e => e.2 == p)

/-- Ports with ENABLE = ON. -/
def Line.enabled (l : Line) : Nat := (l.ports.filter Port.on).length

/-- The port allowance of the grade (R116). -/
def Dev.allowance (d : Dev) : Nat := if d.gradeE then 64 else 96

/-- PORT_CONFIGURE (R115, R116, R118). -/
def State.portConfigure (acc : Accepted) (s : State) : Answer :=
  let p := acc.cmd.word 3
  let l := s.line
  let new := l.newPortCfg acc.cmd
  let old := (l.port p).cfg
  let turnsOn := nth old 0 0 = 0 ∧ nth new 0 0 = 1
  let turnsOff := nth old 0 0 = 1 ∧ nth new 0 0 = 0
  if p ≥ 96 ∨ inRanges portRanges new = false then s.hostError 0
  else if turnsOn ∧ l.enabled ≥ s.dev.allowance then ⟨.noResource, [], s⟩
  else if turnsOff ∧ l.chans.any (Chan.uses p) then ⟨.busy, [], s⟩
  else if new = old then ⟨.ok, [], s⟩
  else
    let set (q : Port) : Port := let q := { q with cfg := new }; if turnsOff then q.cutDrv else q
    let l := (l.changeFlags l.clock.tb p 0 acc.cmd.tag set).portConfigEvent p acc.cmd.tag (changedRows old new)
    ⟨.ok, [], { s with line := l }⟩

/-- PORT_CONFIGURE (R115). -/
def execPortConfigure (dt : Nat) (cmd : Cmd) (s : State) : Out :=
  let s := s.advance dt
  let idle := decide ((changedRows (s.line.port (cmd.word 3)).cfg (s.line.newPortCfg cmd)) % 2 ^ 11 ≠ 0)
  .next (s.runL (infoPortConfigure idle) cmd false (State.portRefL (cmd.word 3)) State.portConfigure)

/-! ## Mute, unmute and re-arm -/

/-- Opcode 0x041. -/
def infoPortMute : CmdInfo := ⟨0x041, false, true, setRun⟩

/-- PORT_MUTE: a class 2 action (R120). -/
def State.portMute (acc : Accepted) (s : State) : Answer :=
  match parseSpec acc.cmd with
  | none => s.hostError 5
  | some spec =>
    if acc.cmd.word 8 ≥ 96 ∨ acc.cmd.word 9 > 2 then s.hostError 5
    else s.schedule acc spec (.mute (acc.cmd.word 8) (acc.cmd.word 9)) (acc.cmd.word 8)

/-- PORT_MUTE (R120). -/
def execPortMute (dt : Nat) (cmd : Cmd) (s : State) : Out :=
  .next ((s.advance dt).runL infoPortMute cmd true (State.portRefL (cmd.word 8)) State.portMute)

/-- Opcode 0x042. -/
def infoPortUnmute : CmdInfo := ⟨0x042, false, true, setRun⟩

/-- PORT_UNMUTE: a class 2 action (R120). -/
def State.portUnmute (acc : Accepted) (s : State) : Answer :=
  match parseSpec acc.cmd with
  | none => s.hostError 5
  | some spec => if acc.cmd.word 8 ≥ 96 then s.hostError 5 else s.schedule acc spec (.unmute (acc.cmd.word 8)) (acc.cmd.word 8)

/-- PORT_UNMUTE (R120). -/
def execPortUnmute (dt : Nat) (cmd : Cmd) (s : State) : Out :=
  .next ((s.advance dt).runL infoPortUnmute cmd true (State.portRefL (cmd.word 8)) State.portUnmute)

/-- The CPL field of a mute, applied after it: a change of level holds the port's receive path for CPL_SETTLE (R127). A second change during a hold
sets the end of the hold anew, also to an earlier one (log 93). -/
def Port.setCpl (now : Tick) (field : Nat) (q : Port) : Port :=
  let level := if field = 0 then q.cpl else decide (field = 2)
  if level = q.cpl then q else { q with cpl := level, settle := some (now + microTicks (q.row 13)) }

/-- A mute (R120): MUTED, the on-air ending of every frame on the port, then the CPL level. The driver enable falls after the tail of the last
ending, also of one already under way. -/
def Line.mutePort (p : Nat) (cpl : Nat) (cause : Nat) (tag : W16) (l : Line) : Line :=
  let now := l.clock.tb
  let l := (l.endPort p now cause).changeFlags now p 0 tag fun q => { q with muted := true }
  let was := (l.port p).cpl
  let l := (l.dropRise p).modPort p fun q => q.setCpl now cpl
  match if (l.port p).cpl = was then none else (l.port p).settle with
  | some t => { l with chans := l.chans.map fun (x : Chan) => if x.rxPort = some p then x.mark now t else x }
  | none => l

/-- PORT_MUTE_TAKES_EFFECT (R120, R127). -/
def State.muteEffect (id : Nat) (s : State) : State :=
  match s.line.dueAction id with
  | none => s
  | some a =>
    match a.kind with
    | .mute p cpl => s.takeEffect a fun s => { s with line := s.line.mutePort p cpl 13 a.tag }
    | .modeSet _ => s | .lineFirmware _ _ => s | .unmute _ => s | .place _ _ => s | .chanMode _ _ _ => s | .frames _ => s

/-- PORT_MUTE_TAKES_EFFECT (R120). -/
def execPortMuteTakesEffect (dt : Nat) (action : Nat) (s : State) : Out := .next (((s.advance dt).muteEffect action).flush)

/-- PORT_UNMUTE_TAKES_EFFECT (R120): MUTED alone. -/
def State.unmuteEffect (id : Nat) (s : State) : State :=
  match s.line.dueAction id with
  | none => s
  | some a =>
    match a.kind with
    | .unmute p => s.takeEffect a fun s =>
        { s with line := s.line.changeFlags s.line.clock.tb p 0 a.tag fun q => { q with muted := false } }
    | .modeSet _ => s | .lineFirmware _ _ => s | .mute _ _ => s | .place _ _ => s | .chanMode _ _ _ => s | .frames _ => s

/-- PORT_UNMUTE_TAKES_EFFECT (R120). -/
def execPortUnmuteTakesEffect (dt : Nat) (action : Nat) (s : State) : Out := .next (((s.advance dt).unmuteEffect action).flush)

/-- Opcode 0x043. -/
def infoPortRearm : CmdInfo := ⟨0x043, false, true, setRun⟩

/-- Whether the rms of I over the last window exceeds ILIM as it is now set (R129). -/
def Port.overLimit (q : Port) : Bool := decide (q.row 11 ≠ 0 ∧ q.lastI.1 > q.row 11 * q.row 11 * q.lastI.2)

/-- PORT_REARM: FAULT clears unless LPnn_DRVFLT is low or the last window of the current limit exceeds it (R121, R129). -/
def State.portRearm (acc : Accepted) (s : State) : Answer :=
  let p := acc.cmd.word 3
  let q := s.line.port p
  if p ≥ 96 then s.hostError 0
  else if q.fltSince.isSome ∨ q.overLimit = true then ⟨.busy, [], s⟩
  else ⟨.ok, [], { s with line := s.line.changeFlags s.line.clock.tb p 3 acc.cmd.tag fun q => { q with fault := false, cause := 0 } }⟩

/-- PORT_REARM (R121). -/
def execPortRearm (dt : Nat) (cmd : Cmd) (s : State) : Out :=
  .next ((s.advance dt).runL infoPortRearm cmd false (State.portRefL (cmd.word 3)) State.portRearm)

/-! ## Mask -/

/-- `n` pairs of edges from word `i` on. -/
def edgePairs (c : Cmd) (i n : Nat) : List (Nat × Nat) := (List.range n).map fun k => (c.value (i + 4 * k) 2, c.value (i + 4 * k + 2) 2)

/-- Whether a channel would fail condition 6 of R133 on a port. -/
def Chan.failsMask (p : Nat) (q : Port) (x : Chan) : Bool :=
  match x.place with
  | some pl => pl.entries.any (fun e => e.2 == p) && !q.allows (bandOf pl.f pl.rateK)
  | none => false

/-- Opcode 0x044. -/
def infoPortMask : CmdInfo := ⟨0x044, false, true, setIdle⟩

/-- PORT_MASK: the whole mask of a port, refused while a placed channel would fail it (R136). -/
def State.portMask (acc : Accepted) (s : State) : Answer :=
  let p := acc.cmd.word 3
  let nb := acc.cmd.word 4 % 16
  let nn := bitsOf (acc.cmd.word 4) 8 5
  let bands := edgePairs acc.cmd 5 nb
  let notches := edgePairs acc.cmd (5 + 4 * nb) nn
  let q := { s.line.port p with bands := bands, notches := notches }
  if p ≥ 96 ∨ nb > 8 ∨ nn > 16 then s.hostError 1
  else match s.line.chans.zipIdx.find? fun x => x.1.failsMask p q with
    | some x => ⟨.busy, [w x.2], s⟩
    | none =>
      ⟨.ok, [0xFFFF], { s with line := (s.line.modPort p fun q => { q with bands := bands, notches := notches }).portConfigEvent p acc.cmd.tag (2 ^ 14) }⟩

/-- PORT_MASK (R136). -/
def execPortMask (dt : Nat) (cmd : Cmd) (s : State) : Out :=
  .next ((s.advance dt).runL infoPortMask cmd false (State.portRefL (cmd.word 3)) State.portMask)

/-! ## PORT_STATUS -/

/-- `n` pairs of edges as words, unused ones 0. -/
def pairWords (n : Nat) (es : List (Nat × Nat)) : List W16 :=
  (List.range n).flatMap fun i => wordsOf 2 (nth es i (0, 0)).1 ++ wordsOf 2 (nth es i (0, 0)).2

/-- The Z entries that a port reports: its transmitting channels with a value, at most 16 (R128). -/
def Line.zEntries (l : Line) (p : Nat) : List ZEntry := ((l.port p).zs.filter fun z => (l.chan z.chan).entries.any fun e => e.2 == p).take 16

/-- The result words of PORT_STATUS (Table 11.8). -/
def Line.portStatusWords (l : Line) (p : Nat) : List W16 :=
  let q := l.port p
  q.cfg.map w ++ [w q.src, w q.input, w q.sofs, w (b2n q.on * 4 + b2n q.muted * 2 + b2n q.fault + q.cause * 16)]
    ++ [w (q.notches.length * 256 + q.bands.length)] ++ pairWords 8 q.bands ++ pairWords 16 q.notches
    ++ [w (l.zEntries p).length] ++ ((l.zEntries p).flatMap fun z => [w z.chan, z.mag, z.angle] ++ tickWords z.at_)
    ++ wordsOf 2 q.peak ++ counterWords (wrapCtr q.epoch.toNat :: q.ctrs)

/-- Opcode 0x045. -/
def infoPortStatus : CmdInfo := ⟨0x045, true, true, setRun⟩

/-- PORT_STATUS: the peak current starts afresh after the read (R139, R317). -/
def State.portStatus (acc : Accepted) (s : State) : Answer :=
  let p := acc.cmd.word 3
  if p ≥ 96 then s.hostError 0
  else ⟨.ok, s.line.portStatusWords p, { s with line := s.line.modPort p fun q => { q with peak := 0, ctrs := clearAll acc.cmd.clr q.ctrs } }⟩

/-- PORT_STATUS (R317). -/
def execPortStatus (dt : Nat) (cmd : Cmd) (s : State) : Out :=
  .next ((s.advance dt).runL infoPortStatus cmd false (State.portRefL (cmd.word 3)) State.portStatus)

/-! ## The driver -/

/-- DRVEN_RISE: a launch of the channel is near enough that the enable of the port rises for it (R122, R123). -/
def Line.drvenRise (mode : Mode) (p c : Nat) (l : Line) : Line :=
  if l.carries mode p && decide ((l.port p).holders.count c < l.asks c p) then l.holdDrv mode c p else l

/-- DRVEN_RISE (R122). -/
def execDrvenRise (dt : Nat) (port channel : Nat) (s : State) : Out :=
  .next ((s.advance dt).onLine fun l => l.drvenRise s.dev.mode port channel)

/-- LPnn_DRVEN falls when nothing holds it and every tail has passed (R122). -/
def Line.drvenFall (mode : Mode) (p : Nat) (l : Line) : Line :=
  if (l.port p).drven && !l.held mode p && decide ((l.port p).fallAt.getD l.clock.tb ≤ l.clock.tb) then l.modPort p Port.cutDrv else l

/-- DRVEN_FALL (R122). -/
def execDrvenFall (dt : Nat) (port : Nat) (s : State) : Out := .next ((s.advance dt).onLine (Line.drvenFall s.dev.mode port))

/-- The counters of a port (Table 4.8): widths. -/
def portWidths : List Nat := [32, 32, 16, 16, 16]

/-- Counter `i` of a port. -/
def Line.countPort (p i k : Nat) (l : Line) : Line := l.modPort p fun q => { q with ctrs := countAt i (nth portWidths i 32) k q.ctrs }

/-- FAULT sets with its cause; the driver enable is low without a tail (R126). -/
def Line.setFault (p cause : Nat) (t : Tick) (l : Line) : Line :=
  l.changeFlags t p cause 0 fun q => { q.cutDrv with fault := true, cause := cause, faultDue := none }

/-- When the last ending on a port is complete. -/
def Line.endingsOver (l : Line) (p : Nat) : Option Tick :=
  let under := l.chans.flatMap fun x => match x.onAir with
    | some o => o.entries.filterMap fun e => if e.port == p && e.started && !e.complete then e.ended.map (·.1 + 750) else none
    | none => []
  (under ++ (l.port p).lateEnds.map fun (x : LateEnd) => x.at_ + 750).max?

/-- A driver fault or a trip of the current limit (R126, R129): the port's frames end at `e`, but for endings under way (R244), and FAULT follows the
last ending. -/
def Line.faultPort (p cause : Nat) (e : Tick) (l : Line) : Line :=
  if (l.port p).fault || (l.port p).faultDue.isSome then l
  else
    let l := l.endPort p e (10 + cause)
    match l.endingsOver p with
    | some t => l.modPort p fun q => { q with faultDue := some (t, cause) }
    | none => l.setFault p cause l.clock.tb

/-- The instant at which the ending of a fault starts: at most 375 ticks after its acceptance (R241), otherwise free (log 42). -/
def State.faultInstant (s : State) : Tick := s.line.clock.tb + (Config.freeWord s.host.freeCtr).toNat % 376

/-- DRVFLT_ASSERT: the line of the driver goes low (R125). -/
def execDrvfltAssert (dt : Nat) (port : Nat) (s : State) : Out :=
  .next ((s.advance dt).onLine fun l => l.modPort port fun q => if q.fltSince.isNone then { q with fltSince := some l.clock.tb, fltTaken := false } else q)

/-- DRVFLT_DEASSERT: the line of the driver goes high (R121, R125). -/
def execDrvfltDeassert (dt : Nat) (port : Nat) (s : State) : Out :=
  .next ((s.advance dt).onLine fun l => l.modPort port fun q => { q with fltSince := none, fltTaken := false })

/-- Whether an assertion is accepted now: 1 µs long, not accepted before, and not masked (R125). Its length counts from the ball's assertion, also
while the device ignored it (log 94). -/
def Line.faultAccepted (l : Line) (p : Nat) : Bool :=
  let q := l.port p
  match q.fltSince with
  | some t => !q.fltTaken && q.on && (q.row 7 == 0 || q.drven) && decide (t + 1500 ≤ l.clock.tb)
  | none => false

/-- DRVFLT_ACCEPTED (R125, R126). -/
def execDrvfltAccepted (dt : Nat) (port : Nat) (s : State) : Out :=
  let s := s.advance dt
  .next (if s.line.faultAccepted port then
    (s.spend 1).onLine fun l => ((l.modPort port fun q => { q with fltTaken := true }).countPort port 2 1).faultPort port 1 s.faultInstant
  else s)

/-- The squared rms of the driver current over a window in mA², as a ratio (R128, R129): I = (Vs - Vl) / Z0 with Vs and Vl by DRV_GAIN and RX_SCALE.
No current flows in a port that transmits nothing. -/
def Line.current (l : Line) (p : Nat) (x : WindowObs) : Nat × Nat :=
  let q := l.port p
  let g : Int := q.row 8
  let r : Int := q.row 9
  if l.fading p then ((g * g * x.tx - 2 * g * r * x.cross + r * r * x.rx).toNat, 1000000 * (q.row 10 * q.row 10)) else (0, 1)

/-- A window of the current limit (R129), 10 µs after the one before: its rms of I, the highest since the last read, and the run of consecutive
windows above ILIM. -/
def Line.window (p : Nat) (x : WindowObs) (l : Line) : Line :=
  let now := l.clock.tb
  let i := l.current p x
  let next (q : Port) : Port := { q with lastI := i, windowAt := now, peak := max q.peak (roundSqrt i.1 i.2) }
  let run (q : Port) (before : Nat) : Port := { next q with overRun := if (next q).overLimit then before + 1 else 0 }
  if now < (l.port p).windowAt + 15000 then l
  else l.modPort p fun q => run q (if now = q.windowAt + 15000 then q.overRun else 0)

/-- ILIM_WINDOW (R129). -/
def execIlimWindow (dt : Nat) (port : Nat) (window : WindowObs) (s : State) : Out :=
  let s := (s.advance dt).onLine (Line.window port window)
  let q := s.line.port port
  .next (if q.overRun ≥ 4 ∧ q.on = true ∧ q.fault = false ∧ q.faultDue.isNone then
    (s.spend 1).onLine fun l => ((l.modPort port fun q => { q with overRun := 0 }).countPort port 3 1).faultPort port 2 s.faultInstant
  else s)

/-- Whether two magnitudes, each by its square as a ratio, differ by more than `thr` half decibels of 20 log10 (R130). -/
def magStep (a b : Nat × Nat) (thr : Nat) : Bool :=
  let x := a.1 * b.2
  let y := b.1 * a.2
  decide ((max x y) ^ 20 > (min x y) ^ 20 * 10 ^ thr)

/-- The voltage difference Vs - Vl and Vl of a block, in tenths of a µV (R128). -/
def Port.volts (q : Port) (b : ZBlock) : Cx × Cx := ((b.tx.scale (q.row 8)).sub (b.rx.scale (q.row 9)), b.rx.scale (q.row 9))

/-- The squared magnitude of Z = Z0 · Vl / (Vs - Vl) in ohm² as a ratio (R128). -/
def Port.zSquare (q : Port) (b : ZBlock) : Nat × Nat := (q.row 10 ^ 2 * (q.volts b).2.norm, 100 * (q.volts b).1.norm)

/-- The magnitude of Z in Q12.4 ohm, saturated (R128, R519). -/
def Port.zMag (q : Port) (b : ZBlock) : W16 :=
  let z := q.zSquare b
  if z.2 = 0 then 0xFFFF else w (min 0xFFFF (roundSqrt (16 ^ 2 * z.1) z.2))

/-- The angle of Z (R128). -/
def Port.zAngle (q : Port) (b : ZBlock) : W16 := let v := q.volts b; turnAngle (v.2.mul v.1.conj)

/-- Whether the residual power exceeds -20 dB relative to Vl (R128). -/
def unreliable (b : ZBlock) : Bool := decide (100 * b.residual > b.rx.norm)

/-- Whether a block is the next of 64 symbols of the frame on air of a channel on a port: whole, over by now, and none of it reported before (R128). -/
def Line.zDue (l : Line) (p : Nat) (o : OnAir) (c : Nat) (b : ZBlock) : Bool :=
  let last := (((l.port p).zs.find? fun z => z.chan == c && z.frame == o.launch).map (·.symbol + 64)).getD 0
  o.entries.any (fun e => e.port == p && e.started && !e.complete) &&
    decide (b.symbol % 64 = 0 ∧ last ≤ b.symbol ∧ b.symbol + 64 ≤ o.symbols ∧ pulsePeak o.launch o.rateK (b.symbol + 63) ≤ l.clock.tb)

/-- An impedance block of the frame on air of a channel (R128, R130), stamped with the instant of its event (log 95). Where Vs equals Vl there is no
current and Z has no value: its magnitude is the largest and its angle is free (log 95). -/
def Line.zBlock (free : W16) (p c : Nat) (b : ZBlock) (l : Line) : Line :=
  match (l.chan c).onAir with
  | none => l
  | some o =>
    if !l.zDue p o c b then l
    else
      let q := l.port p
      let mag := q.zMag b
      let angle := if (q.volts b).1.norm = 0 then free else q.zAngle b
      let before := (q.zs.find? fun z => z.chan == c && z.frame == o.launch).bind (·.last)
      let z : ZEntry :=
        { chan := c, mag := mag, angle := angle, at_ := l.clock.tb, frame := o.launch, symbol := b.symbol,
          last := if unreliable b then before else some { mag := mag, angle := angle, square := q.zSquare b } }
      let l := l.modPort p fun q => { q with zs := z :: q.zs.filter fun z => z.chan != c }
      match before with
      | none => l
      | some r =>
        if unreliable b || !magStep r.square (q.zSquare b) (q.row 12) then l
        else
          let l := (l.countPort p 4 1).modChan c fun x => { x with onAir := x.onAir.map fun o => { o with steps := o.steps + 1 } }
          l.portNote l.clock.tb p 0x042 ([w p, w c, r.mag, mag, r.angle, angle] ++ wordsOf 2 b.symbol)

/-- IMPEDANCE_BLOCK (R128, R130). -/
def execImpedanceBlock (dt : Nat) (port channel : Nat) (block : ZBlock) (s : State) : Out :=
  .next (((s.advance dt).spend 1).onLine (Line.zBlock (Config.freeWord s.host.freeCtr) port channel block))

/-- CPL_SETTLE_END: the receive hold of the port is over (R127). -/
def execCplSettleEnd (dt : Nat) (port : Nat) (s : State) : Out :=
  .next ((s.advance dt).onLine fun l => l.modPort port fun q =>
    match q.settle with
    | some t => if t ≤ l.clock.tb then { q with settle := none, markEnd := max q.markEnd t } else q
    | none => q)

/-- What the completion of an ending of a channel on a port gives (R241): the driver enable falls after its tail, or at once under a fault, which then sets
FAULT (R126). -/
def Line.endedOn (p c : Nat) (band : Int × Int) (t : Tick) (cause : Nat) (l : Line) : Line :=
  let l := (l.modPort p fun q => { q with airEnd := max q.airEnd (t + 750) }).endHold p band (t + 750)
  match (l.port p).faultDue with
  | some (at_, k) => if at_ ≤ l.clock.tb then l.setFault p k at_ else l
  | none => if cause = 11 ∨ cause = 12 then l else l.settleDrv c p (t + 750)

/-- The completion of an ending of the frame on air on one port entry (R241). -/
def Line.endingOfFrame (p c : Nat) (l : Line) : Line :=
  match (l.chan c).onAir with
  | none => l
  | some o =>
    match (o.entries.find? fun e => e.port == p && e.started && !e.complete).bind (·.ended) with
    | none => l
    | some (t, cause) =>
      if t + 750 > l.clock.tb then l
      else
        (l.modChan c fun x => { x with onAir := x.onAir.map fun o =>
          { o with entries := o.entries.map fun n => if n.port == p then { n with complete := true } else n } }).endedOn p c (bandOf o.f o.rateK) t cause

/-- The completion of an ending that has outlasted its frame (R241). -/
def Line.lateEnding (p c : Nat) (l : Line) : Line :=
  match (l.port p).lateEnds.find? fun x => x.chan == c && decide (x.at_ + 750 ≤ l.clock.tb) with
  | none => l
  | some x => (l.modPort p fun q => { q with lateEnds := q.lateEnds.erase x }).endedOn p c (bandOf x.f x.rateK) x.at_ x.cause

/-- The completion of the endings of a channel on a port whose 750 ticks are over (R241). -/
def Line.endingComplete (p c : Nat) (l : Line) : Line := (l.endingOfFrame p c).lateEnding p c

/-- ON_AIR_ENDING_COMPLETE (R126, R241). -/
def execOnAirEndingComplete (dt : Nat) (port channel : Nat) (s : State) : Out :=
  .next ((s.advance dt).onLine (Line.endingComplete port channel))

end Sys2Proof.Machine
end

