-- ==== Sys2Proof/Machine/Channels.lean ====
section
/-! DEFINITION. Modem channels (R131 to R135, R320): placement, settings, status, self-overlap holds and the loopback of TEST. -/

namespace Sys2Proof.Machine

/-! ## Placement -/

/-- The placement that words 9 to 16 of CHANNEL_PLACE ask for; none when UNPLACE is set (Table 4.4). -/
def parsePlace (c : Cmd) : Option Placement :=
  if bitOf (c.word 16) 15 then none
  else some
    { rxPort := c.word 9, portSet := (List.range 8).map fun e => bitsOf (c.word (10 + e / 2)) (8 * (e % 2)) 8,
      f := BitVec.ofNat 32 (c.value 14 2), rateK := c.word 16 % 16 }

/-- Whether a placement's values are in range and unreserved (Table 4.4, R131). -/
def Placement.legal (p : Placement) : Bool :=
  (p.rxPort == 0xFF || decide (p.rxPort < 96)) && p.entries.all (fun e => decide (e.2 < 96)) && decide ((p.entries.map (·.2)).Nodup) &&
    decide (p.rateK ≤ 12) && !(p.rxPort == 0xFF && p.entries.isEmpty)

/-- The channels other than `c`, with their placements. -/
def Line.others (l : Line) (c : Nat) : List Placement := (l.chans.zipIdx.filter fun x => x.2 != c).filterMap fun x => x.1.place

/-- The conditions of R133 for a placement, the channel's old one removed. -/
def Line.placementOk (l : Line) (c : Nat) (p : Placement) : Bool :=
  let band := bandOf p.f p.rateK
  let rest := l.others c
  let sends (q : Nat) := rest.filter fun x => x.entries.any fun e => e.2 == q
  decide (hertz 3000 ≤ band.1 ∧ band.2 ≤ hertz 600000000) &&
    (p.rxPort == 0xFF || (l.port p.rxPort).on) && p.entries.all (fun e => (l.port e.2).on) &&
    (p.rxPort == 0xFF || decide ((rest.filter fun x => x.rxPort == p.rxPort).length < 16)) &&
    p.entries.all fun e =>
      decide ((sends e.2).length < 16) && (sends e.2).all (fun x => !bandsOverlap band (bandOf x.f x.rateK)) && (l.port e.2).allows band

/-- Opcode 0x048. -/
def infoChannelPlace : CmdInfo := ⟨0x048, false, true, setRun⟩

/-- CHANNEL_PLACE: a class 3 action, its conditions checked at acceptance (R131, R133). Every NO_RESOURCE is a placement refused (Table 4.8). -/
def State.channelPlace (acc : Accepted) (s : State) : Answer :=
  let c := acc.cmd.word 8
  let new := parsePlace acc.cmd
  match parseSpec acc.cmd with
  | none => s.hostError 5
  | some spec =>
    if c ≥ 256 ∨ !(new.map Placement.legal).getD true then s.hostError 5
    else if !(new.map (s.line.placementOk c)).getD true then ⟨.noResource, [], { s with line := s.line.countPlace c 1 }⟩
    else
      let ref := match (s.line.chan c).place with
        | some p => p.refPort
        | none => (new.map Placement.refPort).getD 0
      let ans := s.schedule acc spec (.place c new) ref
      if ans.status = .noResource then { ans with state := { s with line := s.line.countPlace c 1 } } else ans

/-- CHANNEL_PLACE (R133). -/
def execChannelPlace (dt : Nat) (cmd : Cmd) (s : State) : Out :=
  .next ((s.advance dt).runL infoChannelPlace cmd true (State.chanRefL (cmd.word 8)) State.channelPlace)

/-- Reception starts afresh after a change of RX_PORT, F or RATE_K (R134, R207): contexts free, committed frames truncated, the hold of the
old reception over. -/
def Chan.restart (t : Tick) (x : Chan) : Chan :=
  let cut := x.frames.filter fun f => decide (t < f.endAt)
  let x := (x.holdFrom.map fun a => x.mark a t).getD x
  let y := { x.freeBoth t with frames := x.frames.map (RxFrame.truncate t), holdFrom := none, holdUntil := none }
  y.countRx 12 cut.length

/-- The frames that the contexts of a channel hold. -/
def Chan.committed (x : Chan) : List W16 := x.ctx.filterMap fun k => match k with | some (.committed r _) => some r | _ => none

/-- Whether two placements receive alike. -/
def sameReception (a b : Option Placement) : Bool :=
  match a, b with
  | some p, some q => p.rxPort == q.rxPort && p.f == q.f && p.rateK == q.rateK
  | none, none => true
  | _, _ => false

/-- A channel that receives anew under a transmission on its port, or within the 10 µs after one, is held (R135); the samples of a CPL_SETTLE interval under
way are marked for it (R127). -/
def Line.holdNew (c : Nat) (l : Line) : Line :=
  let l :=
    if (l.stillHeld c || (l.tailHold c).isSome) && (l.chan c).holdFrom.isNone then
      (l.countPlace c 0).modChan c fun x => { x with holdFrom := some l.clock.tb, holdUntil := if l.stillHeld c then none else l.tailHold c }
    else l
  match (l.chan c).rxPort.bind fun p => (l.port p).settle with
  | some t => l.modChan c fun x => x.mark l.clock.tb t
  | none => l

/-! ## Strokes of a receive port

What is counted in strokes counts those that occur: a count that jumps takes the references along (log 74). -/

/-- The present stroke of a channel's receive port (R257). -/
def Line.rxStroke (l : Line) (c : Nat) : W32 := ((l.chan c).rxPort.bind fun p => l.strokeAt p l.clock.tb).getD 0

/-- A link entry whose strokes are renumbered by `d`. -/
def LinkEntry.renumber (d : Int) (e : LinkEntry) : LinkEntry :=
  { e with heardStroke := strokeAdd e.heardStroke d, offsetAt := strokeAdd e.offsetAt d, washed := e.washed.map (strokeAdd · d),
           report := e.report.map fun r => { r with at_ := strokeAdd r.at_ d } }

/-- A channel whose strokes are renumbered. -/
def Chan.renumber (d : Int) (x : Chan) : Chan :=
  { x with adviceAt := x.adviceAt.map (strokeAdd · d) }

/-- DECODER_LOAD of a channel at the end of a stroke with GRANT codewords (R196). -/
def Line.decoderLoad (c : Nat) (n : W32) (l : Line) : Line :=
  let x := l.chan c
  if x.grants = 0 then l
  else
    (l.modChan c fun x => { x with grants := 0, grantMin := 0 }).chanNote l.clock.tb c 0x050 ([w c] ++ wordsOf 2 n.toNat ++ [w x.grants, w x.grantMin])

/-- The strokes of a channel after a change of its receive port: what is counted in strokes goes on from the stroke that was (R257; log 74), and
the GRANT codewords of the stroke that its reception leaves are reported (R196; log 103). -/
def Line.changeRxPort (c : Nat) (old : Option Nat) (was : W32) (l : Line) : Line :=
  if (l.chan c).rxPort = old then l
  else
    let d := strokeDist was (l.rxStroke c)
    let l := if old.isSome then l.decoderLoad c was else l
    { l.modChan c (Chan.renumber d) with
      links := { l.links with entries := l.links.entries.map fun (e : LinkEntry) => if e.chan = c then e.renumber d else e } }

/-- A placement takes effect (R134). The codewords of the frames that it cuts off go to the decoder array (R194, R207). -/
def Line.place (c : Nat) (new : Option Placement) (tag : W16) (l : Line) : Line :=
  let now := l.clock.tb
  let old := (l.chan c).place
  let oldW := placeWords old
  let newW := placeWords new
  let was := l.rxStroke c
  let l := (old.map (·.rxPort)).elim l fun p => l.modPort p fun q => { q with markEnd := if sameReception old new then q.markEnd else max q.markEnd now }
  let open_ := if sameReception old new then [] else (l.chan c).committed
  let l := if sameReception old new then l else l.keepHeaders c
  let l := l.modChan c fun x => if sameReception old new then { x with place := new } else { x.restart now with place := new }
  let l := (open_.foldl (fun l r => l.queueFrame c r) l).settleEnded c
  let l := (l.changeRxPort c ((old.bind fun p => if p.rxPort = 0xFF then none else some p.rxPort)) was).holdNew c
  let l := ((old.map Placement.entries).getD []).foldl (fun l e => l.settleDrv c e.2 now) l
  l.chanEvent now c 0x045
    ([w c] ++ oldW.take 1 ++ newW.take 1 ++ (oldW.drop 1).take 4 ++ (newW.drop 1).take 4 ++ (oldW.drop 5).take 2 ++ (newW.drop 5).take 2
      ++ oldW.drop 7 ++ newW.drop 7 ++ [tag])

/-- The effect of a placement at its instant: checked again, applied, or dropped with ABORTED (R133). -/
def State.placeEffect (a : Action) (c : Nat) (new : Option Placement) (s : State) : State :=
  let now := s.line.clock.tb
  if (new.map (s.line.placementOk c)).getD true then { s with line := s.line.place c new a.tag }.actionDone a .ok now
  else s.actionDone a .aborted now

/-! ## Settings -/

/-- The ranges of Table 11.15. -/
def chanRanges : List (Nat × Nat) :=
  [(1, 32), (0, 1), (26, 230), (1, 7), (0, 1), (1, 64), (0, 1), (0, 1), (0, 1), (6, 40), (2, 24), (5, 90)] ++ List.replicate 8 (0, 48)
    ++ [(0, 160), (0, 2), (0, 24), (0, 12), (0, 12), (1, 16), (8, 256), (0, 40), (1, 64), (0, 12), (1, 4096), (2, 40), (0, 1)]

/-- The settings with those of a mask replaced by words in index order (R320). -/
def applySettings : Nat → Nat → List W16 → List Nat → List Nat
  | _, _, _, [] => []
  | mask, i, vs, x :: xs =>
    if bitOf mask i then (vs.head?.map (·.toNat)).getD x :: applySettings mask (i + 1) (vs.drop 1) xs
    else x :: applySettings mask (i + 1) vs xs

/-- Opcode 0x049. -/
def infoChannelMode : CmdInfo := ⟨0x049, false, true, setRun⟩

/-- CHANNEL_MODE: a class 3 action (R320). -/
def State.channelMode (acc : Accepted) (s : State) : Answer :=
  let c := acc.cmd.word 8
  let mask := acc.cmd.value 9 3
  let values := acc.cmd.params.drop 9
  let new := applySettings mask 0 values (s.line.chan c).cfg
  match parseSpec acc.cmd with
  | none => s.hostError 5
  | some spec =>
    if c ≥ 256 ∨ mask ≥ 2 ^ 33 ∨ !inRanges chanRanges new then s.hostError 5
    else if nth new 23 0 > nth new 24 0 then ⟨.noResource, [], s⟩
    else s.schedule acc spec (.chanMode c mask values) (s.line.chan c).refPort

/-- CHANNEL_MODE (R320). -/
def execChannelMode (dt : Nat) (cmd : Cmd) (s : State) : Out :=
  .next ((s.advance dt).runL infoChannelMode cmd true (State.chanRefL (cmd.word 8)) State.channelMode)

/-! ## Status -/

/-- The counters of a channel in the order of its status reply (Table 11.8): WRAP rows among them. -/
def Chan.counters (x : Chan) : List Ctr :=
  wrapCtr x.epoch.toNat :: x.ctrs4 ++ x.ctrs6 ++ wrapCtr x.rxCount.toNat :: x.ctrs7 ++ wrapCtr x.origin.toNat :: x.ctrs8 ++ x.ctrs9

/-- A channel with its SAT counters cleared. -/
def Chan.clearCounters (clr : Bool) (x : Chan) : Chan :=
  { x with ctrs4 := clearAll clr x.ctrs4, ctrs6 := clearAll clr x.ctrs6, ctrs7 := clearAll clr x.ctrs7, ctrs8 := clearAll clr x.ctrs8,
           ctrs9 := clearAll clr x.ctrs9 }

/-- Opcode 0x04A. -/
def infoChannelStatus : CmdInfo := ⟨0x04A, true, true, setRun⟩

/-- CHANNEL_STATUS (Table 11.8). -/
def State.channelStatus (acc : Accepted) (s : State) : Answer :=
  let c := acc.cmd.word 3
  let x := s.line.chan c
  if c ≥ 256 then s.hostError 0
  else ⟨.ok, placeWords x.place ++ x.cfg.map w ++ [w x.via] ++ counterWords x.counters,
        { s with line := s.line.modChan c (Chan.clearCounters acc.cmd.clr) }⟩

/-- CHANNEL_STATUS (R317). -/
def execChannelStatus (dt : Nat) (cmd : Cmd) (s : State) : Out :=
  .next ((s.advance dt).runL infoChannelStatus cmd false (State.chanRefL (cmd.word 3)) State.channelStatus)

/-! ## Self-overlap holds -/

/-- SELF_OVERLAP_HOLD_END (R135): a transmission whose first sample has left prolongs the hold. -/
def Line.holdEnd (mode : Mode) (c : Nat) (l : Line) : Line :=
  match (l.chan c).holdUntil with
  | some t => if t ≤ l.clock.tb && !l.stillHeld c && !l.heldAhead mode c then
      l.modChan c fun x => { x.mark (x.holdFrom.getD t) t with holdFrom := none, holdUntil := none }
    else l
  | none => l

/-- SELF_OVERLAP_HOLD_END (R135). -/
def execSelfOverlapHoldEnd (dt : Nat) (channel : Nat) (s : State) : Out := .next ((s.advance dt).onLine (Line.holdEnd s.dev.mode channel))

/-! ## TEST -/

/-- Opcode 0x1C2. -/
def infoTestLoopback : CmdInfo := ⟨0x1C2, false, true, setTest⟩

/-- TEST_LOOPBACK: a transmit port's converter input joins a receive port's path, or is disconnected (Table 11.11). -/
def State.testLoopback (acc : Accepted) (s : State) : Answer :=
  let p := acc.cmd.word 3
  let r := acc.cmd.word 4
  if p ≥ 96 ∨ (r ≥ 96 ∧ r ≠ 0xFF) then s.hostError 0
  else ⟨.ok, [], { s with line := s.line.modPort p fun q => { q with loop := if r = 0xFF then none else some r } }⟩

/-- TEST_LOOPBACK (R317). -/
def execTestLoopback (dt : Nat) (cmd : Cmd) (s : State) : Out :=
  .next ((s.advance dt).runL infoTestLoopback cmd false (State.portRefL (cmd.word 3)) State.testLoopback)

end Sys2Proof.Machine
end

