-- ==== Sys2Proof/Machine/Election.lean ====
section
/-! DEFINITION. The choice of the time parent (R49, R50), the election of a cox (R64) and the schedule that a node follows (R66, R521). -/

namespace Sys2Proof.Machine

/-! ## The time parent -/

/-- The best of the neighbours that answered and that the link table holds (R50). -/
def Line.bestParent (l : Line) : Option TtAnswer :=
  let able := l.time.answers.filter fun a => decide (a.stratum < 14) && l.links.entries.any fun (e : LinkEntry) => e.node == a.node
  match able with
  | [] => none
  | a :: r => some (r.foldl (fun b c =>
      if c.stratum < b.stratum ∨ (c.stratum = b.stratum ∧ (c.e < b.e ∨ (c.e = b.e ∧ c.node.toNat < b.node.toNat))) then c else b) a)

/-- The best answer names the time parent, and with it the parent's stratum and this node's E below it (R49, R50). -/
def Line.chooseParent (l : Line) : Line :=
  let best := l.bestParent
  l.modTime fun x =>
    let e := (best.map TtAnswer.below).getD x.parentE
    { x with parent := best.map TtAnswer.node, parentStratum := (best.map TtAnswer.stratum).getD x.parentStratum, parentE := e,
             eBase := if x.source = 2 then e else x.eBase }

/-! ## The schedule followed -/

/-- The first boundary of a ramp at or after an instant. -/
def Ramp.firstFrom (r : Ramp) (t : Tick) : Tick :=
  let b := r.boundary (r.stroke t)
  if b = t then b else r.boundary (r.stroke t + 1)

/-- Whether a received schedule differs at an instant from the one followed (R66, R521). A provisional one always differs. -/
def Time.differs (x : Time) (segs : List Seg) (t : Tick) : Bool :=
  let next (ss : List Seg) := (segNow ss t).map fun g => (g.ramp.stroke t, g.ramp.boundary (g.ramp.stroke t), g.ramp.boundary (g.ramp.stroke t + 1))
  (x.segs.all fun g => g.pb == 0) || next segs != next x.segs

/-- A received schedule after the held segments that precede it. -/
def mergeSegs (held segs : List Seg) : List Seg :=
  match segs with
  | [] => held
  | a :: _ => (held.filter fun g => decide (g.bEff < a.bEff) && later g.nEff.toNat a.nEff.toNat 32) ++ segs

/-- The schedule of the elected cox is followed: at once where it agrees, else from its first boundary at or after the adoption on, which `again`
says is made anew (R66, R521). A schedule that is being adopted is kept up to date. -/
def Line.follow (again : Bool) (segs : List Seg) (l : Line) : Line :=
  let now := l.clock.tb
  match l.time.adopting, again with
  | some (b, held), false => l.modTime fun x => { x with adopting := some (b, mergeSegs held segs) }
  | _, _ =>
    if l.time.differs segs now then
      l.modTime fun x => { x with adopting := (segNow segs now).map fun g => (g.ramp.firstFrom now, segs) }
    else l.modTime fun x => { x with segs := mergeSegs x.segs segs, adopting := none }

/-! ## The election -/

/-- Whether cox rank `a` is worse than `b`: a higher stratum, or the higher node ID at equal strata (R64). -/
def rankWorse (a b : Nat × W32) : Bool := decide (a.1 > b.1 ∨ (a.1 = b.1 ∧ a.2.toNat > b.2.toNat))

/-- The ranks that a node elects among: its own, when it is eligible, and those heard (R64). -/
def Line.candidates (l : Line) : List (W32 × Nat) :=
  (if l.time.row 9 = 1 ∧ l.time.stratumNow ≤ 14 ∧ l.nodeId ≠ 0 then [(l.nodeId, l.time.stratumNow)] else [])
    ++ l.time.ranks.map fun r => (r.node, r.stratum)

/-- The best rank: the lower stratum, then the lower node ID. -/
def bestRank : List (W32 × Nat) → Option (W32 × Nat)
  | [] => none
  | a :: r => some (r.foldl (fun b c => if rankWorse (b.2, b.1) (c.2, c.1) then c else b) a)

/-- The schedule that a received cox's beacons carried. -/
def Line.heardSegs (l : Line) (node : W32) : List Seg := ((l.time.ranks.find? fun r => r.node == node).map (·.segs)).getD []

/-- The election (R64): a change gives COX_CHANGE; a received cox's schedule is followed. In ISLAND the node takes no part (R71). -/
def Line.elect (mode : Mode) (l : Line) : Line :=
  if mode = .island then l
  else
    let best := bestRank l.candidates
    let old := l.time.cox
    if best = old then l
    else
      let same := decide (old.map (·.1) = best.map (·.1))
      let l := l.modTime fun x => { x with cox := best, isCox := x.isCox && same }
      let id (c : Option (W32 × Nat)) : Nat := (c.map fun c => c.1.toNat).getD 0
      let l := if same then l
        else l.timeEvent 0x014 (wordsOf 2 (id old) ++ wordsOf 2 (id best) ++ [w ((best.map (·.2)).getD 15)])
      match best with
      | none => l
      | some c => if c.1 = l.nodeId then l.modTime fun x => { x with adopting := none } else l.follow true (l.heardSegs c.1)

/-- The node's own rank may have changed: the election, after which launches that count on grid strokes follow a schedule that it changes (R64, R79). -/
def State.elect (s : State) : State :=
  let l := s.line.elect s.dev.mode
  if l.time.segs = s.line.time.segs then { s with line := l } else State.recompute { s with line := l }

end Sys2Proof.Machine
end

