-- ==== Sys2Proof/Machine/Links.lean ====
section
/-! DEFINITION. Link quality (R248 to R273): noise maps, the link table, link reports received, the mode ladder and the held step. -/

namespace Sys2Proof.Machine

/-! ## Noise maps -/

/-- Whether a port transmits a frame now. -/
def Line.transmitting (l : Line) (p : Nat) : Bool :=
  l.fading p

/-- Whether a channel that receives on a port has a candidate or committed frame over a band in Hz (R253). -/
def Line.busyBand (l : Line) (p : Nat) (band : Nat × Nat) : Bool :=
  l.chans.any fun x => match x.place with
    | some q => q.rxPort == p && x.ctx.any Option.isSome && bandsOverlap (bandOf q.f q.rateK) (hertz band.1, hertz band.2)
    | none => false

/-- The phase bin of a port at an instant: that of its local phase, or the place in a pair of synthetic strokes (R57, R252). -/
def Line.phaseBin (l : Line) (p : Nat) (t : Tick) : Nat :=
  if (l.port p).srcNow = 2 then
    let n := l.time.row 5 * 1500
    (t % (2 * n : Nat) * 128 / n).toNat
  else (l.localPhase p t).toNat / 256

/-- The ticks of one passage through a phase bin (R252, R253). -/
def Line.passageTicks (l : Line) (p : Nat) : Nat :=
  if (l.port p).srcNow = 2 then ceilDiv (l.time.row 5 * 1500) 128
  else ceilDiv cycleTicks (256 * (l.time.input (l.time.phaseInput (l.port p).input)).freq)

/-- Whether a passage through a phase bin ends now: the port was in the bin a tick ago and has left it (log 104). -/
def Line.passageEnds (l : Line) (p bin : Nat) : Bool :=
  l.phaseBin p (l.clock.tb - 1) == bin && l.phaseBin p l.clock.tb != bin

/-- Whether a sample of a port's frequency bin has been marked since an instant (R110, R127, R135, R200). -/
def Line.markedSince (l : Line) (p : Nat) (band : Nat × Nat) (a : Tick) : Bool :=
  let q := l.port p
  q.settle.isSome || decide (a ≤ q.markEnd) || l.chans.any fun x => match x.place with
    | some r => r.rxPort == p && bandsOverlap (bandOf r.f r.rateK) (hertz band.1, hertz band.2) &&
        (x.holdFrom.isSome || x.marks.any fun m => decide (a ≤ m.2))
    | none => false

/-- Whether a channel transmitted on a port since an instant (R253). -/
def Line.sentSince (l : Line) (mode : Mode) (p : Nat) (a : Tick) : Bool :=
  l.transmitting p || decide (a ≤ (l.port p).airEnd) || (List.range l.chans.length).any fun d => l.leadsIn mode d p

/-- Whether a channel that receives on a port has had a candidate or committed frame over a band in Hz since an instant (R253). -/
def Line.busySince (l : Line) (p : Nat) (band : Nat × Nat) (a : Tick) : Bool :=
  l.busyBand p band || l.chans.any fun x => match x.place with
    | some q => q.rxPort == p && bandsOverlap (bandOf q.f q.rateK) (hertz band.1, hertz band.2) && decide (a ≤ x.ctxEnd)
    | none => false

/-- Whether an observation of a frequency bin over the passage that ends now may be taken: at every instant of it an input was VALID (R58), no sample
was marked and, outside SURVEY, nothing was sent or received there (R127, R253). -/
def Line.mayObserve (l : Line) (mode : Mode) (p freq : Nat) : Bool :=
  let q := l.port p
  let band := q.binEdges freq
  let a := l.clock.tb - l.passageTicks p
  decide (q.mapSlot < 32 ∧ band.2 ≤ 600000000) && !l.time.mainsLost && decide (l.time.blindEnd < a) && !l.markedSince p band a &&
    (mode == .survey || (!l.sentSince mode p a && !l.busySince p band a))

/-- One observation of a cell (R254), in units of 2^-64 of full scale, counted for its slot (Table 9.9). -/
def Line.observe (p phase : Nat) (cell : Nat × Nat) (l : Line) : Line :=
  let q := l.port p
  let key := cellKey q.mapSlot phase cell.1
  let o : Rat := (cell.2 : Rat) / 2 ^ 64
  let v : Rat := match l.maps.lookup key with
    | none => o
    | some h => h + (o - h) / 2 ^ q.mapAvg
  { l with maps := (key, v) :: l.maps.filter (fun m => m.1 != key), mapCtrs := countAt q.mapSlot 32 1 l.mapCtrs }

/-- NOISE_MAP_OBSERVATION (R253, R254): the end of a passage, with the clip samples of the port since the last report. -/
def execNoiseMapObservation (dt : Nat) (port phaseBin : Nat) (passage : Passage) (s : State) : Out :=
  let s := s.advance dt
  .next (s.onLine fun l =>
    let l := l.noteClips passage.clips
    if !l.passageEnds port phaseBin then l
    else passage.cells.foldl (fun l c => if decide (c.1 < 128) && l.mayObserve s.dev.mode port c.1 then l.observe port phaseBin c else l) l)

/-- The noise-map settings of a port as words: slot, MAP_F0, index of MAP_BINW, log2 of MAP_AVG. -/
def Port.mapRows (q : Port) : List Nat := [q.mapSlot, q.mapF0, q.mapBinw, q.mapAvg]

/-- The settings that a NOISE_MAP_CONFIGURE would leave. -/
def Line.newMapRows (l : Line) (c : Cmd) : List Nat :=
  let old := (l.port (c.word 3)).mapRows
  let pick (i v : Nat) := if bitOf (c.word 4) i then v else nth old i 0
  [pick 0 (c.word 5), pick 1 (c.value 6 2), pick 2 (c.word 8), pick 3 (c.word 9)]

/-- The cells of a slot go (R255). -/
def Line.clearMap (slot : Nat) (l : Line) : Line := { l with maps := l.maps.filter fun m => m.1 / 32768 != slot }

/-- Opcode 0x060. -/
def infoNoiseMapConfigure : CmdInfo := ⟨0x060, false, true, setRun⟩

/-- NOISE_MAP_CONFIGURE (R255). -/
def State.mapConfigure (acc : Accepted) (s : State) : Answer :=
  let p := acc.cmd.word 3
  let l := s.line
  let new := l.newMapRows acc.cmd
  let old := (l.port p).mapRows
  let slot := nth new 0 0
  if p ≥ 96 ∨ (slot ≥ 32 ∧ slot ≠ 0xFF) ∨ nth new 1 0 > 599980000 ∨ nth new 1 0 % 1000 ≠ 0 ∨ nth new 2 0 > 7 ∨ nth new 3 0 > 8 then
    s.hostError 0
  else if slot < 32 ∧ l.ports.zipIdx.any (fun q => q.2 != p && q.1.mapSlot == slot) then ⟨.noResource, [], s⟩
  else if new = old then ⟨.ok, [], s⟩
  else
    let l := if new.take 3 = old.take 3 then l else (l.clearMap (nth old 0 0)).clearMap slot
    let l := l.modPort p fun q => { q with mapSlot := slot, mapF0 := nth new 1 0, mapBinw := nth new 2 0, mapAvg := nth new 3 0 }
    ⟨.ok, [], { s with line := l.portConfigEvent p acc.cmd.tag (2 ^ 15) }⟩

/-- NOISE_MAP_CONFIGURE (R255). -/
def execNoiseMapConfigure (dt : Nat) (cmd : Cmd) (s : State) : Out :=
  .next ((s.advance dt).runL infoNoiseMapConfigure cmd false (State.portRefL (cmd.word 3)) State.mapConfigure)

/-- Opcode 0x061. -/
def infoNoiseMapRead : CmdInfo := ⟨0x061, true, true, setRun⟩

/-- NOISE_MAP_READ: a rectangle of cells, phase bin by phase bin (R256). -/
def State.mapRead (acc : Accepted) (s : State) : Answer :=
  let c := acc.cmd
  let q := s.line.port (c.word 3)
  if c.word 3 ≥ 96 ∨ c.word 5 * c.word 7 = 0 ∨ c.word 5 * c.word 7 > 1024 ∨ c.word 4 + c.word 5 > 256 ∨ c.word 6 + c.word 7 > 128 then
    s.hostError 4
  else
    ⟨.ok, wordsOf 2 q.mapF0 ++ wordsOf 2 (nth binWidths q.mapBinw 5000000)
      ++ (List.range (c.word 5)).flatMap (fun i => (List.range (c.word 7)).map fun j =>
           w (s.line.cellValue (c.word 3) (c.word 4 + i) (c.word 6 + j))), s⟩

/-- NOISE_MAP_READ (R256). -/
def execNoiseMapRead (dt : Nat) (cmd : Cmd) (s : State) : Out :=
  .next ((s.advance dt).runL infoNoiseMapRead cmd false (State.portRefL (cmd.word 3)) State.mapRead)

/-! ## The mode ladder -/

/-- MOD and RATE of a step (Table 9.5). -/
def stepMod (s : Nat) : Nat × Nat :=
  nth [(7, 0), (6, 0), (0, 0), (1, 0), (1, 2), (2, 0), (2, 2), (3, 1), (3, 3), (4, 2), (4, 3), (5, 2), (5, 3)] s (5, 3)

/-- The threshold of a step in dB at Z = 192 (Table 9.5). -/
def stepThreshold (s : Nat) : Rat := (nth [-88, -70, -10, 20, 50, 75, 110, 150, 180, 215, 240, 270, 300] s (300 : Int) : Rat) / 10

/-- Information bits per symbol of a MOD and RATE (Table 9.5). -/
def bitsPerSymbol (mod rate : Nat) : Rat := (symbolBits mod * infoBlocks rate : Nat) / ((24 * repeats mod : Nat) : Rat)

/-- The step of a MOD and RATE (R265). -/
def stepOf (mod rate : Nat) : Nat :=
  (((List.range 13).filter fun s => decide (bitsPerSymbol (stepMod s).1 (stepMod s).2 ≤ bitsPerSymbol mod rate)).getLast?).getD 0

/-- The lift rule: the largest Z whose fill is at most an eighth of the payload (R265). -/
def liftRule (rate len : Nat) : Nat :=
  (([3, 2, 1].find? fun z =>
    decide (codewordCount rate z len * infoBits rate z - payloadBits len ≤ payloadBits len / 8))).getD 0

/-- A Q8.8 value in dB. -/
def q88 (v : W16) : Rat := (toSigned 16 v.toNat : Rat) / 256

/-- A value in dB as signed Q8.8, saturating (R250, R519). -/
def toQ88 (x : Rat) : W16 := BitVec.ofNat 16 (ofSigned 16 (max (-32767) (min 32767 (roundRat (x * 256)))))

/-- REPORT_PERIOD in strokes. -/
def Line.reportPeriod (l : Line) : Nat := 2 ^ l.reportLog

/-- The strokes since a neighbour's report. -/
def LinkEntry.since? (l : Line) (e : LinkEntry) : Option Nat := e.report.map fun r => (strokeDist r.at_ (l.rxStroke e.chan)).toNat

/-- The age of a neighbour's report in REPORT_PERIOD units, as it is reported: rounded (R519, Table 9.2). -/
def LinkEntry.age (l : Line) (e : LinkEntry) : Option Nat := (e.since? l).map fun n => (roundDiv n l.reportPeriod).toNat

/-- Whether a neighbour's report is at most two periods old, by the exact age (log 127). -/
def LinkEntry.fresh (l : Line) (e : LinkEntry) : Bool := (e.since? l).any fun n => decide (n ≤ 2 * l.reportPeriod)

/-- WASH_RX: strokes with a wash among the last 64 (Table 9.2). -/
def LinkEntry.washRx (l : Line) (e : LinkEntry) : Nat :=
  min 64 ((e.washed.filter fun n => decide (strokeDist n (l.rxStroke e.chan) < 64)).length)

/-- A measure as signed Q8.8, 0x8000 where it is not available (R250). -/
def measureWord (x : Option Rat) : W16 := (x.map toQ88).getD 0x8000

/-- A measure that a Q8.8 word carries (R250). -/
def measureOf (v : W16) : Option Rat := if v = 0x8000 then none else some (q88 v)

/-- min(SNR, -EVM) in dB; free where a measure is not available (R250, R268; log 101). -/
def minSnr (snr evm : Option Rat) : Rat :=
  match snr, evm with
  | some a, some b => min a (-b)
  | _, _ => q88 (Config.freeSEff (measureWord snr) (measureWord evm))

/-- s_eff of an entry in dB (R268). -/
def LinkEntry.sEff (l : Line) (e : LinkEntry) : Rat :=
  match e.report.filter fun _ => e.fresh l with
  | some r => minSnr (measureOf r.snr) (measureOf r.evm)
  | none => minSnr e.snr e.evm - ((l.chan e.chan).row 27 : Rat) / 2

/-- wash_drop of an entry (R268). -/
def LinkEntry.washDrop (l : Line) (e : LinkEntry) : Nat :=
  let x := l.chan e.chan
  if max (e.washRx l) ((e.report.map (·.wash)).getD 0) ≥ x.row 28 then x.row 29 else 0

/-- Whether a neighbour hears the repetition of a step (R268). -/
def hearsStep (hyp s : Nat) : Bool := decide (s ≥ 2) || bitOf hyp (if s = 1 then 1 else 2)

/-- The first step from `c` on that is at least the floor and that the neighbour hears (R268). -/
def raiseStep (hyp floor : Nat) (c : Int) : Nat :=
  ((List.range 13).find? fun (s : Nat) => decide ((s : Int) ≥ c ∧ s ≥ floor) && hearsStep hyp s).getD 12

/-- The step that an entry gives before the final minimum (R268): `profile` in dB, `top` the ceiling, `len` LEN_M1. -/
def LinkEntry.rawStep (l : Line) (e : LinkEntry) (profile : Rat) (top len : Nat) : Nat :=
  let x := l.chan e.chan
  let floor := x.row 23
  let s := e.sEff l - profile - (x.row 22 : Rat) / 2
  let fits (k : Nat) : Bool :=
    let lift := liftRule (stepMod k).2 len
    hearsStep e.hyp k && decide (stepThreshold k + ((3 - lift : Nat) : Rat) / 2 ≤ s)
  let c := (((List.range (top + 1 - floor)).map (top - ·)).find? fits).getD floor
  match e.pin with
  | some p => p
  | none => raiseStep e.hyp floor ((c : Int) - e.washDrop l - e.offset)

/-! ## Entries -/

/-- An entry changed. -/
def Line.modEntry (i : Nat) (f : LinkEntry → LinkEntry) (l : Line) : Line :=
  { l with links := { l.links with entries := l.links.entries.map fun e => if e.index = i then f e else e } }

/-- The epoch of an index incremented. -/
def bumpIndex (es : List (Nat × W16)) (i : Nat) : List (Nat × W16) := (i, epochOfIndex es i + 1) :: es.filter fun p => p.1 != i

/-- A change of an entry that produces no record of its own increments its epoch (R259). -/
def Line.bumpLink (i : Nat) (l : Line) : Line := { l with links := { l.links with epochs := bumpIndex l.links.epochs i } }

/-- A link event with its epoch (Table 9.8); its source is the channel (log 43). -/
def Line.linkEvent (c i code : Nat) (fields : List W16) (l : Line) : Line :=
  let l := l.bumpLink i
  l.event code (0x200 + c) 5 true (epochOfIndex l.links.epochs i) i fields

/-- Counter `i` of Table 9.9 of a channel. -/
def Line.countLink (c i : Nat) (l : Line) : Line :=
  l.modChan c fun x => { x with ctrs9 := countAt i (nth [32, 16, 32, 16, 16, 32] i 32) 1 x.ctrs9 }

/-- A new held step, with LINK_STEP when it changes (R269). -/
def Line.setHeld (e : LinkEntry) (held cause : Nat) (l : Line) : Line :=
  if held = e.held then l
  else
    ((l.modEntry e.index fun x => { x with held := held }).countLink e.chan 5).linkEvent e.chan e.index 0x062
      (wordsOf 2 e.node.toNat ++ [w e.chan, w e.held, w held, w cause, toQ88 (e.sEff l)])

/-- The payload length that an evaluation of an entry takes: that of the last frame whose step it gave, else a free one (log 46). -/
def LinkEntry.evalLen (now : Tick) (e : LinkEntry) : Nat := e.lastLen.getD (15 + (Config.freeEvalLen e.index now.toNat).toNat % 32753)

/-- An evaluation of an entry (R269): `report` on a valid report. R_ITER is 0 where no report about this node has been stored, so that the held step may
rise (DESIGN CHOICE, log 128). -/
def Line.evaluate (i cause : Nat) (report : Bool) (l : Line) : Line :=
  match l.links.entries.find? fun e => e.index == i with
  | none => l
  | some e =>
    let x := l.chan e.chan
    let c := e.rawStep l 0 (x.row 24) (e.evalLen l.clock.tb)
    let l := l.modEntry i fun e => { e with dropped := e.washDrop l }
    if e.pin.isSome || decide (c < e.held) then (l.modEntry i fun e => { e with ups := 0 }).setHeld e c cause
    else if !report then l
    else if c = e.held then l.modEntry i fun e => { e with ups := 0 }
    else
      let iterOk := decide ((e.report.map (·.iter)).getD 0 ≤ x.row 26)
      if e.ups + 1 ≥ x.row 25 ∧ iterOk = true then (l.modEntry i fun e => { e with ups := 0 }).setHeld e (e.held + 1) cause
      else l.modEntry i fun e => { e with ups := e.ups + 1 }

/-- Entries are evaluated where their wash_drop has changed (R269). -/
def Line.washDrops (which : LinkEntry → Bool) (l : Line) : Line :=
  (l.links.entries.filter which).foldl (fun l e => if e.washDrop l = e.dropped then l else l.evaluate e.index 2 false) l

/-- A frame as its entry measures it: SNR and EVM in dB where they are available, mean iterations, strokes with a wash (R258). -/
structure Heard where
  snr : Option Rat
  evm : Option Rat
  iter : Rat
  washes : List W32
  at_ : Tick
  stroke : W32

/-- An entry after a frame (R258). A measure that the frame does not have leaves its average (R250; log 101). -/
def LinkEntry.hear (h : Heard) (e : LinkEntry) : LinkEntry :=
  let avg (a x : Rat) : Rat := a + (x - a) / 8
  let avg? (a x : Option Rat) : Option Rat := match a, x with | some a, some x => some (avg a x) | a, x => a.or x
  { e with snr := avg? e.snr h.snr, evm := avg? e.evm h.evm, iter := if e.heard.val = 0 then h.iter else avg e.iter h.iter, heard := satAdd 32 1 e.heard,
           since := min 65535 (e.since + 1), heardAt := h.at_, heardStroke := h.stroke,
           washed := ((h.washes ++ e.washed).filter fun n => decide (strokeDist n h.stroke < 64)).dedup }

/-- An entry at its creation: held step 12 (R269), HYP of every repetition and no profile until a report (log 44). -/
def LinkEntry.new (i : Nat) (node : W32) (c : Nat) : LinkEntry :=
  { index := i, node := node, chan := c, stale := false, held := 12, snr := none, evm := none, iter := 0, washed := [], heard := Ctr.zero, since := 0,
    heardAt := 0, heardStroke := 0, report := none, hyp := 7, profile := List.replicate 8 0xFF, pin := none, offset := 0, offsetAt := 0,
    ups := 0, dropped := 0, lastLen := none }

/-- A change of an entry's state, with LINK_STATE (R257, Table 9.8). The time parent is chosen anew when one goes (R50). -/
def Line.linkState (e : LinkEntry) (new : Nat) (l : Line) : Line :=
  let l := if new = 2 then Line.chooseParent { l with links := { l.links with entries := l.links.entries.filter fun x => x.index != e.index } }
    else l.modEntry e.index fun x => { x with stale := decide (new = 1) }
  l.linkEvent e.chan e.index 0x061 (wordsOf 2 e.node.toNat ++ [w e.chan, w (b2n e.stale), w new])

/-- The index for a new neighbour: an unused one, else that of the STALE entry heard longest ago, which goes (R258). -/
def Line.linkRoom (l : Line) : Option Nat × Line :=
  match freeIndex 2048 (l.links.entries.map (·.index)) with
  | some i => (some i, l)
  | none =>
    let oldest := (l.links.entries.filter (·.stale)).foldl (fun b e =>
      match b with
      | none => some e
      | some x => if e.heardAt < x.heardAt then some e else some x) (none : Option LinkEntry)
    match oldest with
    | some e => (some e.index, l.linkState e 2)
    | none => (none, { l with links := { l.links with refused := satAdd 16 1 l.links.refused } })

/-- A GOOD frame of HOP_COUNT 0 from another node creates or updates its entry and may evaluate it (R257, R258, R269). -/
def Line.hearNode (c : Nat) (node : W32) (h : Heard) (l : Line) : Line :=
  let l := match l.entry? c node with
    | some e => if e.stale then l.linkState e 0 else l
    | none =>
      match l.linkRoom with
      | (some i, l) =>
        ({ l with links := { l.links with entries := l.links.entries ++ [LinkEntry.new i node c] } }).linkEvent c i 0x060
          (wordsOf 2 node.toNat ++ [w c, w i])
      | (none, l) => l
  match l.entry? c node with
  | none => l
  | some e =>
    let l := l.modEntry e.index (LinkEntry.hear h)
    match l.entry? c node with
    | none => l
    | some e' =>
      if e'.washDrop l != e'.dropped then l.evaluate e.index 2 false
      else if !e'.fresh l then l.evaluate e.index 1 false else l

/-- LINK_AGE_EXPIRY (R257). -/
def Line.linkAgeOut (i : Nat) (l : Line) : Line :=
  match l.links.entries.find? fun e => e.index == i with
  | some e => if !e.stale && decide (strokeDist e.heardStroke (l.rxStroke e.chan) ≥ l.linkAge) then l.linkState e 1 else l
  | none => l

/-- LINK_AGE_EXPIRY (R257). -/
def execLinkAgeExpiry (dt : Nat) (index : Nat) (s : State) : Out := .next ((s.advance dt).onLine (Line.linkAgeOut index))

/-- LINK_REMOVAL (R257). -/
def Line.linkRemove (i : Nat) (l : Line) : Line :=
  match l.links.entries.find? fun e => e.index == i with
  | some e => if decide (strokeDist e.heardStroke (l.rxStroke e.chan) ≥ 4 * l.linkAge) then l.linkState e 2 else l
  | none => l

/-- LINK_REMOVAL (R257): the node's own rank follows its time parent (R50, R64). -/
def execLinkRemoval (dt : Nat) (index : Nat) (s : State) : Out :=
  let s := s.advance dt
  .next (State.elect { s with line := s.line.linkRemove index }).flush

/-- VERDICT_DECAY: VERDICT_HOLD strokes without a verdict (R270). -/
def Line.verdictDecay (i : Nat) (l : Line) : Line :=
  match l.links.entries.find? fun e => e.index == i with
  | none => l
  | some e =>
    let now := l.rxStroke e.chan
    if e.offset = 0 ∨ strokeDist e.offsetAt now < (l.chan e.chan).row 30 then l
    else (l.modEntry i fun e => { e with offset := e.offset - 1, offsetAt := now }).evaluate i 5 false

/-- VERDICT_DECAY (R270). -/
def execVerdictDecay (dt : Nat) (index : Nat) (s : State) : Out := .next ((s.advance dt).onLine (Line.verdictDecay index))

/-! ## Link reports received -/

/-- The median of values, the mean of the two middle ones for an even count. -/
def median (xs : List Int) : Option Rat :=
  let s := xs.insertionSort fun a b => a ≤ b
  match s with
  | [] => none
  | _ => some (if s.length % 2 = 1 then (nth s (s.length / 2) 0 : Rat) else ((nth s (s.length / 2 - 1) 0 + nth s (s.length / 2) 0 : Int) : Rat) / 2)

/-- RATE_ADVICE at a valid report (R272). -/
def Line.rateAdvice (c : Nat) (l : Line) : Line :=
  let x := l.chan c
  let es := l.links.entries.filter fun e => e.chan == c && !e.stale && e.fresh l
  let dist := median ((es.filterMap (·.report)).filterMap fun r =>
    if r.snr = 0x8000 ∨ r.evm = 0x8000 then none else some (toSigned 16 r.snr.toNat + toSigned 16 r.evm.toNat))
  match dist with
  | none => l.modChan c fun x => { x with distRun := 0, headRun := 0 }
  | some d =>
    let worse := decide (d ≥ ((x.row 31 * 128 : Nat) : Rat))
    let better := decide (d < 256) && es.all fun e => e.held == 12 && decide (e.sEff l ≥ 40)
    let dr := if worse then x.distRun + 1 else 0
    let hr := if better then x.headRun + 1 else 0
    let l := l.modChan c fun x => { x with distRun := dr, headRun := hr }
    let now := l.rxStroke c
    let free := match x.adviceAt with | some n => decide (strokeDist n now ≥ 16 * l.reportPeriod) | none => true
    let advise (k reason : Nat) (l : Line) : Line :=
      (l.modChan c fun x => { x with adviceAt := some now }).chanNote l.clock.tb c 0x063 [w c, w x.rateK, w k, w reason, toQ88 (d / 256)]
    if free && decide (dr ≥ 4 ∧ x.rateK < 12) then advise (x.rateK + 1) 0 l
    else if free && decide (hr ≥ 4 ∧ x.rateK > 0) then advise (x.rateK - 1) 1 l else l

/-- The bytes of entry `i` of a report (Table 9.4). -/
def reportEntry (b : List Byte) (i : Nat) : List Byte := (b.drop (32 + 12 * i)).take 12

/-- Whether a report is valid for the receiving channel (R264). -/
def reportOk (rateK len : Nat) (b : List Byte) : Bool :=
  nth b 16 0 == 1 && decide (len = 31 + 12 * (nth b 18 0).toNat) && decide ((nth b 18 0).toNat ≤ 32) && decide ((nth b 19 0).toNat = rateK)

/-- What a report says of this node, from its entry for it (R264). -/
def reportAbout (node : W32) (at_ : W32) (b : List Byte) : Option PeerReport :=
  let es := (List.range (nth b 18 0).toNat).map (reportEntry b)
  (es.find? fun e => decide (beNat (e.take 4) = node.toNat)).map fun e =>
    { snr := w (beNat ((e.drop 4).take 2)), evm := w (beNat ((e.drop 6).take 2)), iter := (nth e 8 0).toNat, wash := (nth e 9 0).toNat, at_ := at_ }

/-- A link report taken up (R264): stored and evaluated where its SRC has an entry, and advice given (R272); or rejected and counted. -/
def Line.report (g : GoodFrame) (l : Line) : Line :=
  let c := g.chan
  if !reportOk (l.chan c).rateK (hdrLen g.frame.hdr) g.bytes then l.countLink c 3
  else
    let l := l.countLink c 2
    match l.entry? c (hopSrc g.bytes) with
    | none => l.rateAdvice c
    | some e =>
      let about := reportAbout l.nodeId (l.rxStroke c) g.bytes
      let l := l.modEntry e.index fun e =>
        { e with hyp := (nth g.bytes 17 0).toNat % 8, profile := ((g.bytes.drop 24).take 8).map (·.toNat), report := about.or e.report }
      (l.evaluate e.index 0 true).rateAdvice c

/-- LINK_REPORT_RECEIVED (R264). -/
def execLinkReportReceived (dt : Nat) (s : State) : Out :=
  let s := s.advance dt
  .next (match s.line.links.inbox with
    | [] => s
    | g :: rest => s.onLine fun l => { l with links := { l.links with inbox := rest } }.report g)

/-! ## Commands -/

/-- The words of an entry (Table 9.2). -/
def LinkEntry.words (l : Line) (e : LinkEntry) : List W16 :=
  let r := e.report.getD { snr := 0x8000, evm := 0x8000, iter := 0, wash := 0, at_ := 0 }
  wordsOf 2 e.node.toNat
    ++ [w (e.chan * 256 + b2n e.stale * 64 + b2n e.pin.isSome * 32 + e.held), epochOfIndex l.links.epochs e.index, measureWord e.snr, measureWord e.evm,
        w ((max 8 (min 255 (roundRat (e.iter * 8)).toNat)) * 256 + e.washRx l)]
    ++ wordsOf 2 e.heard.val ++ tickWords e.heardAt
    ++ [r.snr, r.evm, w (r.iter * 256 + r.wash), w ((((e.age l).map (min 254)).getD 0xFF) * 256 + e.hyp)]
    ++ (List.range 4).map (fun i => w (nth e.profile (2 * i) 0xFF + 256 * nth e.profile (2 * i + 1) 0xFF))
    ++ [w ((e.pin.getD 0xFF) * 256 + e.offset * 16)]

/-- Opcode 0x062. -/
def infoLinkTableRead : CmdInfo := ⟨0x062, true, true, setRun⟩

/-- LINK_TABLE_READ (R260). -/
def State.linkTableRead (acc : Accepted) (s : State) : Answer :=
  let c := acc.cmd
  if c.word 4 = 0 ∨ c.word 4 > 46 then s.hostError 1
  else
    let es := s.line.linkSlice c
    ⟨.ok, w es.length :: es.flatMap (fun e => w e.index :: e.words s.line), s⟩

/-- LINK_TABLE_READ (R260). -/
def execLinkTableRead (dt : Nat) (cmd : Cmd) (s : State) : Out :=
  .next ((s.advance dt).runL infoLinkTableRead cmd false (State.linkReadRef cmd) State.linkTableRead)

/-- Opcode 0x063. -/
def infoLinkVerdict : CmdInfo := ⟨0x063, false, true, setRun⟩

/-- One verdict (R270): it raises the offset by 1, up to 12, and evaluates the entry. -/
def Line.oneVerdict (c i : Nat) (l : Line) : Line :=
  (l.modEntry i fun e => { e with offset := min 12 (e.offset + 1), offsetAt := l.rxStroke c }).evaluate i 3 false

/-- LINK_VERDICT: as many verdicts as it counts (R270). -/
def State.linkVerdict (acc : Accepted) (s : State) : Answer :=
  let c := acc.cmd.word 3
  let n := acc.cmd.word 6
  match s.line.entry? c (BitVec.ofNat 32 (acc.cmd.value 4 2)) with
  | none => ⟨.noResource, [], s⟩
  | some e =>
    if n = 0 ∨ n > 12 then s.hostError 1
    else
      let l := (List.range n).foldl (fun l _ => l.oneVerdict c e.index) (s.line.countLink c 4)
      ⟨.ok, [w (min 12 (e.offset + n))], { s with line := l }⟩

/-- LINK_VERDICT (R270). -/
def execLinkVerdict (dt : Nat) (cmd : Cmd) (s : State) : Out :=
  .next ((s.advance dt).runL infoLinkVerdict cmd false (State.linkNamedRef cmd) State.linkVerdict)

/-- Opcode 0x064. -/
def infoLinkPin : CmdInfo := ⟨0x064, false, true, setRun⟩

/-- LINK_PIN sets or clears an entry's pin; the held step follows it (R271). -/
def State.linkPin (acc : Accepted) (s : State) : Answer :=
  let c := acc.cmd.word 3
  let v := acc.cmd.word 6
  let node := BitVec.ofNat 32 (acc.cmd.value 4 2)
  match s.line.entry? c node with
  | none => ⟨.noResource, [], s⟩
  | some e =>
    if v > 12 ∧ v ≠ 0xFF then s.hostError 1
    else
      let pin := if v = 0xFF then none else some v
      let l := if pin = e.pin then s.line else (s.line.modEntry e.index fun e => { e with pin := pin }).bumpLink e.index
      let l := l.evaluate e.index 4 false
      ⟨.ok, [w (((l.entry? c node).map (·.held)).getD 0)], { s with line := l }⟩

/-- LINK_PIN (R271). -/
def execLinkPin (dt : Nat) (cmd : Cmd) (s : State) : Out :=
  .next ((s.advance dt).runL infoLinkPin cmd false (State.linkNamedRef cmd) State.linkPin)

/-! ## The choice for a frame -/

/-- The profile groups that an interval meets on a port's grid (R263, R268). -/
def Line.groups (l : Line) (p : Nat) (a b : Tick) : List Nat :=
  let quarter (t : Tick) : W32 × Nat :=
    let so := l.strokeOffset p t
    let len := l.strokeLength p so.1
    (so.1, min 3 ((so.2 * 4 * 65536 / len).toNat))
  let x := quarter a
  let y := quarter b
  let n := (strokeDist x.1 y.1 * 4 + y.2 - x.2).toNat + 1
  (List.range (min 8 n)).map fun j => (x.1.toNat % 2 * 4 + x.2 + j) % 8

/-- The highest profile of an entry over an interval, in dB (R268). -/
def Line.profileOver (l : Line) (e : LinkEntry) (a b : Tick) : Rat :=
  let p := (l.chan e.chan).refPort
  if (l.port p).srcNow ≠ 0 then 0
  else ((((l.groups p a b).map fun g => nth e.profile g 0xFF).map fun v => if v = 0xFF then 0 else v).foldl max 0 : Nat) / (2 : Rat)

/-- The ceiling of the choice for a descriptor (R268): ADAPT 1 is CEIL. -/
def Chan.ceiling (x : Chan) (mod rate : Nat) : Nat := if x.row 21 = 1 then min (x.row 24) (stepOf mod rate) else x.row 24

/-- A descriptor with the MOD, RATE and LIFT of a step. -/
def FrameDesc.atStep (d : FrameDesc) (s : Nat) : FrameDesc :=
  { d with mod := (stepMod s).1, rate := (stepMod s).2, lift := liftRule (stepMod s).2 (lenM1 d) }

/-- The end of a frame launched at an instant. -/
def Line.descEnd (l : Line) (d : FrameDesc) (t : Tick) : Tick := t + frameTicks (l.chan d.chan).rateK d.mod d.rate d.lift (lenM1 d)

/-- The step that an entry gives a frame (R268); its interval is taken at the descriptor's own MOD, RATE and LIFT (log 47). -/
def Line.chooseFor (l : Line) (e : LinkEntry) (d : FrameDesc) (t : Tick) : Nat :=
  let top := (l.chan d.chan).ceiling d.mod d.rate
  match e.pin with
  | some p => p
  | none => min (e.rawStep l (l.profileOver e t (l.descEnd d t)) top (lenM1 d)) (min e.held top)

/-- The entries that the choice for a frame uses (R267). -/
def Line.choiceEntries (l : Line) (d : FrameDesc) : List LinkEntry :=
  let active := l.links.entries.filter fun e => e.chan == d.chan && !e.stale
  if d.type = 0 then
    match l.entry? d.chan d.dest with
    | some e => if e.stale then [] else [e]
    | none =>
      let able := active.filter fun e => decide (e.sEff l ≥ (l.relay.ucFloor : Rat) / 2)
      if able.isEmpty then active else able
  else active

/-- The step that a frame starts from; none where the descriptor's values are sent unchanged (R267). -/
def Line.choiceStep (l : Line) (d : FrameDesc) (t : Tick) : Option Nat :=
  if (l.chan d.chan).row 21 = 0 then none
  else match (l.choiceEntries d).map fun e => l.chooseFor e d t with
    | [] => none
    | a :: r => some (r.foldl min a)

end Sys2Proof.Machine
end

