-- ==== Sys2Proof/Machine/ChanActions.lean ====
section
/-! DEFINITION. Class 3 actions at their instant (R89, R92, R134, R320): placements, channel settings, and what waits for a frame's end. -/

namespace Sys2Proof.Machine

/-- Settings take effect, with the CHANNEL_MODE event when any changes (R320, R321). A wash_drop that they change is evaluated (R269). -/
def Line.setChan (c mask : Nat) (values : List W16) (tag : W16) (l : Line) : Line :=
  let new := applySettings mask 0 values (l.chan c).cfg
  if new = (l.chan c).cfg then l
  else
    ((l.modChan c fun x => { x with cfg := new }).chanEvent l.clock.tb c 0x046 ([w c, tag, 0x049] ++ wordsOf 3 mask)).washDrops fun e => e.chan == c

/-- The effect of a class 3 action at the instant at which it acts. -/
def State.chanEffect (a : Action) (s : State) : State :=
  match a.kind with
  | .place c new => s.placeEffect a c new
  | .chanMode c mask values => { s with line := s.line.setChan c mask values a.tag }.actionDone a .ok s.line.clock.tb
  | .modeSet _ => s | .lineFirmware _ _ => s | .mute _ _ => s | .unmute _ => s | .frames _ => s

/-- A class 3 action at its L: its expected epoch is compared there, before any other check (R92; log 96). Then it acts, or waits for the end under
R145 of the frame on air of its channel (R89). -/
def State.classThree (a : Action) (s : State) : State :=
  if s.stale a then s.actionDone a .epochStale s.line.clock.tb
  else match (s.line.chan a.kind.unit.2.1).onAir with
    | some o =>
      if o.endAt ≤ s.line.clock.tb then s.chanEffect a
      else { s with line := s.line.modAction a.id fun a => { a with deferred := some o.endAt } }
    | none => s.chanEffect a

/-- Whether an action is a placement. -/
def ActKind.places : ActKind → Bool
  | .place _ _ => true
  | .modeSet _ => false | .lineFirmware _ _ => false | .mute _ _ => false | .unmute _ => false | .chanMode _ _ _ => false | .frames _ => false

/-- PLACEMENT_TAKES_EFFECT (R89, R134). -/
def execPlacementTakesEffect (dt : Nat) (action : Nat) (s : State) : Out :=
  let s := s.advance dt
  .next (match (s.line.dueAction action).filter fun a => a.kind.places with
    | some a => (s.classThree a).flush
    | none => s)

/-- CHANNEL_MODE_TAKES_EFFECT (R89, R320). -/
def execChannelModeTakesEffect (dt : Nat) (action : Nat) (s : State) : Out :=
  let s := s.advance dt
  .next (match (s.line.dueAction action).filter fun a => a.kind.cls == 3 && !a.kind.places with
    | some a => (s.classThree a).flush
    | none => s)

/-- A deferred action whose instant is this tick, every action that goes before it having acted (R84, R88, R89). -/
def Line.deferredNow (l : Line) (id : Nat) : Option Action :=
  (l.action? id).filter fun a => a.deferred == some l.clock.tb && !l.mustWait a (a.units fun _ => true)

/-- DEFERRED_CHANNEL_ACTION: at the end of the frame on air (R89). -/
def execDeferredChannelAction (dt : Nat) (action : Nat) (s : State) : Out :=
  let s := s.advance dt
  .next (match s.line.deferredNow action with
    | some a => (s.chanEffect a).flush
    | none => s)

end Sys2Proof.Machine
end

