-- ==== Sys2Proof/Machine/Aes.lean ====
section
/-! DEFINITION. AES and its three modes as the published standards define them (R411, R412; log 6): FIPS 197, SP 800-38A (CTR),
SP 800-38C (CCM with n = 12, q = 3) and SP 800-38D (GCM with a 96-bit IV). -/

namespace Sys2Proof.Machine

/-- S-box row 0 (FIPS 197). -/
def sboxRow0 : List Byte := [0x63, 0x7C, 0x77, 0x7B, 0xF2, 0x6B, 0x6F, 0xC5, 0x30, 0x01, 0x67, 0x2B, 0xFE, 0xD7, 0xAB, 0x76]
/-- S-box row 1 (FIPS 197). -/
def sboxRow1 : List Byte := [0xCA, 0x82, 0xC9, 0x7D, 0xFA, 0x59, 0x47, 0xF0, 0xAD, 0xD4, 0xA2, 0xAF, 0x9C, 0xA4, 0x72, 0xC0]
/-- S-box row 2 (FIPS 197). -/
def sboxRow2 : List Byte := [0xB7, 0xFD, 0x93, 0x26, 0x36, 0x3F, 0xF7, 0xCC, 0x34, 0xA5, 0xE5, 0xF1, 0x71, 0xD8, 0x31, 0x15]
/-- S-box row 3 (FIPS 197). -/
def sboxRow3 : List Byte := [0x04, 0xC7, 0x23, 0xC3, 0x18, 0x96, 0x05, 0x9A, 0x07, 0x12, 0x80, 0xE2, 0xEB, 0x27, 0xB2, 0x75]
/-- S-box row 4 (FIPS 197). -/
def sboxRow4 : List Byte := [0x09, 0x83, 0x2C, 0x1A, 0x1B, 0x6E, 0x5A, 0xA0, 0x52, 0x3B, 0xD6, 0xB3, 0x29, 0xE3, 0x2F, 0x84]
/-- S-box row 5 (FIPS 197). -/
def sboxRow5 : List Byte := [0x53, 0xD1, 0x00, 0xED, 0x20, 0xFC, 0xB1, 0x5B, 0x6A, 0xCB, 0xBE, 0x39, 0x4A, 0x4C, 0x58, 0xCF]
/-- S-box row 6 (FIPS 197). -/
def sboxRow6 : List Byte := [0xD0, 0xEF, 0xAA, 0xFB, 0x43, 0x4D, 0x33, 0x85, 0x45, 0xF9, 0x02, 0x7F, 0x50, 0x3C, 0x9F, 0xA8]
/-- S-box row 7 (FIPS 197). -/
def sboxRow7 : List Byte := [0x51, 0xA3, 0x40, 0x8F, 0x92, 0x9D, 0x38, 0xF5, 0xBC, 0xB6, 0xDA, 0x21, 0x10, 0xFF, 0xF3, 0xD2]
/-- S-box row 8 (FIPS 197). -/
def sboxRow8 : List Byte := [0xCD, 0x0C, 0x13, 0xEC, 0x5F, 0x97, 0x44, 0x17, 0xC4, 0xA7, 0x7E, 0x3D, 0x64, 0x5D, 0x19, 0x73]
/-- S-box row 9 (FIPS 197). -/
def sboxRow9 : List Byte := [0x60, 0x81, 0x4F, 0xDC, 0x22, 0x2A, 0x90, 0x88, 0x46, 0xEE, 0xB8, 0x14, 0xDE, 0x5E, 0x0B, 0xDB]
/-- S-box row A (FIPS 197). -/
def sboxRowA : List Byte := [0xE0, 0x32, 0x3A, 0x0A, 0x49, 0x06, 0x24, 0x5C, 0xC2, 0xD3, 0xAC, 0x62, 0x91, 0x95, 0xE4, 0x79]
/-- S-box row B (FIPS 197). -/
def sboxRowB : List Byte := [0xE7, 0xC8, 0x37, 0x6D, 0x8D, 0xD5, 0x4E, 0xA9, 0x6C, 0x56, 0xF4, 0xEA, 0x65, 0x7A, 0xAE, 0x08]
/-- S-box row C (FIPS 197). -/
def sboxRowC : List Byte := [0xBA, 0x78, 0x25, 0x2E, 0x1C, 0xA6, 0xB4, 0xC6, 0xE8, 0xDD, 0x74, 0x1F, 0x4B, 0xBD, 0x8B, 0x8A]
/-- S-box row D (FIPS 197). -/
def sboxRowD : List Byte := [0x70, 0x3E, 0xB5, 0x66, 0x48, 0x03, 0xF6, 0x0E, 0x61, 0x35, 0x57, 0xB9, 0x86, 0xC1, 0x1D, 0x9E]
/-- S-box row E (FIPS 197). -/
def sboxRowE : List Byte := [0xE1, 0xF8, 0x98, 0x11, 0x69, 0xD9, 0x8E, 0x94, 0x9B, 0x1E, 0x87, 0xE9, 0xCE, 0x55, 0x28, 0xDF]
/-- S-box row F (FIPS 197). -/
def sboxRowF : List Byte := [0x8C, 0xA1, 0x89, 0x0D, 0xBF, 0xE6, 0x42, 0x68, 0x41, 0x99, 0x2D, 0x0F, 0xB0, 0x54, 0xBB, 0x16]

/-- The S-box by rows. -/
def sboxRows : List (List Byte) :=
  [sboxRow0, sboxRow1, sboxRow2, sboxRow3, sboxRow4, sboxRow5, sboxRow6, sboxRow7, sboxRow8, sboxRow9, sboxRowA, sboxRowB,
   sboxRowC, sboxRowD, sboxRowE, sboxRowF]

/-- SubBytes of one byte. -/
def subByte (b : Byte) : Byte := nth (nth sboxRows (b.toNat / 16) []) (b.toNat % 16) 0

/-- Multiplication by x in the AES field. -/
def xtime (b : Byte) : Byte := (b <<< 1) ^^^ (if b.getLsbD 7 then 0x1B else 0)

/-- ShiftRows of a state held by columns. -/
def shiftRows (st : List Byte) : List Byte := (List.range 16).map fun i => nth st ((i + 4 * (i % 4)) % 16) 0

/-- MixColumns of one column. -/
def mixColumn (c : List Byte) : List Byte :=
  (List.range 4).map fun i =>
    xtime (nth c i 0) ^^^ (xtime (nth c ((i + 1) % 4) 0) ^^^ nth c ((i + 1) % 4) 0) ^^^ nth c ((i + 2) % 4) 0 ^^^ nth c ((i + 3) % 4) 0

/-- MixColumns. -/
def mixColumns (st : List Byte) : List Byte :=
  mixColumn (st.take 4) ++ mixColumn ((st.drop 4).take 4) ++ mixColumn ((st.drop 8).take 4) ++ mixColumn ((st.drop 12).take 4)

/-- Bytes added bit by bit. -/
def xorBytes (a b : List Byte) : List Byte := List.zipWith (· ^^^ ·) a b

/-- The key schedule (FIPS 197): words added one by one; `i` counts words, `rc` is the round constant. -/
def expandKey (nk : Nat) : Nat → Nat → Byte → List (List Byte) → List (List Byte)
  | 0, _, _, ws => ws
  | n + 1, i, rc, ws =>
    let t := nth ws (i - 1) []
    let t' := if i % nk = 0 then xorBytes ((t.drop 1 ++ t.take 1).map subByte) [rc, 0, 0, 0]
      else if 6 < nk ∧ i % nk = 4 then t.map subByte else t
    expandKey nk n (i + 1) (if i % nk = 0 then xtime rc else rc) (ws ++ [xorBytes (nth ws (i - nk) []) t'])

/-- Words of four bytes. -/
def fourBytes : Nat → List Byte → List (List Byte)
  | 0, _ => []
  | n + 1, bs => bs.take 4 :: fourBytes n (bs.drop 4)

/-- Round keys as 16-byte lists. -/
def roundKeys (key : List Byte) : List (List Byte) :=
  let nk := key.length / 4
  let ws := expandKey nk (4 * (nk + 7) - nk) nk 1 (fourBytes nk key)
  (List.range (nk + 7)).map fun r => ((ws.drop (4 * r)).take 4).flatten

/-- The rounds between the first AddRoundKey and the last round. -/
def aesRounds : List (List Byte) → List Byte → List Byte
  | [], st => st
  | [k], st => xorBytes (shiftRows (st.map subByte)) k
  | k :: ks, st => aesRounds ks (xorBytes (mixColumns (shiftRows (st.map subByte))) k)

/-- One block under a key schedule. -/
def aesBlock (rk : List (List Byte)) (block : List Byte) : List Byte :=
  match rk with
  | [] => block
  | k :: ks => aesRounds ks (xorBytes block k)

/-- Blocks of 16 bytes, the last one possibly shorter. -/
def blocksOf : Nat → List Byte → List (List Byte)
  | 0, _ => []
  | _, [] => []
  | n + 1, bs => bs.take 16 :: blocksOf n (bs.drop 16)

/-- A block padded with zeros to 16 bytes. -/
def padBlock (b : List Byte) : List Byte := b ++ List.replicate (16 - b.length) 0

/-- CTR over data whose first byte stands at offset `ofs` of the data, with counter block `ctr i` for block i. -/
def ctrStream (rk : List (List Byte)) (ctr : Nat → List Byte) (ofs : Nat) (data : List Byte) : List Byte :=
  let first := ofs / 16
  let n := (ofs % 16 + data.length + 15) / 16
  let ks := ((List.range n).flatMap fun i => aesBlock rk (ctr (first + i))).drop (ofs % 16)
  xorBytes data ks

/-- The counter block of data block i in GCM and CTR: N ‖ (i + 2) (R412). -/
def gcmCtr (nonce : List Byte) (i : Nat) : List Byte := nonce ++ beBytes 4 (i + 2)

/-- The counter block of data block i in CCM: flags 2, N, counter i + 1 in 3 bytes (SP 800-38C). -/
def ccmCtr (nonce : List Byte) (i : Nat) : List Byte := [2] ++ nonce ++ beBytes 3 (i + 1)

/-- Multiplication in the field of GHASH: `v` shifted right with the reduction, for each bit of `x` from the most significant. -/
def ghashMul : Nat → Nat → Nat → Nat → Nat
  | 0, _, _, z => z
  | n + 1, x, v, z =>
    let z' := if bitOf x n then z ^^^ v else z
    let v' := if bitOf v 0 then (v / 2) ^^^ (0xE1 * 2 ^ 120) else v / 2
    ghashMul n x v' z'

/-- GHASH over blocks. -/
def ghash (h : Nat) (blocks : List (List Byte)) : Nat :=
  blocks.foldl (fun y b => ghashMul 128 (y ^^^ beNat (padBlock b)) h 0) 0

/-- The GCM tag over associated data and ciphertext (SP 800-38D), `n` bytes. -/
def gcmTag (rk : List (List Byte)) (nonce aad ct : List Byte) (n : Nat) : List Byte :=
  let h := beNat (aesBlock rk (List.replicate 16 0))
  let y := ghash h (blocksOf aad.length aad ++ blocksOf ct.length ct ++ [beBytes 8 (8 * aad.length) ++ beBytes 8 (8 * ct.length)])
  (xorBytes (beBytes 16 y) (aesBlock rk (nonce ++ [0, 0, 0, 1]))).take n

/-- The encoded associated data of CCM (SP 800-38C, R412). -/
def ccmAad (aad : List Byte) : List Byte :=
  if aad.isEmpty then [] else if aad.length < 65280 then beBytes 2 aad.length ++ aad else [0xFF, 0xFE] ++ beBytes 4 aad.length ++ aad

/-- The CCM tag over associated data and plaintext (SP 800-38C), `n` bytes, with n = 12 and q = 3. -/
def ccmTag (rk : List (List Byte)) (nonce aad pt : List Byte) (n : Nat) : List Byte :=
  let flags : Nat := (if aad.isEmpty then 0 else 64) + 8 * ((n - 2) / 2) + 2
  let b0 := [BitVec.ofNat 8 flags] ++ nonce ++ beBytes 3 pt.length
  let a := ccmAad aad
  let y := ([b0] ++ blocksOf a.length a ++ blocksOf pt.length pt).foldl (fun y b => aesBlock rk (xorBytes y (padBlock b))) (List.replicate 16 0)
  (xorBytes y (aesBlock rk ([2] ++ nonce ++ [0, 0, 0]))).take n

/-- The data of an operation encrypted or decrypted from byte `ofs` on: one key stream serves both (R412). -/
def cryptData (mode : CMode) (key nonce : List Byte) (ofs : Nat) (data : List Byte) : List Byte :=
  ctrStream (roundKeys key) (match mode with | .ccm => ccmCtr nonce | .ctr => gcmCtr nonce | .gcm => gcmCtr nonce) ofs data

/-- The tag of an operation from its associated data, plaintext and ciphertext. -/
def cryptTag (mode : CMode) (key nonce aad pt ct : List Byte) (n : Nat) : List Byte :=
  match mode with
  | .ctr => []
  | .gcm => gcmTag (roundKeys key) nonce aad ct n
  | .ccm => ccmTag (roundKeys key) nonce aad pt n

end Sys2Proof.Machine
end

