-- ==== Sys2Proof/Machine/Cipher.lean ====
section
/-! DEFINITION. Key slots, cipher engines and the crossing of received frames (R415 to R436, R335, R340). -/

namespace Sys2Proof.Machine

/-! ## Key slots -/

/-- Key slot `n` changed. -/
def HostSide.modKey (n : Nat) (f : KeySlot → KeySlot) (h : HostSide) : HostSide := { h with keys := h.keys.modify n f }

/-- The codes of a slot state (R435). -/
def slotCode : SlotState → Nat
  | .empty => 0 | .loaded => 1 | .exhausted => 2

/-- A slot changes state or is committed: epoch and KEY_STATE (R418, R435). -/
def HostSide.keyState (n : Nat) (old : SlotState) (cause : Nat) (h : HostSide) : HostSide :=
  let h := h.modKey n fun k => { k with epoch := k.epoch + 1 }
  let k := h.key n
  (h.event 0x200 0x8600 7 true k.epoch n [w n, w (slotCode old), w (slotCode k.state), w cause, k.keyId, w k.len]).ceRaise 5

/-- Bytes of a key of length code 0, 1 or 2 (Table 16.10). -/
def keyBytes (len : Nat) : Nat := 16 + 8 * len

/-- The key that the staging words hold: byte 4w in bits 31:24 of word w (Table 16.8). -/
def stagedKey (k : KeySlot) (len : Nat) : List Byte := (k.staging.flatMap fun x => beBytes 4 x.toNat).take (keyBytes len)

/-- Operations that hold a copy of a slot's key: their records will carry KEY_CHANGED (R419). -/
def CipherOp.markChanged (n : Nat) (o : CipherOp) : CipherOp := if o.slot = n then { o with keyChanged := true } else o

/-- Every context changed. -/
def HostSide.modOps (f : CipherOp → CipherOp) (h : HostSide) : HostSide :=
  { h with engines := h.engines.map fun e => { e with active := e.active.map f, suspended := e.suspended.map f } }

/-- A commit (R417, R418, R422): with GUARD 0xA5 and outside QUARANTINE the staged key takes effect in one step. -/
def State.keyCommit (n : Nat) (v : W32) (s : State) : State :=
  let len := bitsOf v.toNat 0 2
  if bitsOf v.toNat 24 8 != 0xA5 || s.dev.mode == .quarantine || len = 3 then s
  else
    let old := s.host.key n
    let h := s.host.modKey n fun k =>
      { k with staging := List.replicate 8 0, state := .loaded, key := stagedKey k len, len := len,
               keyId := w k.cfg.toNat, rxEn := k.cfg.getLsbD 16, rxStream := k.cfg.getLsbD 17, txEn := k.cfg.getLsbD 18,
               counter := (Config.freeNonce s.host.freeCtr).toNat, writes := [] }
    let h := { h with freeCtr := h.freeCtr + 1 }.modOps (CipherOp.markChanged n)
    { s with host := h.keyState n old.state 0 }

/-- KEY_COMMIT (R417). -/
def execKeyCommit (dt : Nat) (slot : Nat) (value : W32) (s : State) : Out := .next ((s.advance dt).bar0 (State.keyCommit slot value))

/-! ## Cipher result records -/

/-- What a cipher result record tells beyond its operation (Table 16.4). -/
structure CipherRec where
  cstat : Nat
  kind : Nat
  unauth : Bool
  tag : List Byte
  bytesIn : Nat
  bytesOut : Nat
  notZeroed : Nat
  lineStatus : Nat
  ofs : Nat
  body : List Byte

/-- The codes of a cipher mode. -/
def modeBits : CMode → Nat
  | .ctr => 0 | .ccm => 1 | .gcm => 2

/-- ORIGIN, and words 10 and 11 of a cipher result record. -/
def originWords (o : CipherOp) : Nat × W16 × W16 :=
  match o.origin with
  | .tx _ i => (0, o.tag, w i)
  | .rx c r => (1, w c, r)
  | .run => (2, o.tag, 0)

/-- The words of a cipher result record (Table 16.4). `slotWord` is 0xFFFF under NO_KEY and FORMAT. -/
def cipherWords (e : Nat) (o : CipherOp) (slotWord : Nat) (epoch : W16) (ts : Tick) (adj : Bool) (r : CipherRec) : List W16 :=
  let g := originWords o
  [w (0x7000 + r.cstat), w (38 + (r.body.length + 1) / 2), w (0x8100 + e),
   w (0x700 + r.kind * 64 + b2n r.unauth * 32 + b2n o.keyChanged * 16 + b2n o.decrypt * 8 + g.1 * 2 + b2n adj)] ++ tickWords ts
    ++ [epoch, w slotWord, g.2.1, g.2.2, w (modeBits o.mode * 4096 + o.keyLen * 1024 + o.tagLen), o.keyId]
    ++ byteWords ((o.nonce ++ List.replicate 12 0).take 12) ++ byteWords ((r.tag ++ List.replicate 16 0).take 16)
    ++ wordsOf 2 r.bytesIn ++ wordsOf 2 r.bytesOut ++ wordsOf 2 r.notZeroed ++ [w r.lineStatus] ++ wordsOf 2 r.ofs
    ++ [w r.body.length] ++ byteWords r.body

/-- Widths of the counters of Table 16.7. -/
def engineWidths : List Nat := [32, 32, 16, 16, 16, 16, 32, 32, 32, 32]

/-- `k` events at counter `i` of an engine. -/
def HostSide.countCe (e i k : Nat) (h : HostSide) : HostSide :=
  { h with engines := h.engines.modify e fun g => { g with ctrs := countAt i (nth engineWidths i 32) k g.ctrs } }

/-- The queue of an operation's records (R424 to R430). -/
def CipherOp.queue (o : CipherOp) : Nat := match o.origin with | .rx _ _ => 1 | _ => 0

/-- The counter of Table 16.7 that a record of a cipher status counts in. -/
def cstatCounter (cstat : Nat) : Nat :=
  if cstat = 1 then 1 else if cstat = 2 then 3 else if cstat = 7 ∨ cstat = 8 then 5 else 4

/-- A cipher result record is placed and counted (R433, Table 16.7). -/
def HostSide.cipherRecord (e : Nat) (o : CipherOp) (slotWord : Nat) (epoch : W16) (r : CipherRec) (h : HostSide) : HostSide :=
  let st := h.stamp (0x8100 + e) h.follower
  let h := (st.2.2.place o.queue { words := cipherWords e o slotWord epoch st.1 st.2.1 r, pend := r.kind == 1 }).deliver o.queue
  let h := if r.kind = 1 then h.countCe e 8 1 else h.countCe e (if r.cstat = 0 then 0 else cstatCounter r.cstat) 1
  if o.keyChanged then h.countCe e 2 1 else h

/-- A record with nothing but a status. -/
def plainRec (cstat kind : Nat) : CipherRec :=
  { cstat := cstat, kind := kind, unauth := false, tag := [], bytesIn := 0, bytesOut := 0, notZeroed := 0, lineStatus := 0,
    ofs := 0, body := [] }

/-! ## Received records in channel order -/

/-- Whether a packet found room in queue 1 or its hold (R334). -/
def HostSide.wasLost (before after : HostSide) : Bool :=
  decide ((before.queue 1).lost ≠ (after.queue 1).lost) || decide ((before.queue 1).lostSince ≠ (after.queue 1).lostSince)

/-- The cut-through frame of a channel and RX_FRAME_ID. -/
def HostSide.cutOf (c : Nat) (r : W16) (h : HostSide) : Option CutFrame := h.cuts.find? fun x => x.chan == c && x.rxId == r

/-- A cut-through frame changed. -/
def HostSide.modCut (c : Nat) (r : W16) (f : CutFrame → CutFrame) (h : HostSide) : HostSide :=
  { h with cuts := h.cuts.map fun x => if x.chan == c && x.rxId == r then f x else x }

/-- A cut-through frame is over. -/
def HostSide.dropCut (c : Nat) (r : W16) (h : HostSide) : HostSide := { h with cuts := h.cuts.filter fun x => !(x.chan == c && x.rxId == r) }

/-- A frame of which nothing has been placed, from its first record up. -/
def newCut (u : FrameUp) (sec : Bool) : CutFrame :=
  { chan := u.chan, rxId := u.rxId, closed := false, lossy := false, drop := false, sec := sec, segments := 0, bytes := 0,
    sync := if u.kind = 4 then (u.head.drop 14).take 4 else (u.head.drop 10).take 4, epoch := nth u.head 8 0 }

/-- The packet of a record that crossed. -/
def FrameUp.packet (u : FrameUp) : Packet := { words := u.head ++ byteWords u.body, pend := u.kind == 3 }

/-- The retract record with status NOT_DELIVERED that takes the place of a lost final record: its source is the channel, its timestamp that of the
final record, which the line side has stamped (R335). -/
def FrameUp.notDelivered (u : FrameUp) (c : CutFrame) : Packet :=
  .plain (retractWords 4 (0x200 + u.chan) (ofWords ((u.head.drop 4).take 4)) ((nth u.head 3 0).getLsbD 0) c)

/-- A segment enters the receive frame queue (R219, R335, R340); of a frame that has lost one no further one is placed. -/
def HostSide.placeSegment (u : FrameUp) (h : HostSide) : HostSide :=
  match h.cutOf u.chan u.rxId with
  | none =>
    let h := { h with cuts := h.cuts.filter fun x => !(x.chan == u.chan && x.closed && x.segments == 0) }
    let h1 := h.place 1 u.packet
    if h.wasLost h1 then { h1 with cuts := { newCut u false with lossy := true } :: h1.cuts }
    else
      { h1 with cuts := { newCut u false with segments := 1, bytes := u.body.length } :: h1.cuts }.deliver 1
  | some c =>
    if c.closed || c.lossy then h
    else
      let h1 := h.place 1 u.packet
      if h.wasLost h1 then h1.modCut u.chan u.rxId fun c => { c with lossy := true }
      else (h1.modCut u.chan u.rxId fun c => { c with segments := c.segments + 1, bytes := c.bytes + u.body.length }).deliver 1

/-- NOT_DELIVERED takes the place of a lost final record, in the reserved words; behind records of its source that still wait in the hold it waits too
(R98, R335; log 132). -/
def HostSide.placeLost (u : FrameUp) (c : CutFrame) (h : HostSide) : HostSide :=
  let p := u.notDelivered c
  if (h.queue 1).hold.any fun q => q.source == p.source then h.holdPacket 1 p else (h.enqueue 1 p).deliver 1

/-- A final record enters the receive frame queue; when it is lost NOT_DELIVERED takes its place (R219, R335, R340). A retract with status BARRIER leaves the frame closed: no record of it follows (R220). The answer says whether the host side has placed a
retract record of its own. -/
def HostSide.placeFinal (u : FrameUp) (h : HostSide) : HostSide × Bool :=
  match h.cutOf u.chan u.rxId with
  | none => ((h.place 1 u.packet).deliver 1, false)
  | some c =>
    let h0 := h.dropCut u.chan u.rxId
    if c.closed then (h0, false)
    else
      let h0 := if u.status = 3 then { h0 with cuts := { c with closed := true, segments := 0 } :: h0.cuts } else h0
      let h1 := h0.place 1 u.packet
      if h0.wasLost h1 && decide (c.segments > 0) then (h1.placeLost u c, true) else (h1.deliver 1, decide (u.status = 3))

/-- A received record, segment or retract enters the receive frame queue. The line side counts the retract records that the host side places
(Table 7.11; log 84). -/
def State.placeUp (u : FrameUp) (s : State) : State :=
  if u.kind = 3 then s.onHost (HostSide.placeSegment u)
  else
    let r := s.host.placeFinal u
    let s := { s with host := r.1 }
    if r.2 then s.tellLine (.retracted u.chan) else s

/-- Whether a channel's records wait behind a secured frame (R428). -/
def HostSide.rxHeld (c : Nat) (h : HostSide) : Bool :=
  h.rxOrder.any fun x => match x with | .pending d _ => d == c | .ready u => u.chan == c

/-- A record of a channel, in the channel's order (R428). -/
def State.orderUp (u : FrameUp) (s : State) : State :=
  if s.host.rxHeld u.chan then s.onHost fun h => { h with rxOrder := h.rxOrder ++ [.ready u] } else s.placeUp u

/-- The records at the front of a channel's order that wait for no engine, and the order without them. -/
def readyRun (c : Nat) : List RxSlot → List FrameUp × List RxSlot
  | [] => ([], [])
  | .pending d r :: t => if d = c then ([], .pending d r :: t) else let x := readyRun c t; (x.1, .pending d r :: x.2)
  | .ready u :: t => let x := readyRun c t; if u.chan = c then (u :: x.1, x.2) else (x.1, .ready u :: x.2)

/-- A secured frame's operation ends, with the record that takes its place in the channel's order, if any (R428). -/
def State.rxDone (c : Nat) (r : W16) (up : Option FrameUp) (s : State) : State :=
  let order := s.host.rxOrder.flatMap fun x => match x with
    | .pending d q => if d == c && q == r then (match up with | some u => [.ready u] | none => []) else [.pending d q]
    | .ready u => [.ready u]
  let run := readyRun c order
  run.1.foldl (fun s u => s.placeUp u) (s.onHost fun h => { h with rxOrder := run.2 })

/-! ## Engines -/

/-- Engine `e`. -/
def HostSide.engine (h : HostSide) (e : Nat) : Engine := nth h.engines e Engine.reset

/-- Engine `e` changed. -/
def HostSide.modEngine (e : Nat) (f : Engine → Engine) (h : HostSide) : HostSide := { h with engines := h.engines.modify e f }

/-- The class of an operation (R415). -/
def CipherOp.cls (o : CipherOp) : Nat := match o.origin with | .tx _ _ => 1 | .rx _ _ => 2 | .run => 3

/-- Whether an operation is taken before another: class, then the order within the class, then the lower slot (R415). -/
def CipherOp.before (a b : CipherOp) : Bool :=
  if a.cls ≠ b.cls then decide (a.cls < b.cls)
  else
    let key (o : CipherOp) : Int × Nat := match o.origin with
      | .tx _ _ => (o.launch, 0) | .rx c _ => (o.frameEnd, c) | .run => (o.accepted, 0)
    if (key a).1 ≠ (key b).1 then decide ((key a).1 < (key b).1)
    else if (key a).2 ≠ (key b).2 then decide ((key a).2 < (key b).2) else decide (a.slot < b.slot)

/-- The waiting operation that a free engine takes (R415). -/
def bestOp : List CipherOp → Option CipherOp
  | [] => none
  | o :: t => match bestOp t with
    | none => some o
    | some p => if p.before o then some p else some o

/-- A context empties and the suspended operation resumes (R416). -/
def HostSide.contextDone (e : Nat) (h : HostSide) : HostSide := h.modEngine e fun g => { g with active := g.suspended, suspended := none }

/-- The transmit frame of an operation is dropped: cause ALARM after an alarm erase, else CIPHER (R424). -/
def State.dropTx (o : CipherOp) (alarm : Bool) (s : State) : State :=
  match o.origin with
  | .tx a i => match s.host.txq.find? fun f => f.action == a && f.index == i with
    | some f => s.dropFrame f .aborted (if alarm then 0x0E else 0x10)
    | none => s
  | _ => s

/-- The tag that a received frame brought, once all of it has crossed (Tables 16.3, 16.4). -/
def CipherOp.received (o : CipherOp) : List Byte :=
  match o.final with
  | some u => if u.kind = 1 then (o.input ++ u.body).drop (u.frameLen - 16) else []
  | none => []

/-- The input bytes of which an operation has released the output: of a frame those of its ciphertext (R423, Table 16.4; log 139). -/
def CipherOp.processed (o : CipherOp) : Nat := match o.origin with | .rx _ _ => o.released - 32 | _ => o.released

/-- An operation ends without a result: its record, its frame's end (R420, R424, R425). -/
def State.opFails (e cstat : Nat) (o : CipherOp) (s : State) : State :=
  let rec_ := { plainRec cstat 0 with tag := o.received, bytesIn := o.processed, bytesOut := o.released }
  let s := { s with host := s.host.cipherRecord e o o.slot o.slotEpoch rec_ }
  match o.origin with
  | .rx c r =>
    (s.rxDone c r none).onHost fun h => if o.final.isSome then h.dropCut c r else h.modCut c r fun x => { x with drop := true }
  | _ => s.dropTx o (o.erased == some true)

/-- An operation that has resumed ends KEY_ERASED when its slot was erased meanwhile (R420). -/
def State.resumed (e : Nat) (s : State) : State :=
  match (s.host.engine e).active with
  | none => s
  | some o => if o.erased.isSome then { s with host := s.host.modEngine e fun g => { g with active := none } }.opFails e 2 o else s

/-- An operation starts on an engine: it copies the slot's key and takes a counter value when it encrypts (R419, R422). A slot
that is EMPTY or EXHAUSTED refuses it. -/
def State.opStart (e : Nat) (o : CipherOp) (s : State) : State :=
  let k := s.host.key o.slot
  let nonce := if o.decrypt then o.nonce else beBytes 4 (s.dev.nid.toNat * 64 + o.slot) ++ beBytes 8 k.counter
  let o' := { o with key := k.key, keyLen := k.len, keyId := k.keyId, slotEpoch := k.epoch, nonce := nonce,
                     stream := match o.origin with | .rx _ _ => k.rxStream | _ => o.stream }
  match k.state with
  | .empty => s.opFails e 4 { o with slotEpoch := k.epoch, keyId := k.keyId, keyLen := k.len }
  | .exhausted => s.opFails e 3 { o with slotEpoch := k.epoch, keyId := k.keyId, keyLen := k.len }
  | .loaded =>
    let h := s.host.modEngine e fun g => { g with active := some o' }
    let h := if o.decrypt then h
      else if k.counter = 2 ^ 64 - 1 then (h.modKey o.slot fun k => { k with state := .exhausted }).keyState o.slot .loaded 3
      else h.modKey o.slot fun k => { k with counter := k.counter + 1 }
    { s with host := h }

/-- A free engine takes up the waiting operation of highest class; in ROW an engine with a suspended operation resumes it (R415,
R416, R434). -/
def State.engineStart (e : Nat) (s : State) : State :=
  let g := s.host.engine e
  if g.active.isSome || s.dev.rung != .row then s
  else match g.suspended with
    | some _ => (s.onHost (HostSide.contextDone e)).resumed e
    | none => match bestOp s.host.cipherQ with
      | none => s
      | some o => { s with host := { s.host with cipherQ := s.host.cipherQ.erase o } }.opStart e o

/-- CIPHER_OP_START (R415). -/
def execCipherOpStart (dt : Nat) (engine : Nat) (s : State) : Out := .next ((s.advance dt).engineStart engine)

/-- The engines work in ROW only: below it every operation stands still in its context (R434). -/
def State.enginesRun (f : State → State) (s : State) : State := if s.dev.rung == .row then f s else s

/-- Whether engine `e` is the one to suspend for an operation of class `cls`: every engine busy, its operation of the lowest class
with an empty second context, and of those the latest accepted (R416). -/
def HostSide.suspends (h : HostSide) (e cls : Nat) : Bool :=
  let cand := h.engines.filterMap fun g => if g.suspended.isNone then g.active else none
  let lowest := (cand.map CipherOp.cls).foldl max 0
  let latest := ((cand.filter fun o => o.cls == lowest).map (·.accepted)).foldl max 0
  match (h.engine e).active with
  | none => false
  | some o => h.engines.all (fun g => g.active.isSome || g.suspended.isSome) && (h.engine e).suspended.isNone && decide (cls < o.cls) &&
      o.cls == lowest && decide (latest ≤ o.accepted)

/-- CIPHER_SUSPEND: at a block boundary the waiting operation takes the engine (R416). -/
def execCipherSuspend (dt : Nat) (engine : Nat) (s : State) : Out :=
  .next ((s.advance dt).enginesRun fun s =>
    match bestOp s.host.cipherQ with
    | none => s
    | some o =>
      if !s.host.suspends engine o.cls then s
      else
        let h := (s.host.modEngine engine fun g => { g with active := none, suspended := g.active }).countCe engine 6 1
        { s with host := { h with cipherQ := h.cipherQ.erase o } }.opStart engine o)

/-! ## CIPHER_RUN -/

/-- Output bytes of a CIPHER_RUN without associated data and tag (R429). -/
def CipherOp.outLen (o : CipherOp) : Nat := o.len - o.aadLen - (if o.decrypt then o.tagLen else 0)

/-- Whether the active operation of an engine waits for a handover of a bank that it reads or writes (R394). -/
def State.engineWaits (e : Nat) (s : State) : Bool :=
  match (s.host.engine e).active with
  | none => false
  | some o =>
    let m := 0x30 + e
    match o.origin with
    | .run => (!o.zeroing && s.blocked m o.src o.len false) || s.blocked m o.dst o.dstLen true
    | .tx _ _ => s.blocked m o.src o.len false
    | .rx _ _ => false

/-- Whether source and destination overlap other than in place: a host error that leaves the output bytes unpredictable (R429). -/
def CipherOp.clobbers (o : CipherOp) : Bool := decide (o.src ≠ o.dst ∧ o.src < o.dst + o.dstLen ∧ o.dst < o.src + o.len)

/-- Bytes at BAR2 written by an engine. -/
def State.engineWrite (e ofs : Nat) (bs : List Byte) (s : State) : State := s.writeHb (0x30 + e) ofs (bs.map some)

/-- Output of an operation written at BAR2; free bytes after a host error of R429. -/
def State.outWrite (o : CipherOp) (e ofs : Nat) (bs : List Byte) (s : State) : State :=
  if !o.clobbers && !o.touched then s.engineWrite e ofs bs
  else
    { s with host := { s.host with freeCtr := s.host.freeCtr + bs.length } }.engineWrite e ofs
      ((List.range bs.length).map fun i => Config.freeByte (s.host.freeCtr + i))

/-- The associated data of a CIPHER_RUN copied to the destination (R429). -/
def State.copyAad (e : Nat) (o : CipherOp) (s : State) : List Byte × State :=
  let r := s.readHb (0x30 + e) o.src o.aadLen
  (r.1, r.2.2.outWrite o e o.dst r.1)

/-- The next 4,096 output bytes of a STREAM decryption are written and named by a RELEASE record (R430). -/
def State.releaseRun (e : Nat) (o : CipherOp) (s : State) : State :=
  if o.released + 4096 ≥ o.outLen || !o.decrypt || o.mode == .ctr then s
  else
    let a := if o.released = 0 then (s.copyAad e o).2 else s
    let r := a.readHb (0x30 + e) (o.src + o.aadLen + o.released) 4096
    let s := r.2.2.outWrite o e (o.dst + o.aadLen + o.released) (cryptData o.mode o.key o.nonce o.released r.1)
    let o' := { o with input := o.input ++ r.1, released := o.released + 4096, written := o.aadLen + o.released + 4096 }
    let h := s.host.modEngine e fun g => { g with active := some o' }
    let rec_ := { plainRec 0 1 with unauth := true, bytesIn := o'.released, bytesOut := o'.released }
    { s with host := (h.cipherRecord e o' o.slot o.slotEpoch rec_).countCe e 7 256 }

/-- The plaintext of a secured frame's bytes from payload offset `ofs`: hop and security header as they are, ciphertext
decrypted, tag bytes left out (R426, R427). -/
def framePlain (o : CipherOp) (frameLen ofs : Nat) (bs : List Byte) : List Byte :=
  let keep := bs.take (frameLen - 16 - ofs)
  let head := keep.take (32 - ofs)
  head ++ cryptData .gcm o.key o.nonce (ofs + head.length - 32) (keep.drop head.length)

/-- The next segment of a STREAM frame is released UNAUTHENTICATED (R427), unless a reset of the queue has closed the frame (R340). -/
def State.releaseRx (e : Nat) (o : CipherOp) (s : State) : State :=
  match o.segs with
  | [] => s
  | u :: rest =>
    let plain := framePlain o u.frameLen u.ofs u.body
    let o' := { o with segs := rest, released := o.released + plain.length }
    let h := s.host.modEngine e fun g => { g with active := some o' }
    let rec_ := { plainRec 0 1 with unauth := true, bytesIn := o'.processed, bytesOut := o'.released, ofs := u.ofs, body := plain }
    match o.origin with
    | .rx c r =>
      if (h.cutOf c r).any CutFrame.closed then { s with host := h }
      else
        let h1 := (h.cipherRecord e o' o.slot o.slotEpoch rec_).countCe e 7 ((plain.length + 15) / 16)
        { s with host := h1.modCut c r fun x => { x with segments := x.segments + b2n (!h.wasLost h1) } }
    | .tx _ _ => s
    | .run => s

/-- The next release of an engine's active operation. -/
def State.releaseNext (e : Nat) (s : State) : State :=
  match (s.host.engine e).active with
  | none => s
  | some o =>
    if !o.stream || o.zeroing then s
    else match o.origin with
      | .run => s.releaseRun e o
      | .rx _ _ => s.releaseRx e o
      | .tx _ _ => s

/-- CIPHER_RELEASE (R427, R430). -/
def execCipherRelease (dt : Nat) (engine : Nat) (s : State) : Out :=
  .next ((s.advance dt).enginesRun fun s => if s.engineWaits engine then s else s.releaseNext engine)

/-- The end of a CIPHER_RUN: output, FINAL record; a failed tag ends in TAG_FAIL or begins zeroing (R429 to R431). -/
def State.endRun (e : Nat) (o : CipherOp) (s : State) : State :=
  let n := o.outLen
  let a := s.readHb (0x30 + e) o.src o.aadLen
  let r := a.2.2.readHb (0x30 + e) (o.src + o.aadLen + o.released) (n - o.released)
  let input := o.input ++ r.1
  let out := cryptData o.mode o.key o.nonce o.released r.1
  let done (s : State) (rec_ : CipherRec) : State :=
    { s with host := ((s.host.contextDone e).cipherRecord e o o.slot o.slotEpoch rec_).countCe e 7 ((n + 15) / 16 - o.released / 16) }
  if !o.decrypt then
    let tag := cryptTag o.mode o.key o.nonce a.1 input out o.tagLen
    let s := (r.2.2.outWrite o e o.dst a.1).outWrite o e (o.dst + o.aadLen) (out ++ tag)
    done s { plainRec 0 0 with tag := tag, bytesIn := n, bytesOut := n }
  else
    let t := r.2.2.readHb (0x30 + e) (o.src + o.aadLen + n) o.tagLen
    let pt := cryptData o.mode o.key o.nonce 0 input
    let aad := a.1
    let ok := t.1 == cryptTag o.mode o.key o.nonce aad pt input o.tagLen
    let write (s : State) := (if o.released = 0 then s.outWrite o e o.dst aad else s).outWrite o e (o.dst + o.aadLen + o.released) out
    if ok then done (write t.2.2) { plainRec 0 0 with tag := t.1, bytesIn := n, bytesOut := n }
    else if o.stream && o.mode != .ctr then
      let o' := { o with input := t.1, zeroing := true, written := o.aadLen + n }
      { write t.2.2 with host := (write t.2.2).host.modEngine e fun g => { g with active := some o' } }
    else done t.2.2 { plainRec 1 0 with tag := t.1, bytesIn := n }

/-- The end of a transmit frame's encryption: the payload string of Table 16.3, and a FINAL record of ORIGIN transmit, also where the frame has
ended meanwhile (R423, R424). -/
def State.endTx (e : Nat) (o : CipherOp) (action index : Nat) (s : State) : State :=
  let r := s.readHb (0x30 + e) o.src o.len
  let hop := o.input
  let sec := beBytes 2 o.keyId.toNat ++ [0, 0] ++ o.nonce
  let aad := hop.take 10 ++ [0, 0] ++ hop.drop 12 ++ sec
  let ct := cryptData .gcm o.key o.nonce 0 r.1
  let tag := cryptTag .gcm o.key o.nonce aad r.1 ct 16
  let set (g : HostFrame) : HostFrame :=
    if g.action == action && g.index == index then { g with payload := some (hop ++ sec ++ ct ++ tag), ciphering := false } else g
  let h := { r.2.2.host with txq := r.2.2.host.txq.map set }.contextDone e
  let rec_ := { plainRec 0 0 with tag := tag, bytesIn := r.1.length, bytesOut := ct.length }
  { r.2.2 with host := (h.cipherRecord e o o.slot o.slotEpoch rec_).countCe e 7 ((ct.length + 15) / 16) }

/-- The received frame record of a HOLD frame: hop header, security header and plaintext, CUT clear (R426). -/
def holdRecord (u : FrameUp) (plain : List Byte) : FrameUp :=
  let head := ((u.head.set 3 ((nth u.head 3 0) &&& 0xFF7F)).set 38 (w plain.length)).set 36 0 |>.set 37 0
  { u with head := head.set 1 (w (head.length + (plain.length + 1) / 2)), body := plain, sec := false, cut := false, ofs := 0 }

/-- The final record of a STREAM frame with CUT: the plaintext of the bytes after the last segment (R427). -/
def streamRecord (u : FrameUp) (plain : List Byte) : FrameUp :=
  let head := u.head.set 38 (w plain.length)
  { u with head := head.set 1 (w (head.length + (plain.length + 1) / 2)), body := plain, sec := false }

/-- The end of a received frame's decryption, once the line's final record has crossed (R426, R427). -/
def State.endRx (e : Nat) (o : CipherOp) (c : Nat) (r : W16) (u : FrameUp) (s : State) : State :=
  let closed := match s.host.cutOf c r with | some x => x.closed | none => false
  let streams := o.stream && (s.host.cutOf c r).isSome
  let all := o.input ++ u.body
  let aad := all.take 10 ++ [0, 0] ++ (all.drop 12).take 20
  let ct := (all.drop 32).take (u.frameLen - 48)
  let tag := all.drop (u.frameLen - 16)
  let pt := cryptData .gcm o.key o.nonce 0 ct
  let ok := u.kind == 1 && tag == cryptTag .gcm o.key o.nonce aad pt ct 16
  let finish (up : Option FrameUp) : State := (s.onHost fun h => (h.contextDone e).dropCut c r).rxDone c r (if closed then none else up)
  if ok then
    let up := if streams then streamRecord u (framePlain o u.frameLen u.ofs u.body) else holdRecord u (all.take 32 ++ pt)
    (finish (some up)).onHost fun h => h.countCe e 7 ((ct.length + 15) / 16)
  else if streams && o.released > 0 then s.onHost (HostSide.modEngine e fun g => { g with active := some { o with zeroing := true, input := tag } })
  else if u.kind == 4 || closed then finish none
  else (finish none).onHost fun h => h.cipherRecord e o o.slot o.slotEpoch { plainRec 1 0 with tag := tag, bytesIn := ct.length }

/-- The end of an engine's active operation (R433). -/
def State.opEnd (e : Nat) (s : State) : State :=
  match (s.host.engine e).active with
  | none => s
  | some o =>
    if o.zeroing then s
    else match o.origin with
      | .run => s.endRun e o
      | .tx a i => s.endTx e o a i
      | .rx c r => match o.final with
        | some u => if o.segs.isEmpty || !o.stream then s.endRx e o c r u else s
        | none => s

/-- CIPHER_OP_END (R433). -/
def execCipherOpEnd (dt : Nat) (engine : Nat) (s : State) : Out :=
  .next ((s.advance dt).enginesRun fun s => if s.engineWaits engine then s else (s.opEnd engine).resumed engine)

/-- Output bytes zeroed in one row when its bank is still owned by COMMAND: bytes zeroed, and the state (R431). -/
def State.zeroRow (e : Nat) (p : Nat × Nat) (s : State) : Nat × State :=
  if p.1 < bar2Size && (s.host.bank (p.1 / 0x40000)).owner == 0x11 then (p.2, s.engineWrite e p.1 (List.replicate p.2 0)) else (0, s)

/-- Zeroing after a tag failure is complete: the RETRACT record (R427, R431). -/
def State.zeroingDone (e : Nat) (s : State) : State :=
  match (s.host.engine e).active with
  | none => s
  | some o =>
    if !o.zeroing then s
    else match o.origin, o.final with
      | .rx c r, some u =>
        let cstat := if u.kind = 4 then (if u.status = 3 then 8 else 7) else 1
        let closed := match s.host.cutOf c r with | some x => x.closed | none => false
        let s := (s.onHost fun h => (h.contextDone e).dropCut c r).rxDone c r none
        let unreleased := if u.kind = 4 then 0 else u.frameLen - 16 - o.released
        let rec_ := { plainRec cstat 2 with tag := o.input, bytesIn := o.processed + unreleased, bytesOut := unreleased,
                                            lineStatus := u.status }
        if closed then s else s.onHost fun h => (h.cipherRecord e o o.slot o.slotEpoch rec_).countCe e 9 unreleased
      | _, _ =>
        let z := (rowPieces o.written o.dst o.written).foldl (fun a p => let b := a.2.zeroRow e p; (a.1 + b.1, b.2)) (0, s)
        let rec_ := { plainRec 1 2 with tag := o.input, bytesIn := o.outLen, bytesOut := z.1, notZeroed := o.written - z.1 }
        { z.2 with host := ((z.2.host.contextDone e).cipherRecord e o o.slot o.slotEpoch rec_).countCe e 9 z.1 }

/-- CIPHER_ZEROING_DONE (R431). -/
def execCipherZeroingDone (dt : Nat) (engine : Nat) (s : State) : Out :=
  .next ((s.advance dt).enginesRun fun s => if s.engineWaits engine then s else (s.zeroingDone engine).resumed engine)

/-! ## Erase -/

/-- A slot is erased (R420): EMPTY, key and staging words zeroed. -/
def HostSide.eraseSlot (cause : Nat) (n : Nat) (h : HostSide) : HostSide :=
  let old := (h.key n).state
  let h := h.modKey n fun k => { k with staging := List.replicate 8 0, key := [], state := .empty, writes := [] }
  if old = .empty then h else h.keyState n old cause

/-- The operations of erased slots: active ones end KEY_ERASED, suspended ones lose their key; zeroing, which needs none, goes on (R420). -/
def State.eraseEngine (alarm : Bool) (slots : Nat → Bool) (s : State) (e : Nat) : State :=
  let lose (o : CipherOp) : CipherOp :=
    if !slots o.slot then o else if o.zeroing then { o with key := [] } else { o with key := [], erased := some alarm }
  let h := s.host.modEngine e fun g => { g with active := g.active.map lose, suspended := g.suspended.map lose }
  match (h.engine e).active with
  | none => { s with host := h }
  | some o => if slots o.slot && !o.zeroing then ({ s with host := h.contextDone e }.opFails e 2 o).resumed e else { s with host := h }

/-- An erase of slots: the number that held a key, and the state (R420). -/
def State.erase (alarm : Bool) (slots : Nat → Bool) (s : State) : Nat × State :=
  let named := (List.range 64).filter slots
  let n := (named.filter fun i => decide ((s.host.key i).state ≠ .empty)).length
  let s := { s with host := named.foldl (fun h i => h.eraseSlot (if alarm then 2 else 1) i) s.host }
  (n, (List.range 16).foldl (State.eraseEngine alarm slots) s)

/-! ## Frames that cross upward -/

/-- The lowest-numbered slot that may decrypt a KEY_ID (R425). -/
def HostSide.rxSlot (id : W16) (h : HostSide) : Option Nat :=
  (List.range 64).find? fun i => let k := h.key i; decide (k.state = .loaded) && k.rxEn && k.keyId == id

/-- The operation of a received secured frame (R425). -/
def rxOp (u : FrameUp) (slot : Nat) (now : Tick) : CipherOp :=
  { origin := .rx u.chan u.rxId, tag := 0, mode := .gcm, decrypt := true, stream := false, slot := slot, tagLen := 16, aadLen := 32,
    src := 0, dst := 0, len := u.frameLen, nonce := (u.body.drop 20).take 12, accepted := now, launch := 0,
    frameEnd := ofWords ((u.head.drop 4).take 4), key := [], keyLen := 0, keyId := 0, slotEpoch := 0, keyChanged := false, erased := none,
    input := if u.kind = 3 then u.body else [], released := 0, written := 0, segs := if u.kind = 3 then [u] else [],
    final := if u.kind = 3 then none else some u, zeroing := false }

/-- A later record of a secured frame joins its operation. -/
def CipherOp.join (u : FrameUp) (o : CipherOp) : CipherOp :=
  if o.origin != .rx u.chan u.rxId then o
  else if u.kind = 3 then { o with input := o.input ++ u.body, segs := o.segs ++ [u] } else { o with final := some u }

/-- A record of a secured frame crosses (R425): FORMAT and NO_KEY end it at once, else a cipher operation takes it. -/
def HostSide.securedUp (u : FrameUp) (h : HostSide) : HostSide :=
  match h.cutOf u.chan u.rxId with
  | some c =>
    if c.drop || (c.closed && c.segments == 0) then (if u.kind = 3 then h else h.dropCut u.chan u.rxId)
    else { h.modOps (CipherOp.join u) with cipherQ := h.cipherQ.map (CipherOp.join u) }
  | none =>
    if u.kind = 4 then h
    else
      let keyId := w (beNat ((u.body.drop 16).take 2))
      let fail (cstat : Nat) : HostSide :=
        let o := { rxOp u 0 h.follower with keyId := if cstat = 6 then 0 else keyId }
        let h := h.cipherRecord 0 o 0xFFFF 0 { plainRec cstat 0 with tag := if cstat = 6 then [] else o.received }
        if u.kind = 3 then { h with cuts := { newCut u true with drop := true } :: h.cuts } else h
      if u.frameLen < 48 then fail 6
      else match h.rxSlot keyId with
        | none => fail 5
        | some n =>
          { h with cipherQ := h.cipherQ ++ [rxOp u n h.follower], rxOrder := h.rxOrder ++ [.pending u.chan u.rxId],
                   cuts := if u.kind = 3 then newCut u true :: h.cuts else h.cuts }

/-- A FRAME_UP message is taken from the barrier: to the receive frame queue or to a cipher engine (R215, R216, R425). -/
def State.frameUp (u : FrameUp) (s : State) : State :=
  if u.sec && !(u.kind == 1 && u.status != 0) then s.onHost (HostSide.securedUp u) else s.orderUp u

/-- The head of a die's inbox, when it is of the wanted kind. -/
def takeInbox (e : BarrierEnd) : Option (Msg × BarrierEnd) :=
  match e.inbox with
  | [] => none
  | m :: t => some (m, { e with inbox := t })

/-- FRAME_UP_RECEIVE (R425). -/
def execFrameUpReceive (dt : Nat) (s : State) : Out :=
  .next (let s := s.advance dt
    match takeInbox s.link.host with
    | some (.frameUp u, e) => { s with link := { s.link with host := e } }.frameUp u
    | _ => s)

end Sys2Proof.Machine
end

