-- ==== Sys2Proof/Machine/Air.lean ====
section
/-! DEFINITION. What host frames, relayed copies and the device's own frames share: the staging pool (R233), the originated-frame count
(R522), the duplicate cache (R275), the launch across a port set (R235 to R239), the frame end (R246, R294) and the end of a copy. -/

namespace Sys2Proof.Machine

/-! ## Staging pool -/

/-- What the frames on the line side occupy in the staging pool: resident frames, frames on air and relayed copies (R233, R284). -/
def Line.poolUse (l : Line) : List Nat := l.staged.map (·.1)

/-- What FRAME_DOWN messages under way will occupy. -/
def Msg.poolSize : Msg → List Nat
  | .frameDown _ _ payload => [Machine.poolSize payload.length]
  | _ => []

/-- Everything that the pool holds or awaits (R232). -/
def State.poolUse (s : State) : List Nat :=
  s.line.poolUse ++ (s.link.host.flight.map (·.msg) ++ s.link.line.inbox).flatMap Msg.poolSize

/-- Whether one frame more fits: 12 MiB and 4,096 frames (R233). -/
def poolFits (used : List Nat) (size : Nat) : Bool := decide (used.length < 4096 ∧ used.sum + size ≤ 12582912)

/-! ## Originated-frame count -/

/-- A SEQ for a frame of the line side, from its block (R522). -/
def Line.takeSeq (l : Line) : Option (W16 × Line) :=
  match l.seqs with
  | [] => none
  | (v, n) :: r => some (v, { l with seqs := if n ≤ 1 then r else (v + 1, n - 1) :: r })

/-- A fresh block of 256 values for the line side (R522). -/
def State.grantSeq (s : State) : State :=
  { s with host := { s.host with seqNext := s.host.seqNext + 256 }, line := { s.line with seqs := s.line.seqs ++ [(s.host.seqNext, 256)] } }

/-- A new block once half of the current one is used, while the barrier is up (R522). -/
def State.refillSeq (s : State) : State :=
  if s.link.host.up && s.link.line.up && decide ((s.line.seqs.map (·.2)).sum ≤ 128) then s.grantSeq else s

/-! ## Time-unit counters -/

/-- Widths of the SAT rows of Table 2.9 in the order of TIME_STATUS. -/
def timeWidths : List Nat := List.replicate 12 16 ++ [32, 32, 16, 16]

/-- Counter `i` of the time unit. -/
def Line.countTime (i : Nat) (l : Line) : Line := l.modTime fun x => { x with ctrs := countAt i (nth timeWidths i 32) 1 x.ctrs }

/-! ## Relay counters and the duplicate cache -/

/-- Widths of Table 10.10, per-index epochs and per-cause drops left out. -/
def relayWidths : List Nat := [32, 32, 32, 32, 32, 16, 32, 32, 32, 32, 32, 16, 16]

/-- Counter `i` of the relay engine. -/
def Line.countRelay (i : Nat) (l : Line) : Line :=
  { l with relay := { l.relay with ctrs := countAt i (nth relayWidths i 32) 1 l.relay.ctrs } }

/-- The relay engine changed. -/
def Line.modRelay (f : Relay → Relay) (l : Line) : Line := { l with relay := f l.relay }

/-- The stroke by which cache entries age: the grid of LP00, or its synthetic strokes when it is not on GRID (R275). -/
def Line.dupStroke (l : Line) : Option W32 :=
  if (l.port 0).srcNow = 0 then l.time.gridStroke l.clock.tb else some ((l.time.synthRamp l.clock.tb).stroke l.clock.tb)

/-- DUP_EARLY for the stroke that has ended (R275, Table 10.7). -/
def Line.dupEarly (l : Line) : Line :=
  if l.relay.early = 0 ∨ l.relay.earlyIn = l.dupStroke then l
  else
    let r := l.relay
    ((l.modRelay fun r => { r with early := 0, earlyIn := none })).event 0x184 0x20 6 false (epochOfIndex r.epochs 0) 0 [w (min 65535 r.early), w r.earlyAge]

/-- The entry inserted earliest goes; one less than 8 strokes old is an early eviction (R275). -/
def Line.evictDup (l : Line) : Line :=
  match l.relay.dups.getLast? with
  | none => l
  | some e =>
    let now := l.dupStroke
    let l := l.modRelay fun r => { r with dups := r.dups.dropLast }
    match e.stroke, now with
    | some a, some b =>
      let age := strokeDist a b
      if 0 ≤ age ∧ age < 8 then
        let l := (l.dupEarly).countRelay 2
        l.modRelay fun r =>
          { r with early := r.early + 1, earlyAge := if r.early = 0 then age.toNat else min r.earlyAge age.toNat, earlyIn := some b }
      else l
    | _, _ => l

/-- Whether a key is in the duplicate cache. -/
def Line.isDup (l : Line) (src : W32) (seq : W16) : Bool := l.relay.dups.any fun e => e.src == src && e.seq == seq

/-- A key enters the cache of 4,096 entries, newest first (R275). -/
def Line.insertDup (src : W32) (seq : W16) (l : Line) : Line :=
  if l.isDup src seq then l
  else
    let l := if l.relay.dups.length ≥ 4096 then l.evictDup else l
    l.modRelay fun r => { r with dups := { src := src, seq := seq, stroke := l.dupStroke } :: r.dups }

/-! ## Relayed copies -/

/-- What RELAY_SENT and RELAY_DROP tell of a copy (Table 10.7). -/
def Copy.words (k : Copy) : List W16 :=
  [w k.chan, w k.rx, w k.type] ++ wordsOf 2 k.src.toNat ++ wordsOf 2 k.dest.toNat ++ [k.seq, k.floodId]

/-- An event of the relay engine about a relay channel (R294). -/
def Line.relayEvent (t : Tick) (code via : Nat) (fields : List W16) (l : Line) : Line :=
  l.eventAt t code 0x20 4 false (l.chan via).epoch via fields

/-- A copy is gone from the relay queue. -/
def Line.removeCopy (k : Copy) (l : Line) : Line :=
  l.modRelay fun r => { r with copies := r.copies.filter fun x => x.id != k.id }

/-- RELAY_DROP with a cause of Table 10.8, for a copy in the queue or refused at its decision (R283, R294). -/
def Line.dropCopy (k : Copy) (cause : Nat) (l : Line) : Line :=
  let now := l.clock.tb
  let l := (l.removeCopy k).settleSet k.chan now
  (l.modRelay fun r => { r with drops := countAt (cause - 1) 16 1 r.drops }).relayEvent now 0x181 k.chan (k.words ++ tickWords k.launch ++ [w cause])

/-- Every pending copy that satisfies a test is dropped with one cause. -/
def Line.dropCopies (which : Copy → Bool) (cause : Nat) (l : Line) : Line :=
  (l.relay.copies.filter which).foldl (fun l k => l.dropCopy k cause) l

/-- The ticks that a copy lasts on its relay channel. -/
def Line.copyTicks (l : Line) (k : Copy) : Nat := frameTicks (l.chan k.chan).rateK (hdrMod k.hdr) (hdrRate k.hdr) (hdrLift k.hdr) k.len

/-- The ticks that a frame of the device's own lasts. -/
def Line.ownTicks (l : Line) (o : OwnFrame) : Nat := frameTicks (l.chan o.chan).rateK o.mod o.rate o.lift (o.bytes.length - 1)

/-- The spans of frames pending or on air on a channel; of host frames only the fixed ones when `fixed` is set (R284). -/
def Line.busySpans (l : Line) (c : Nat) (fixed : Bool) : List (Tick × Tick) :=
  ((l.chan c).onAir.map fun o => (o.launch, o.endAt)).toList
    ++ (l.sched.actions.filter fun a => a.fixed || !fixed).flatMap (fun a =>
        (a.frames.filter fun f => f.desc.chan == c && !f.launched && !f.ended).map fun f => (a.frameLaunch f, l.descEnd f.desc (a.frameLaunch f)))
    ++ (l.relay.copies.filter fun k => k.chan == c).map (fun k => (k.launch, k.launch + l.copyTicks k))
    ++ (l.time.planned.filter fun o => o.chan == c).map fun o => (o.launch, o.launch + l.ownTicks o)

/-- A fixed report of a channel that a span meets (R262). -/
def Line.reportOver (l : Line) (c : Nat) (a b : Tick) : Option OwnFrame :=
  l.time.planned.find? fun o => o.chan == c && o.type == 0 && decide (o.launch < b ∧ a < o.launch + l.ownTicks o)

/-- Whether a span meets one of a list. -/
def meets (spans : List (Tick × Tick)) (a b : Tick) : Bool := spans.any fun x => decide (x.1 < b ∧ a < x.2)

/-- Whether an action of a class before that of a frame launch has still to act on a channel at the present tick (R88, R284). -/
def Line.classWaits (l : Line) (c : Nat) : Bool :=
  l.sched.actions.any fun b => b.actsAt l.clock.tb && decide (b.kind.cls < 4) && (b.units fun _ => true).any (l.sameUnit (4, c))

/-! ## Launch -/

/-- TXB of a unicast frame at an attenuation in 0.25 dB steps (R235). Where entry 0 of the port set is unused the specification gives no port: TX_ATT
is then the reset value of 31.75 dB (DESIGN CHOICE, log 109). -/
def Line.unicastTxb (l : Line) (c level : Nat) : Nat :=
  let x := l.chan c
  let p := ((x.place.bind fun q => q.portSet.head?).getD 0xFF)
  min 15 ((48 + level + x.row 12 + (l.port p).row 2) / 8)

/-- TXB of a frame (R166, R235). -/
def Line.txbFor (l : Line) (type c level : Nat) : Nat := if type = 1 ∨ type = 2 then 15 else l.unicastTxb c level

/-- The entries of a port set at a launch (R237, R238), each at the level -12 - LEVEL - LVL_OFS[e] dBFS (R235); `only` names the one port of a
time-transfer reply (R174). -/
def Line.airEntries (l : Line) (mode : Mode) (c level : Nat) (only : Option Nat) : List TxEntry :=
  (((l.chan c).place.map (·.portSet)).getD []).zipIdx.map fun (p, e) =>
    { port := p, trim := (l.port p).row 3, level := 48 + level + (l.chan c).row (12 + e), started := p != 0xFF && only.all (· == p) && l.carries mode p, ended := none, complete := false }

/-- A frame as it goes on air at the present instant, at a LEVEL in 0.25 dB steps. -/
def Line.airOf (l : Line) (mode : Mode) (c : Nat) (kind : AirKind) (only : Option Nat) (hdr size level : Nat) (bytes : List Byte) : OnAir :=
  let k := (l.chan c).rateK
  let n := frameSymbols (hdrMod hdr) (hdrRate hdr) (hdrLift hdr) (hdrLen hdr)
  { kind := kind, epoch := (l.chan c).epoch, hdr := hdr, bytes := bytes, data := none, launch := l.clock.tb, endAt := frameEnd l.clock.tb k n, symbols := n, txb := hdrTxb hdr,
    entries := l.airEntries mode c level only, steps := 0, clip := false, size := size, f := ((l.chan c).place.map (·.f)).getD 0, rateK := k,
    nco := l.clock.nco }

/-- Whether a frame starts on any port. -/
def OnAir.starts (o : OnAir) : Bool := o.entries.any (·.started)

/-- A frame starts on every port of the set that transmits (R237): the driver enables are held, the channels it overlaps hold their search
(R122, R135). -/
def Line.goOnAir (mode : Mode) (c : Nat) (o : OnAir) (l : Line) : Line :=
  let l := l.modChan c fun x => { x with onAir := some o }
  let ports := (o.entries.filter (·.started)).map (·.port)
  let l := ports.foldl (fun l p => if (l.port p).holders.count c < l.asks c p then l.holdDrv mode c p else l) l
  let l := if mode == .test then l else ports.foldl (fun l p => l.startHold p (bandOf o.f o.rateK) (o.launch - (l.port p).row 3)) l
  l.settleSet c l.clock.tb

/-! ## The end of a frame -/

/-- The record of a relayed copy that was on air (R294). -/
def Line.relaySent (t : Tick) (c : Nat) (k : Copy) (o : OnAir) (l : Line) : Line :=
  let x := o.outcome 0 0 false
  if l.relay.report = 0 ∧ x.cut = false then l
  else l.relayEvent t 0x180 c (k.words ++ [w k.htg, w k.hc] ++ tickWords o.launch ++ [w (x.complete * 256 + x.ended), w x.cause] ++ wordsOf 2 x.symbols)

/-- The frame on air of a channel is over: its ports let go, its outcome is recorded (R122, R246, R294). -/
def Line.frameOver (c : Nat) (o : OnAir) (l : Line) : Line :=
  let l := (o.entries.filter fun e => e.started && !e.complete).foldl (fun l e =>
    match e.ended with
    | none => l
    | some (t, cause) =>
      if t + 750 ≤ l.clock.tb then l.endingComplete e.port c
      else l.modPort e.port fun q => { q with lateEnds := q.lateEnds ++ [{ chan := c, at_ := t, cause := cause, f := o.f, rateK := o.rateK }] }) l
  let l := l.modChan c fun x => { x with onAir := none }
  let l := (o.entries.filter TxEntry.whole).foldl (fun l e =>
    ((l.modPort e.port fun q => { q with airEnd := max q.airEnd (o.endAt - e.trim) }).settleDrv c e.port (o.endAt - e.trim)).endHold e.port (bandOf o.f o.rateK) (o.endAt - e.trim)) l
  match o.kind with
  | .host tag action index slipped seq level => l.completion o.dueAt o.epoch c tag action index seq (o.outcome slipped level o.clip)
  | .relay k => l.relaySent o.dueAt c k o
  | .own _ => l

/-- The frame on air of a channel is over once its end has come (R246). -/
def Line.transmitEnd (c : Nat) (l : Line) : Line :=
  match (l.chan c).onAir with
  | none => l
  | some o => if o.dueAt > l.clock.tb then l else l.frameOver c o

/-- TRANSMIT_FRAME_END, with the clip samples since the last report, of which its CLIP flag tells (R236, R246, R294; log 92). -/
def execTransmitFrameEnd (dt : Nat) (ending : FrameEnd) (s : State) : Out :=
  .next (((s.advance dt).onLine fun l => (l.noteClips ending.clips).transmitEnd ending.channel).flush)

/-! ## Frames of the device's own -/

/-- A frame of the device's own is not sent: a beacon is a beacon reject (R170), a report a report skipped (R262). -/
def Line.ownUnsent (o : OwnFrame) (l : Line) : Line :=
  if o.type = 2 then l.countRelay 5 else if o.type = 0 then l.countLink o.chan 1 else l

/-- An own frame goes on air: SEED from the channel's count, TXB and level at RELAY_LEVEL (R156, R235). A report counts as sent (R262). With a frame of
the channel on air, over a fixed report (R262), longer than 10 s (R187), or with no port of the set that transmits, it is not sent (R90, R170). -/
def Line.launchOwn (mode : Mode) (o : OwnFrame) (l : Line) : Line :=
  let l := { l with time := { l.time with planned := l.time.planned.filter fun p => !(p.chan == o.chan && p.type == o.type && p.launch ≤ l.clock.tb) } }
  let seed := (l.chan o.chan).origin.toNat % 4096
  let hdr := makeHeader l.netId o.type o.mod o.rate o.lift (o.bytes.length - 1) seed (l.txbFor o.type o.chan ((l.chan o.chan).row 20)) false
  let a := l.airOf mode o.chan (.own o.type) o.port hdr 0 ((l.chan o.chan).row 20) (withCheck (hopDest o.bytes) (hopSeq o.bytes) o.bytes)
  if !a.starts || (l.chan o.chan).onAir.isSome || (l.reportOver o.chan a.launch a.endAt).isSome
      || tooLong (l.chan o.chan).rateK o.mod o.rate o.lift (o.bytes.length - 1) then (l.settleSet o.chan l.clock.tb).ownUnsent o
  else
    let l := l.insertDup (hopSrc o.bytes) (hopSeq o.bytes)
    let l := if o.type = 0 then l.countLink o.chan 0 else l
    (l.modChan o.chan fun x => { x with origin := x.origin + 1 }).goOnAir mode o.chan a

end Sys2Proof.Machine
end

