-- ==== Sys2Proof/Machine/Flash.lean ====
section
/-! DEFINITION. The flash image (R475 to R479): the check of a slot, the choice of a slot, FLASH_PROGRAM and its completion. -/

namespace Sys2Proof.Machine

/-- The largest body of a region (Table 19.4). -/
def largestBody (region : Nat) : Nat := if region = 0 then 2096896 else if region = 1 then 524288 else 65280

/-- Bytes `i` to `i + n - 1` of a header as a number (R476). -/
def FlashSlot.field (x : FlashSlot) (i n : Nat) : Nat := beNat ((x.header.drop i).take n)

/-- LENGTH of a slot. -/
def FlashSlot.length (x : FlashSlot) : Nat := x.field 12 4

/-- GEN of a slot. -/
def FlashSlot.gen (x : FlashSlot) : Nat := x.field 128 4

/-- RELEASE of a slot: major, minor, patch, build. -/
def FlashSlot.release (x : FlashSlot) : W32 := BitVec.ofNat 32 (x.field 8 4)

/-- Whether the header of a slot passes (R477). -/
def FlashSlot.headerOk (region : Nat) (x : FlashSlot) : Bool :=
  decide (x.header.length = 256 ∧ x.field 0 4 = 0x5A583936 ∧ x.field 4 1 = region ∧ x.field 5 1 = 1 ∧ 1 ≤ x.length ∧ x.length ≤ largestBody region)
    && (region == 2 || Config.sigVerifies (x.header.take 64) ((x.header.drop 64).take 64))

/-- Whether a slot passes its check (R477). -/
def FlashSlot.passes (region : Nat) (x : FlashSlot) : Bool :=
  x.headerOk region && decide (x.length ≤ x.body.length) && decide (Config.sha256 (x.body.take x.length) = (x.header.drop 16).take 32)

/-- Slot `i` of a region: 0 is A, 1 is B (Table 19.4). -/
def Flash.slot (f : Flash) (region i : Nat) : FlashSlot := nth f.slots (2 * region + i) { header := [], body := [] }

/-- The slot that R477 chooses in a region: the later GEN first, A when they are equal. -/
def Flash.choose (f : Flash) (region : Nat) : Option Nat :=
  let order := if later (f.slot region 0).gen (f.slot region 1).gen 32 then [1, 0] else [0, 1]
  order.find? fun i => (f.slot region i).passes region

/-- The slots that R477 finds bad, bit 0 slot A, bit 1 slot B: those whose header fails, for it reads both, and those whose body it tried before it chose. -/
def Flash.failed (f : Flash) (region : Nat) : Nat :=
  let order := if later (f.slot region 0).gen (f.slot region 1).gen 32 then [1, 0] else [0, 1]
  let tried := order.takeWhile fun i => !(f.slot region i).passes region
  (([0, 1].filter fun i => !(f.slot region i).headerOk region || tried.contains i).map fun i => 2 ^ i).sum

/-- The slot in use of a region. -/
def Flash.used (f : Flash) (region : Nat) : Option Nat := nth f.inUse region none

/-- RELEASE of the firmware that a region's slot in use holds; 0 for none. -/
def Flash.usedRelease (f : Flash) (region : Nat) : W32 := ((f.used region).map fun i => (f.slot region i).release).getD 0

/-- A region is checked: the slot that it gives is in use, with FW_SLOT (R477, R482, Table 19.9). -/
def State.checkRegion (region : Nat) (s : State) : State :=
  let f := s.host.flash
  let c := f.choose region
  let x := (c.map fun i => f.slot region i).getD { header := [], body := [] }
  let fields := [w region, w (c.getD 0xFF)] ++ wordsOf 2 x.gen ++ wordsOf 2 x.release.toNat ++ [w (f.failed region)]
  let h := { s.host with flash := { f with inUse := f.inUse.set region c } }
  { s with host := h.event 0x007 0x8000 1 false s.dev.modeEpoch 0 fields }

/-! ## The interface -/

/-- The fastest read mode that an SFDP table lists; 1-1-1 where it lists none (R361). -/
def Sfdp.fastest (t : Sfdp) : FlashMode :=
  if t.modes.contains .x144 then .x144 else if t.modes.contains .x114 then .x114 else .x111

/-- The device starts the interface (R361): it reads with command 0x03 at 25 MHz, reads the SFDP table with 0x5A, and goes on in the fastest mode listed at
up to 100 MHz, or where the table is absent as it began. -/
def Flash.start (f : Flash) : Flash :=
  if f.issued.isEmpty then
    match f.sfdp with
    | some t => { f with readMode := t.fastest, clock := 100, issued := [0x03, 0x5A] }
    | none => { f with readMode := .x111, clock := 25, issued := [0x03, 0x5A] }
  else f

/-! ## FLASH_PROGRAM -/

/-- Opcode 0x008 (Table 11.6). -/
def infoFlashProgram : CmdInfo := ⟨0x008, false, false, setCfg⟩

/-- The master ID of the command processor of a transport (Table 15.3). -/
def cpMaster (t : Transport) : Nat := 0x21 + cpOf t

/-- The header that the device builds for a configuration body (R479). -/
def configHeader (body : List Byte) : List Byte :=
  [0x5A, 0x58, 0x39, 0x36, 2, 1, 0, 0] ++ List.replicate 4 0 ++ beBytes 4 body.length ++ Config.sha256 body ++ List.replicate 208 0

/-- GEN of the image to write: that of the slot in use plus 1 (R479); 1 where no slot is in use. -/
def Flash.nextGen (f : Flash) (region : Nat) : Nat := (((f.used region).map fun i => (f.slot region i).gen).getD 0 + 1) % 2 ^ 32

/-- The image with its GEN. -/
def FlashSlot.withGen (gen : Nat) (x : FlashSlot) : FlashSlot := { x with header := x.header.take 128 ++ beBytes 4 gen ++ x.header.drop 132 }

/-- The image of a source: a whole slot image, or the body of region 2 (R479). -/
def imageOf (region : Nat) (bytes : List Byte) : FlashSlot :=
  if region = 2 then { header := configHeader bytes, body := bytes } else { header := bytes.take 256, body := bytes.drop 256 }

/-- FLASH_PROGRAM: the source is read and checked, the programming begins (R479). -/
def State.flashProgram (via : Transport) (cmd : Cmd) (s : State) : Answer :=
  let region := cmd.word 3
  if region > 2 then s.hostError 0
  else if s.host.flash.job.isSome then ⟨.busy, [], s⟩
  else
    let r := s.readHb (cpMaster via) (cmd.value 4 2) (cmd.value 6 2)
    let f := r.2.2.host.flash
    let image := imageOf region r.1
    let ok := if region = 2 then decide (1 ≤ r.1.length ∧ r.1.length ≤ largestBody 2) else image.passes region
    let job : FlashJob := { tag := cmd.tag, via := via, region := region, ok := ok && f.sfdp.isSome, image := image.withGen (f.nextGen region) }
    ⟨.accepted, [], { r.2.2 with host := { r.2.2.host with flash := { f with job := some job } } }⟩

/-- FLASH_PROGRAM (R479); it waits while a bank of its source has a handover pending (R394). -/
def execFlashProgram (dt : Nat) (cmd : Cmd) (s : State) : Out :=
  .next (let s := s.advance dt
    if s.blocked (cpMaster cmd.via) (cmd.value 4 2) (cmd.value 6 2) false then s
    else s.runH infoFlashProgram cmd (State.modeRef cmd) (State.flashProgram cmd.via cmd))

/-- The slot that FLASH_PROGRAM writes: the one not in use (R479). -/
def Flash.target (f : Flash) (region : Nat) : Nat := match f.used region with | some 0 => 1 | _ => 0

/-- The commands that write a slot: erase and page program as the SFDP table lists them (R361). -/
def Flash.writes (f : Flash) : List Byte := match f.sfdp with | some t => [t.erase, t.program] | none => []

/-- FLASH_DONE: the slot is written, or the flash unchanged (R361, R479, Table 11.16). -/
def State.flashDone (s : State) : State :=
  let f := s.host.flash
  match f.job with
  | none => s
  | some j =>
    let n := if j.ok then 256 + j.image.length else 0
    let slots := if j.ok then f.slots.set (2 * j.region + f.target j.region) { j.image with body := j.image.body.take j.image.length } else f.slots
    let h := { s.host with flash := { f with slots := slots, issued := f.issued ++ (if j.ok then f.writes else []), job := none } }
    let st := statusCode (if j.ok then .ok else .aborted)
    { s with host := h.event 0x003 0x8000 1 false s.dev.modeEpoch 0 ([j.tag, w j.region, w st] ++ wordsOf 2 n) }

/-- FLASH_DONE (R479). -/
def execFlashDone (dt : Nat) (s : State) : Out := .next (s.advance dt).flashDone

end Sys2Proof.Machine
end

