-- ==== Sys2Proof/Machine/Frames.lean ====
section
/-! DEFINITION. Host frames (R228 to R246): submission, staging, launch and abort. -/

namespace Sys2Proof.Machine

/-! ## Descriptors -/

/-- Whether a descriptor's values lie in the ranges of Table 8.1. -/
def FrameDesc.inRange (d : FrameDesc) : Bool := decide (d.ofs ≤ 16666667 ∧ d.mod ≤ 7 ∧ d.type ≤ 1 ∧ d.level ≤ 160)

/-- The refusals of R230, R261 and R424 that need no launch instant. -/
def State.refusesDesc (s : State) (d : FrameDesc) : Bool :=
  let k := s.host.key d.slot
  decide (s.line.nodeId = 0 ∨ lenM1 d > 32767) || hopReject d.type d.floodK d.floodId
    || (d.type == 0 && d.dest == 0xFFFFFFFF && d.hopsToGo == 0)
    || (d.sec && !(k.txEn && decide (k.state = .loaded)))

/-- Whether a frame keeps to R187, and a flood frame to R164 and to 80 % of its launch stroke on the action's reference port (R77, R230). -/
def Line.frameFits (l : Line) (p : Nat) (d : FrameDesc) (t : Tick) : Bool :=
  !tooLong (l.chan d.chan).rateK d.mod d.rate d.lift (lenM1 d) && (d.type != 1 || l.floodFits d.chan p d t)

/-- Whether a frame would overlap a later one of its hamper on its channel (R268). `others` holds the hamper's descriptors. -/
def Line.clearOf (l : Line) (base : Tick) (others : List FrameDesc) (d : FrameDesc) : Bool :=
  others.all fun o => o.chan != d.chan || decide (o.ofs ≤ d.ofs) || decide (l.descEnd d (base + d.ofs) ≤ base + o.ofs)

/-- The MOD, RATE and LIFT of a frame launched with its command at `base` (R267, R268); none when no step up to the ceiling passes. `p` is the
reference port of the command. -/
def Line.choose (l : Line) (p : Nat) (base : Tick) (others : List FrameDesc) (d : FrameDesc) : Option FrameDesc :=
  let t := base + d.ofs
  match l.choiceStep d t with
  | none => if l.frameFits p d t then some d else none
  | some start =>
    let top := (l.chan d.chan).ceiling d.mod d.rate
    let steps := start :: (List.range (top - start)).map (start + 1 + ·)
    (steps.map d.atStep).find? fun e => l.frameFits p e t && l.clearOf base others e

/-- The link entries that gave a frame its step remember its length (log 46). -/
def Line.rememberLen (l : Line) (d : FrameDesc) : Line :=
  if (l.chan d.chan).row 21 = 0 then l
  else (l.choiceEntries d).foldl (fun l e => l.modEntry e.index fun x => { x with lastLen := some (lenM1 d) }) l

/-- Every frame chosen, or none (R230). -/
def Line.chooseAll (l : Line) (p : Nat) (base : Tick) (ds : List FrameDesc) : Option (List FrameDesc) :=
  ds.foldr (fun d r => match l.choose p base ds d, r with | some e, some es => some (e :: es) | _, _ => none) (some [])

/-! ## Acceptance -/

/-- The encryption of a secured frame (R423); `input` holds its hop header. -/
def HostFrame.txOp (f : HostFrame) : CipherOp :=
  { origin := .tx f.action f.index, tag := f.tag, mode := .gcm, decrypt := false, stream := false, slot := f.desc.slot, tagLen := 16, aadLen := 32,
    src := f.desc.dataOfs, dst := 0, len := f.desc.dataLen, nonce := [], accepted := f.accepted, launch := f.launch, frameEnd := 0, key := [],
    keyLen := 0, keyId := 0, slotEpoch := 0, keyChanged := false, erased := none, input := hopHeader f.desc, released := 0, written := 0, segs := [],
    final := none, zeroing := false }

/-- The frames that an accepted command has brought to the host side: they enter the transmit frame queue, the secured ones also that of the cipher
engines (R337, R423). -/
def HostSide.takeFrames (fs : List HostFrame) (h : HostSide) : HostSide :=
  { h with txq := h.txq ++ fs, txHwm := max h.txHwm (h.txq.length + fs.length),
           cipherQ := h.cipherQ ++ (fs.filter fun f => f.desc.sec).map HostFrame.txOp }

/-- The frames of a reply under way. -/
def Msg.replyFrames : Msg → List HostFrame
  | .replyLine r => r.frames
  | .cmdLine _ => [] | .frameDown _ _ _ => [] | .frameGone _ _ _ _ => [] | .retracted _ => [] | .frameUp _ => [] | .lineReset _ => []
  | .event _ _ => [] | .timeSync _ _ => [] | .alarm => []

/-- The frames that the transmit frame queue holds or that a reply is bringing to it (R337). -/
def State.txCount (s : State) : Nat :=
  s.host.txq.length + ((s.link.line.flight.map (·.msg) ++ s.link.host.inbox).flatMap Msg.replyFrames).length

/-- The frames of an accepted command enter the scheduler; their SEQ and duplicate keys are taken in order (R229, R275, R522). -/
def State.takeIn (a : Action) (ds : List FrameDesc) (s : State) : State :=
  let frames := List.zipWith (fun f d => { f with desc := d }) a.frames ds
  let l := s.line.enqueue { a with frames := frames }
  { s with line := ds.foldl (fun l d => (l.rememberLen d).insertDup d.src d.seq) l,
           host := { s.host with seqNext := s.host.seqNext + BitVec.ofNat 16 ds.length } }

/-- The result words of an accepted command (Table 11.9). -/
def frameWords (a : Action) (ds : List FrameDesc) : List W16 :=
  a.words ++ [w ds.length] ++ ds.flatMap fun d => [d.seq, w (d.mod * 4096 + d.rate * 1024 + d.lift * 256)]

/-- FRAME_SUBMIT and HAMPER_SUBMIT with `n` descriptors (R230): refused, or accepted with every frame chosen. -/
def State.submit (hamper : Bool) (n : Nat) (acc : Accepted) (s : State) : Answer :=
  let ds := (List.range n).map (parseDesc acc.cmd)
  match parseSpec acc.cmd with
  | none => s.hostError (6 + 2 * n)
  | some spec =>
    if !ds.all FrameDesc.inRange then s.hostError (6 + 2 * n)
    else
      let p := (s.line.chan ((ds.head?.map (·.chan)).getD 0)).refPort
      let a : Action :=
        { id := s.line.sched.nextId, tag := acc.cmd.tag, via := acc.cmd.via, kind := .frames hamper, spec := spec, refPort := p,
          accepted := acc.at_, n0 := 0, slipped := 0, launch := 0, fixed := false, expEpoch := none, deferred := none, late := false,
          frames := ds.zipIdx.map fun d =>
            { desc := d.1, payload := none, seed := 0, launched := false, ended := false, touched := acc.touched.contains d.2 } }
      if ds.any s.refusesDesc || decide (s.txCount + n > 8192) then ⟨.noResource, [], s⟩
      else
        let r := s.line.judgeAction a
        let base := (r.2.map (·.launch)).or (s.line.launchOf false spec p acc.at_ ds)
        match r.1, base.bind fun t => s.line.chooseAll p t ds with
        | .noResource, _ => ⟨.noResource, [], s⟩
        | _, none => ⟨.noResource, [], s⟩
        | .accepted, some es =>
          let es := es.zipIdx.map fun d => { d.1 with seq := s.host.seqNext + BitVec.ofNat 16 d.2, src := s.line.nodeId }
          match r.2 with
          | some b => ⟨.accepted, frameWords b es, s.takeIn b es⟩
          | none => ⟨.noResource, [], s⟩
        | _, _ => ⟨.late, [], { s with line := s.line.countSched 1 1 }⟩

/-- Opcode 0x140 (Table 11.9). -/
def infoFrameSubmit : CmdInfo := ⟨0x140, false, true, setTx⟩

/-- FRAME_SUBMIT: one frame (R230). -/
def State.frameSubmit (acc : Accepted) (s : State) : Answer :=
  if acc.cmd.word 8 = 1 then s.submit false 1 acc else s.hostError 8

/-- FRAME_SUBMIT (R230). -/
def execFrameSubmit (dt : Nat) (cmd : Cmd) (s : State) : Out :=
  .next ((s.advance dt).runL infoFrameSubmit cmd true (State.chanRefL (cmd.word 9 % 256)) State.frameSubmit)

/-- Opcode 0x141. -/
def infoHamperSubmit : CmdInfo := ⟨0x141, false, true, setTx⟩

/-- HAMPER_SUBMIT: up to 64 frames under one launch specifier; a count that disagrees with LENGTH is a host error (R230, Table 11.9). -/
def State.hamperSubmit (acc : Accepted) (s : State) : Answer :=
  let n := acc.cmd.word 8
  if 1 ≤ n ∧ n ≤ 64 ∧ acc.cmd.params.length = 6 + 14 * n then s.submit true n acc else s.hostError 6

/-- HAMPER_SUBMIT (R230). -/
def execHamperSubmit (dt : Nat) (cmd : Cmd) (s : State) : Out :=
  .next ((s.advance dt).runL infoHamperSubmit cmd true (State.chanRefL (cmd.word 9 % 256)) State.hamperSubmit)

/-- Opcode 0x142. -/
def infoTransmitAbort : CmdInfo := ⟨0x142, false, true, setRun⟩

/-- TRANSMIT_ABORT: the frame on air on a channel ends on every port at the present instant (R242). One whose end has come is over. -/
def State.transmitAbort (acc : Accepted) (s : State) : Answer :=
  let c := acc.cmd.word 3
  if c ≥ 256 then s.hostError 1
  else
    let l := s.line.transmitEnd c
    let on := ((l.chan c).onAir.map fun o => o.entries.any fun e => e.started && e.ended.isNone && !e.complete).getD false
    ⟨.ok, [w (b2n on)], { s with line := l.endChan c l.clock.tb 5 }⟩

/-- TRANSMIT_ABORT (R242). -/
def execTransmitAbort (dt : Nat) (cmd : Cmd) (s : State) : Out :=
  .next ((s.advance dt).runL infoTransmitAbort cmd false (State.chanRefL (cmd.word 3)) State.transmitAbort)

/-! ## Staging -/

/-- STAGE_AHEAD in ticks (R232). -/
def Line.stageTicks (l : Line) : Tick := (l.stageAhead * 150000 : Nat)

/-- Whether a frame of the transmit frame queue is ready and due (R232). -/
def HostFrame.due (now ahead : Tick) (f : HostFrame) : Bool := (f.payload.isSome || !f.desc.sec) && decide (f.launch ≤ now + ahead)

/-- Whether a frame goes before another that stands ahead of it in the queue: the earlier launch instant, then the lower channel, then the earlier
acceptance (R232). -/
def HostFrame.goesBefore (g f : HostFrame) : Bool :=
  decide (g.launch < f.launch ∨ (g.launch = f.launch ∧ (g.desc.chan < f.desc.chan ∨ (g.desc.chan = f.desc.chan ∧ g.accepted < f.accepted))))

/-- The frame to send first (R232). -/
def firstDue : List HostFrame → Option HostFrame
  | [] => none
  | f :: t => match firstDue t with
    | none => some f
    | some g => if g.goesBefore f then some g else some f

/-- The payload string of an unsecured frame, its data read from the BAR2 window by the barrier DMA (R231, Table 6.6). -/
def State.plainPayload (f : HostFrame) (s : State) : List Byte × State :=
  let r := s.readHb 0x23 f.desc.dataOfs f.desc.dataLen
  (hopHeader f.desc ++ r.1, r.2.2)

/-- A frame held by a full pool is counted once (Table 8.5). -/
def State.waitForPool (f : HostFrame) (s : State) : State :=
  if f.waited then s
  else
    { s with line := s.line.countTx f.desc.chan 8 1,
             host := { s.host with txq := s.host.txq.map fun g => if g.action == f.action && g.index == f.index then { g with waited := true } else g } }

/-- FRAME_DOWN_SEND (R232, R337): the earliest ready frame crosses once the pool has room; its data are read once no handover is pending (R394). -/
def State.frameDownSend (s : State) : State :=
  if !s.link.host.up then s
  else match firstDue (s.host.txq.filter (HostFrame.due s.host.follower s.line.stageTicks)) with
    | none => s
    | some f =>
      if f.payload.isNone && s.blocked 0x23 f.desc.dataOfs f.desc.dataLen false then s
      else if !poolFits s.poolUse (poolSize (lenM1 f.desc + 1)) then s.waitForPool f
      else
        let r := match f.payload with | some p => (p, s) | none => s.plainPayload f
        let h := r.2.host
        { r.2 with host := { h with txq := h.txq.filter fun g => !(g.action == f.action && g.index == f.index), notes := h.notes ++ [f.note] },
                   link := { r.2.link with host := r.2.link.host.send s.host.follower (.frameDown f.action f.index r.1) } }

/-- FRAME_DOWN_SEND (R232). -/
def execFrameDownSend (dt : Nat) (s : State) : Out := .next (s.advance dt).frameDownSend

/-- A frame becomes resident and takes its SEED from the channel's count (R85, R156, R229). -/
def Line.resident (id i : Nat) (payload : List Byte) (l : Line) : Line :=
  match (l.action? id).bind fun a => a.frames[i]? with
  | none => l
  | some f =>
    if f.launched || f.ended || f.payload.isSome then l
    else
      let seed := (l.chan f.desc.chan).origin.toNat % 4096
      let l := l.modChan f.desc.chan fun x => { x with origin := x.origin + 1 }
      { l with sched := l.sched.modFrame id i fun f => { f with payload := some payload, seed := seed } }

/-- FRAME_DOWN_RECEIVE (R85, R195). -/
def State.frameDownReceive (s : State) : State :=
  match takeInbox s.link.line with
  | some (.frameDown id i payload, e) => { s with link := { s.link with line := e }, line := s.line.resident id i payload }
  | _ => s

/-- FRAME_DOWN_RECEIVE (R195). -/
def execFrameDownReceive (dt : Nat) (s : State) : Out := .next (s.advance dt).frameDownReceive

/-! ## Launch -/

/-- The instant at which the launch of an action was fixed (R284). -/
def Action.fixedAt (a : Action) : Tick := if a.spec.onStrokes then max a.accepted (a.launch - 1500000) else a.accepted

/-- When what goes before a host frame on its channel is over: the frame on air (R90), a relayed copy of the same instant that was fixed earlier
(R284), or a report fixed before the frame came to overlap it (R262). -/
def Line.rivalEnd (l : Line) (a : Action) (d : FrameDesc) : Option Tick :=
  let c := d.chan
  let now := l.clock.tb
  match (l.chan c).onAir with
  | some o => some o.endAt
  | none =>
    match l.relay.copies.find? fun k => k.chan == c && k.launch == now && decide (k.decided < a.fixedAt) with
    | some k => some (now + l.copyTicks k)
    | none => (l.reportOver c now (l.descEnd d now)).map fun o => o.launch + l.ownTicks o

/-- A frame found not to pass the checks at its launch, dropped at L (R92, R238, R239). -/
def State.dropAtLaunch (a : Action) (i : Nat) (cause : Nat) (s : State) : State :=
  { s with line := s.line.dropFrame a i (causeStatus cause) cause s.line.clock.tb }

/-- A resident frame starts, or is dropped, at its launch instant (R92, R237 to R239). Of several checks that fail, after that of R90, the expected
epoch goes first, then the placement, then the ports (log 106). A frame that the rate now in force makes longer than 10 s is not sent (R187): the
placement does not carry it, cause NO_PLACE (log 105). Data bytes that the host has written since the acceptance are free (R231; log 67). -/
def State.startFrame (a : Action) (i : Nat) (f : TxFrame) (payload : List Byte) (s : State) : State :=
  let l := s.line
  let d := f.desc
  let x := l.chan d.chan
  if d.expEpoch.isSome && d.expEpoch != some x.epoch then s.dropAtLaunch a i 10
  else if x.entries.isEmpty || tooLong x.rateK d.mod d.rate d.lift (lenM1 d) then s.dropAtLaunch a i 8
  else
    let hdr := makeHeader l.netId d.type d.mod d.rate d.lift (lenM1 d) f.seed (l.txbFor d.type d.chan d.level) d.sec
    let head := if d.sec then 32 else 16
    let n := if f.touched then payload.length - head else 0
    let payload := payload.take (payload.length - n) ++ (List.range n).map fun j => Config.freeByte (s.host.freeCtr + j)
    let s := s.spend n
    let o := l.airOf s.dev.mode d.chan (.host a.tag a.id i a.slipped d.seq d.level) none hdr (poolSize (lenM1 d + 1)) d.level (withCheck d.dest d.seq payload)
    let o := { o with data := some (d.dataOfs, d.dataLen, head) }
    if !o.starts then s.dropAtLaunch a i 7
    else
      let l := { l with sched := (l.sched.modFrame a.id i fun f => { f with launched := true }).sweep }
      { s with line := l.goOnAir s.dev.mode d.chan o }

/-- A host frame at its launch instant, every action that goes before it having acted (R82, R88, R90, R237). A frame of the channel whose end has
come is over first. -/
def State.launchFrame (id i : Nat) (s : State) : State :=
  match s.line.action? id with
  | none => s
  | some a =>
    match a.frames[i]? with
    | none => s
    | some f =>
      let now := s.line.clock.tb
      let c := f.desc.chan
      if f.launched || f.ended || a.frameLaunch f != now || s.dev.mode == .maintain || !s.line.ready || s.line.mustWait a [(4, c)] then s
      else
        match f.payload with
        | none => s.lateFrame a i (fun t => decide (now < t + f.desc.ofs)) 1
        | some payload =>
          let s := s.onLine (Line.transmitEnd c)
          match s.line.rivalEnd a f.desc with
          | some e => s.lateFrame a i (fun t => decide (e ≤ t + f.desc.ofs)) 3
          | none => s.startFrame a i f payload

/-- FRAME_LAUNCH (R237). -/
def execFrameLaunch (dt : Nat) (action index : Nat) (s : State) : Out := .next (((s.advance dt).launchFrame action index).flush)

end Sys2Proof.Machine
end

