-- ==== Sys2Proof/Machine/Receive.lean ====
section
/-! DEFINITION. Reception (R197 to R227): SYNC candidates and the two contexts, the header test and the commit, washes, codeword ends, cut-through
segments and the records of a frame. -/

namespace Sys2Proof.Machine

/-! ## Candidates -/

/-- The modes in which a channel searches for SYNC (R198). -/
def searches : Mode → Bool
  | .headend => true | .relay => true | .corridor => true | .holdover => true | .island => true | .test => true
  | .boot => false | .config => false | .survey => false | .maintain => false | .quarantine => false | .safe => false

/-- Whether a channel may declare a candidate now (R198, R200): also not in a hold whose first sample has left ahead of its L (R135), and in TEST only
on a port that a loopback joins. -/
def Line.maySearch (l : Line) (mode : Mode) (c : Nat) : Bool :=
  match (l.chan c).rxPort with
  | none => false
  | some p => searches mode && l.ready && (l.port p).on && (l.port p).settle.isNone && (l.chan c).holdFrom.isNone && !l.heldAhead mode c &&
      (mode != .test || l.ports.any fun q => q.loop == some p)

/-- The repetition hypotheses of HDR_HYP in increasing order (Table 11.15). -/
def hypotheses (bits : Nat) : List Nat := ((List.range 3).filter (bitOf bits)).map fun i => nth [1, 4, 6] i 1

/-- The declaration instant of a candidate (R201). -/
def declaredAt (rateK : Nat) (launch : Tick) : Tick := launch + (335 * symbolTicks rateK : Nat)

/-- Whether a context is free at an instant (R202). -/
def ctxFree (now : Tick) : Option Ctx → Bool
  | none => true
  | some (.committed _ e) => decide (e ≤ now)
  | some (.cand _ _ _ _ _) => false

/-- The uncommitted contexts: index, square of the metric, and declaration. -/
def Chan.uncommitted (x : Chan) : List (Nat × Rat × Tick) :=
  x.ctx.zipIdx.filterMap fun p => match p.1 with | some (.cand k d _ _ _) => some (p.2, k.square, d) | _ => none

/-- The context that a new candidate takes, and the counter of its fate (R202): a free one, the weaker uncommitted one, or none.
Metrics compare as their squares do. -/
def Chan.contextFor (now : Tick) (square : Rat) (x : Chan) : Option (Nat × Option Nat) :=
  match (List.range 2).find? fun i => ctxFree now (nth x.ctx i none) with
  | some i => some (i, none)
  | none =>
    let weaker (a b : Nat × Rat × Tick) := if b.2.1 < a.2.1 ∨ (b.2.1 = a.2.1 ∧ b.2.2 < a.2.2) then b else a
    match x.uncommitted with
    | [] => none
    | a :: r =>
      let e := r.foldl weaker a
      if e.2.1 ≤ square then some (e.1, some 1) else none

/-- Whether the acquisition declares a candidate now (R201): the units of SYNC found, M at least DET_THR, which is in 1/256, at the declaration
instant. -/
def Line.declares (l : Line) (c : Nat) (y : SyncCand) : Bool :=
  let x := l.chan c
  decide (y.sync.length = 320) && unitsFound y.sync && decide (((x.row 2 : Nat) : Rat) ^ 2 / 2 ^ 16 ≤ syncSquare y.sync) &&
    decide (declaredAt x.rateK y.launch = l.clock.tb)

/-- A candidate takes or displaces a context, or is dropped (R201, R202). A committed frame whose end has come makes room as at its end; a displaced
candidate's header codeword in the array is finished (R194). -/
def Line.candidate (c : Nat) (y : SyncCand) (l : Line) : Line :=
  let x := l.chan c
  let k := lockOf y
  match x.contextFor l.clock.tb k.square with
  | none => l.modChan c fun x => (x.countRx 0 1).countRx 2 1
  | some (i, displaced) =>
    let l := if displaced.isSome then l.keepHeader c i else l
    l.modChan c fun x' =>
      let x' := { x'.countRx 0 1 with ctx := x'.ctx.set i (some (.cand k l.clock.tb (hypotheses (x.row 3)) [] [])) }
      match displaced with | some n => x'.countRx n 1 | none => x'

/-! ## Frame ends -/

/-- The context of a frame whose end has come is free, and the frame's codewords go to the decoder array (R192, R202). -/
def Line.frameEnded (c i : Nat) (l : Line) : Line :=
  match nth (l.chan c).ctx i none with
  | some (.committed r e) => if e ≤ l.clock.tb then (l.queueFrame c r).modChan c (Chan.freeCtx e i) else l
  | _ => l

/-- The contexts of a channel whose frames are over. -/
def Line.framesEnded (c : Nat) (l : Line) : Line := (l.frameEnded c 0).frameEnded c 1

/-- SYNC_CANDIDATE (R201). -/
def execSyncCandidate (dt : Nat) (channel : Nat) (cand : SyncCand) (s : State) : Out :=
  .next ((s.advance dt).onLine fun l =>
    if l.maySearch s.dev.mode channel && l.declares channel cand then ((l.framesEnded channel).candidate channel cand).settleEnded channel else l)

/-- Received symbols and clip samples come in for a context (R200, R208): a committed frame is watched for washes (R210). -/
def Line.observe? (c i : Nat) (rx : RxObs) (l : Line) : Line :=
  let l := l.noteClips rx.clips
  match nth (l.chan c).ctx i none with
  | none => l
  | some (.committed r _) => (l.receive c r rx.symbols).tellWashes c r false
  | some (.cand k d todo syms soft) =>
    let syms := (syms ++ rx.symbols).take (receivedBy (l.chan c).rateK k.launch l.clock.tb)
    l.modChan c fun x => { x with ctx := x.ctx.set i (some (.cand k d todo syms soft)) }

/-- WASH: the symbols up to the pilot at which a wash begins or settles (R210, R211; log 92). -/
def execWash (dt : Nat) (channel context : Nat) (rx : RxObs) (s : State) : Out :=
  .next ((s.advance dt).onLine fun l => l.observe? channel context rx)

/-- COMMITTED_FRAME_END with the last symbols of the frame (R202). -/
def execCommittedFrameEnd (dt : Nat) (channel : Nat) (ending : ContextEnd) (s : State) : Out :=
  .next ((s.advance dt).onLine fun l => (l.observe? channel ending.context ending.rx).frameEnded channel ending.context)

/-! ## The header -/

/-- Whether MOD agrees with a repetition factor (R205). -/
def modAgrees (mod r : Nat) : Bool := if r = 4 then mod == 6 else if r = 6 then mod == 7 else mod != 6 && mod != 7

/-- A candidate without a hypothesis left frees its context; else it waits for the next (R204, R206). -/
def Chan.nextTest (now : Tick) (i : Nat) (k : Lock) (d : Tick) (todo : List Nat) (syms : List Cx) (soft : List Soft) (x : Chan) : Chan :=
  match todo with
  | [] => (x.countRx 3 1).freeCtx now i
  | _ => { x with ctx := x.ctx.set i (some (.cand k d todo syms soft)) }

/-- The received header under a hypothesis, as the tracker and the demapper see it: BPSK symbols, whole pilot intervals (R204, R208). -/
def Chan.headerStream (x : Chan) (now : Tick) (k : Lock) (syms : List Cx) (r : Nat) : Stream :=
  { syms := syms, data := ceilDiv (352 * r) 31 * 31, head := ceilDiv (352 * r) 31 * 31, mod := 0, gain := k.gain, noise := k.noise,
    bad := markedAt x.rateK k.launch (x.marked now) }

/-- The frame that a passing header commits (R205). RX_TRIM is removed from its instants (R113). -/
def Line.newFrame (l : Line) (c i r hdr : Nat) (p : Nat) (k : Lock) (syms : List Cx) : RxFrame :=
  let x := l.chan c
  let launch := k.launch - (l.port p).row 4
  let at_ := syncInstant launch x.rateK
  let so := l.strokeOffset p at_
  { rxId := x.rxCount + 1, ctx := i, epoch := x.epoch, launch := launch, hdr := hdr, rep := r, lock := k, syms := syms,
    cfg := x.cfg, port := p, rateK := x.rateK, f := (x.place.map (·.f)).getD 0,
    endAt := frameEnd launch x.rateK (frameSymbols (hdrMod hdr) (hdrRate hdr) (hdrLift hdr) (hdrLen hdr)), trunc := none, overlap := false,
    erased := 0, spans := [], washes := 0, phase := l.localPhase p at_, stroke := so.1, ofs := so.2,
    cws := List.replicate (codewordCount (hdrRate hdr) (hdrLift hdr) (hdrLen hdr)) none, segs := 0, segBytes := 0, cutOff := false,
    closed := false, snr := 0x8000, evm := 0x8000, power := 0x8000 }

/-- Whether two frames meet (R203). -/
def RxFrame.meets (f g : RxFrame) : Bool := decide (g.launch < f.endAt ∧ f.launch < g.endAt)

/-- A frame gets OVERLAP from one that it meets (R203). -/
def RxFrame.meet (f g : RxFrame) : RxFrame := if f.meets g then { g with overlap := true } else g

/-- OVERLAP of a new frame and of those it meets (R203), also one whose decoding is over; `fresh` are the frames in the relay engine that it meets. -/
def Chan.withFrame (f : RxFrame) (fresh : Nat) (x : Chan) : Chan :=
  let met := x.frames.any f.meets || decide (f.launch < x.lastEnd)
  let hit (g : RxFrame) : Bool := f.meets g && !g.overlap
  let n := (x.frames.filter hit).length + (x.ended.filter fun e => hit e.frame).length + fresh + b2n met
  { x.countRx 11 n with
      frames := x.frames.map f.meet ++ [{ f with overlap := met }]
      ended := x.ended.map fun e => { e with frame := f.meet e.frame } }

/-- The frames of a channel that wait for the relay engine get OVERLAP from a frame that they meet (R203). -/
def Line.overlapInbox (c : Nat) (f : RxFrame) (l : Line) : Line :=
  { l with relay := { l.relay with inbox := l.relay.inbox.map fun (g : GoodFrame) => if g.chan = c then { g with frame := f.meet g.frame } else g } }

/-- The pending legs that a committed header withdraws (R288). -/
def Line.withdraw (which : Copy → Bool) (l : Line) : Line :=
  (l.relay.copies.filter fun k => k.type == 0 && decide (l.clock.tb < k.launch) && which k).foldl
    (fun l k => ((l.removeCopy k).settleSet k.chan l.clock.tb).countRelay 9) l

/-- Whether a header equals a copy's in TYPE, MOD, RATE, LIFT, LEN_M1 and SEED (R288). -/
def sameHeader (a b : Nat) : Bool := decide (bitsOf a 24 38 = bitsOf b 24 38)

/-- The commit of a context (R205): discarded under R153 or R187, else the frame with the washes of its header. -/
def Line.commit (c i r hdr : Nat) (k : Lock) (syms : List Cx) (l : Line) : Line :=
  let x := l.chan c
  match x.rxPort with
  | none => l
  | some p =>
    if headerReserved hdr || tooLong x.rateK (hdrMod hdr) (hdrRate hdr) (hdrLift hdr) (hdrLen hdr) then
      l.modChan c fun x => (x.countRx 4 1).freeCtx l.clock.tb i
    else
      let f := l.newFrame c i r hdr p k syms
      let fresh := (l.relay.inbox.filter fun g =>
        g.chan == c && f.meets g.frame && !g.frame.overlap && x.ended.all fun e => e.frame.rxId != g.frame.rxId).length
      let l := l.modChan c fun x =>
        { x.withFrame f fresh with rxCount := f.rxId, ctx := x.ctx.set i (some (.committed f.rxId (f.endAt + (l.port p).row 4))) }
      let l := (l.overlapInbox c f).withdraw fun q => q.rx == c && sameHeader q.hdr hdr
      (l.trackFrame c f.rxId).tellWashes c f.rxId false

/-- Payload codewords aside, the header counters of Table 6.11: widths of the table. -/
def decWidths : List Nat := [32, 32, 32, 32, 32, 32, 32, 32, 16]

/-- Counter `i` of Table 6.11 of a channel. -/
def Line.countDec (c i k : Nat) (l : Line) : Line := l.modChan c fun x => { x with ctrs6 := countAt i (nth decWidths i 32) k x.ctrs6 }

/-- A test of hypothesis `r` whose codeword has ended with `bits` (R205, R206). -/
def Line.headerEnds (c i r : Nat) (k : Lock) (d : Tick) (todo : List Nat) (syms : List Cx) (soft : List Soft) (bits : Bits) (good : Bool)
    (l : Line) : Line :=
  let next (todo : List Nat) (l : Line) : Line := l.modChan c (Chan.nextTest l.clock.tb i k d todo syms soft)
  let l := l.countDec c 0 1
  if !good then next todo l
  else
    let l := l.countDec c 1 1
    let h := bitsNat (bits.take 64)
    if headerCheck l.netId h ≠ h % 65536 then next todo l
    else if modAgrees (hdrMod h) r then l.commit c i r h k syms
    else if r = 1 then next [repeats (hdrMod h)] l
    else next todo l

/-- The test of the next hypothesis of a context, once its header is complete (R204) and its codeword has an engine (R192): copies 0 to R - 1 are combined
(R209) and decoded with at most 12 iterations and the stall rule (R188, R189). A wash in the header erases its symbols (R210, R211). Else what comes in
is kept as for a wash. -/
def Line.headerTest (c i : Nat) (y : HeaderObs) (l : Line) : Line :=
  match nth (l.chan c).ctx i none, (l.chan c).headerWord l.clock.tb c i with
  | some (.cand k d (r :: todo) syms _), some h =>
    if l.headerServed h then
      let x := l.chan c
      let now := l.clock.tb
      let l := l.noteClips y.rx.clips
      let syms := (syms ++ y.rx.symbols).take (receivedBy x.rateK k.launch now)
      let t := (l.chan c).headerStream now k syms r
      let soft := t.headerSoft (t.found x.cfg) r
      match decodeFrom 0 0 soft 12 true 1 [] y.iters with
      | some (bits, st, _) => (l.headerEnds c i r k d todo syms soft bits (st == 0)).settleEnded c
      | none => l.modChan c fun x => { x with ctx := x.ctx.set i (some (.cand k d (r :: todo) syms soft)) }
    else l.observe? c i y.rx
  | _, _ => l.observe? c i y.rx

/-- The stream of a header codeword whose context has been freed. -/
def HeaderWord.stream (h : HeaderWord) (more : List Cx) : Stream :=
  let n := ceilDiv (352 * h.rep) 31 * 31
  { syms := (h.syms ++ more).take (receivedBy h.rateK h.lock.launch h.at_), data := n, head := n, mod := 0, gain := h.lock.gain, noise := h.lock.noise,
    bad := markedAt h.rateK h.lock.launch h.marks }

/-- A header codeword whose context has been freed ends: it counts and does nothing more (R194, Table 6.11). -/
def Line.lostHeader (h : HeaderWord) (y : HeaderObs) (l : Line) : Line :=
  if l.headerServed h then
    let t := h.stream y.rx.symbols
    match decodeFrom 0 0 (t.headerSoft (t.found h.cfg) h.rep) 12 true 1 [] y.iters with
    | some (_, st, _) => (({ l with headers := l.headers.erase h }.countDec h.chan 0 1).countDec h.chan 1 (b2n (st == 0))).assign
    | none => l
  else l

/-- HEADER_TEST of a context: of the oldest header codeword that the array holds for it. -/
def Line.headerStep (c i : Nat) (y : HeaderObs) (l : Line) : Line :=
  match l.headers.find? fun h => h.chan == c && h.ctx == i with
  | some h => (l.noteClips y.rx.clips).lostHeader h y
  | none => l.headerTest c i y

/-- HEADER_TEST (R204). -/
def execHeaderTest (dt : Nat) (channel context : Nat) (test : HeaderObs) (s : State) : Out :=
  .next ((s.advance dt).onLine fun l => l.headerStep channel context test)

/-! ## Cut-through -/

/-- Whether cut-through applies to a frame whose codeword 0 has ended (R217). While the barrier is down no segment can be placed (R218). -/
def Line.cutsThrough (l : Line) (f : RxFrame) : Bool :=
  let dest := hopDest f.string
  !l.down && nth f.cfg 4 0 == 1 && decide (hdrType f.hdr ≤ 1 ∧ f.count ≥ 2) && !f.cutOff && !f.closed
    && (match nth f.cws 0 none with | some x => x.status == 0 | none => false)
    && ((dest == l.nodeId && l.nodeId != 0) || dest == 0xFFFFFFFF)

/-- The next segment, when every codeword of it has converged and it does not hold the last codeword (R218). -/
def RxFrame.nextSeg (f : RxFrame) : Option (Nat × Nat) :=
  let n := nth f.cfg 5 8
  let a := f.segs * n
  if a + n < f.count ∧ ((f.cws.drop a).take n).all (fun x => match x with | some y => decide (y.status = 0) | none => false) = true then some (a, n) else none

/-- A segment is placed (R218, R224). -/
def Line.placeSeg (c : Nat) (f : RxFrame) (a n : Nat) (l : Line) : Line :=
  let k := infoBits (hdrRate f.hdr) (hdrLift f.hdr) / 8
  let body := ((f.string.take f.len).drop (a * k)).take (n * k)
  let r := l.stamp (0x200 + c) (f.wordEnd (a + n - 1))
  let head := recordHead 3 0 (21 + 2 * n + (body.length + 1) / 2) c 0 r.1 r.2.1 f.epoch ++ tickWords (syncInstant f.launch f.rateK)
    ++ [f.rxId, w f.segs, w a, w n] ++ wordsOf 2 (a * k) ++ [w body.length] ++ f.entries a n
  let l := (r.2.2.modFrame c f.rxId fun g => { g with segs := g.segs + 1, segBytes := a * k + body.length }).modChan c fun x => x.countRx 15 1
  l.emit (.frameUp { kind := 3, head := head, body := body, chan := c, rxId := f.rxId, sec := hdrSec f.hdr, cut := true, status := 0, ofs := a * k,
                     frameLen := f.len })

/-- Segments in index order, as long as one is complete (R218). -/
def Line.placeSegs (c : Nat) (r : W16) : Nat → Line → Line
  | 0, l => l
  | fuel + 1, l =>
    match l.frame? c r with
    | none => l
    | some f =>
      if l.cutsThrough f then
        match f.nextSeg with
        | some (a, n) => (l.placeSeg c f a n).placeSegs c r fuel
        | none => l
      else l

/-! ## The end of decoding -/

/-- The strokes of a frame's washes on its port (R212, R258). -/
def Line.washStrokes (l : Line) (f : RxFrame) : List W32 := f.spans.map fun p => (l.strokeOffset f.port (f.peak p.first)).1

/-- What a GOOD frame tells of its sender (R258). -/
def Line.heardOf (l : Line) (f : RxFrame) : Heard :=
  { snr := measureOf f.snr, evm := measureOf f.evm, iter := ((f.cws.map fun x => (x.map (·.iters)).getD 0).sum : Rat) / f.count,
    washes := l.washStrokes f, at_ := f.endAt, stroke := (l.strokeOffset f.port l.clock.tb).1 }

/-- A GOOD frame (R181, R215, R258): rejected by its hop header, or heard and passed to the relay engine. Every beacon whose check is valid counts as
received, a duplicate too (Table 2.9). -/
def Line.goodFrame (c : Nat) (f : RxFrame) (bytes : List Byte) (check : W32) (l : Line) : Line :=
  let l := l.modChan c fun x => (x.countRx 6 1).countRx 7 (b2n f.unconv)
  let l := if hdrType f.hdr = 2 then l.countTime 12 else l
  if hopReject (hdrType f.hdr) (hopK bytes) (hopFlood bytes) then
    let l := l.countDec c 8 1
    if f.segs > 0 && !f.closed then l.retractFrame c 4 f else l
  else
    let l := if hopCount bytes = 0 ∧ hopSrc bytes ≠ l.nodeId then l.hearNode c (hopSrc bytes) (l.heardOf f) else l
    l.modRelay fun r => { r with inbox := r.inbox ++ [{ chan := c, frame := f, bytes := bytes, check := check }] }

/-- A frame whose check fails (R214, R216, R219). -/
def Line.badFrame (c status : Nat) (f : RxFrame) (bytes : List Byte) (check : W32) (l : Line) : Line :=
  let l := l.modChan c fun x => x.countRx (7 + status) 1
  let l := if f.segs > 0 && !f.closed then l.retractFrame c status f else l
  if nth f.cfg 6 0 = 1 && !f.closed then (l.finalRecord c f ⟨status, false, bytes, check⟩).modChan c fun x => x.countRx 10 1 else l

/-- Every codeword of a frame has ended: the frame check decides (R213). A candidate that may meet the frame holds back its record (R203; log 73). -/
def Line.decoded (c : Nat) (f : RxFrame) (l : Line) : Line :=
  let l := l.modChan c fun x => { x.countRx 13 f.erased with
    frames := x.frames.filter fun g => g.rxId != f.rxId, lastEnd := max x.lastEnd f.endAt,
    ended := if x.mayMeet f then x.ended ++ [⟨f, none⟩] else x.ended }
  let bytes := f.string.take f.len
  let check := BitVec.ofNat 32 (beNat ((f.string.drop f.len).take 4))
  if frameCheck (hopDest bytes) (hopSeq bytes) bytes = check then l.goodFrame c f bytes check
  else l.badFrame c (if f.unconv then 2 else 1) f bytes check

/-- A codeword that has ended, with what its entry tells (R190, Table 7.7). -/
def RxFrame.cwEnd (f : RxFrame) (marks : List (Tick × Tick)) (j : Nat) (e : Bits × Nat × Nat) : CwEnd :=
  let x := f.stream marks
  let ws := x.found f.cfg
  let n := codeBits (hdrLift f.hdr)
  { bits := e.1, status := e.2.1, iters := e.2.2, erased := x.lostCopies ws f.rep f.count n j, evm := x.evm ws (x.carriers f.rep f.count n j) }

/-- A GRANT is counted for the stroke of the channel's receive port in which it falls (R196). -/
def Chan.grant (iters : Nat) (x : Chan) : Chan :=
  if x.rxPort.isNone then x
  else { x with grants := min 65535 (x.grants + 1), grantMin := if x.grants = 0 then iters else min x.grantMin iters }

/-- A codeword ends (R190, R194): it counts, its engine is given on, its frame's segments follow, and with the last one the frame. -/
def Line.wordEnded (c : Nat) (f : RxFrame) (j : Nat) (e : Bits × Nat × Nat) (l : Line) : Line :=
  let r := f.rxId
  let cw := f.cwEnd ((l.chan c).marked l.clock.tb) j e
  let l := ((l.countDec c 2 1).countDec c (3 + cw.status) 1).countDec c 7 cw.iters
  let l := if cw.status = 3 then l.modChan c (Chan.grant cw.iters) else l
  let l := { l with jobs := l.jobs.filter fun k => !(k.chan == c && k.rxId == r && k.index == j) }.assign
  let l := (l.modFrame c r fun f => { f with cws := f.cws.set j (some cw), cutOff := f.cutOff || decide (cw.status ≠ 0) }).placeSegs c r f.count
  match l.frame? c r with
  | some g => if g.cws.all Option.isSome then l.decoded c g else l
  | none => l

/-- CODEWORD_END: of a codeword that has an engine (R190, R192). -/
def Line.codewordEnd (c : Nat) (r : W16) (y : CodewordObs) (l : Line) : Line :=
  let l := l.assign
  match l.frame? c r, l.jobs.find? fun j => j.chan == c && j.rxId == r && j.index == y.index && j.engine with
  | some f, some j => match l.wordEnds f j y.iters with
    | some e => l.wordEnded c f y.index e
    | none => l
  | _, _ => l

/-- CODEWORD_END (R188, R190). A new neighbour may take the entry of the time parent (R50, R258). -/
def execCodewordEnd (dt : Nat) (channel : Nat) (frame : W16) (end_ : CodewordObs) (s : State) : Out :=
  let s := s.advance dt
  .next (State.elect { s with line := s.line.codewordEnd channel frame end_ }).flush

end Sys2Proof.Machine
end

