-- ==== Sys2Proof/Machine/Relay.lean ====
section
/-! DEFINITION. The relay engine (R274 to R296): take-up, the hop table, floods, crews and unicast legs, the check before air, the relay
commands. No host command takes part in a relay decision (R25), and only headers and the frame check are read (R24). -/

namespace Sys2Proof.Machine

/-! ## Configuration events -/

/-- DEVICE_CONFIG of device control: the device mode epoch rises (R321). -/
def State.deviceConfig (tag : W16) (opcode mask : Nat) (s : State) : State :=
  let ep := s.dev.modeEpoch + 1
  { s with dev := { s.dev with modeEpoch := ep }, host := s.host.event 0x002 0x8000 1 true ep 0 [tag, w opcode, w mask] }

/-! ## The hop table -/

/-- RELAY_ENTRY: the epoch of the index rises (R276, Table 10.7). -/
def Line.relayEntry (i : Nat) (node : W32) (old new : Nat) (static : Bool) (cause : Nat) (l : Line) : Line :=
  let l := l.modRelay fun r => { r with epochs := bumpIndex r.epochs i }
  l.event 0x183 0x20 6 true (epochOfIndex l.relay.epochs i) i (wordsOf 2 node.toNat ++ [w old, w new, w (b2n static), w cause])

/-- An entry leaves the table. -/
def Line.removeHop (e : HopEntry) (cause : Nat) (l : Line) : Line :=
  (l.modRelay fun r => { r with hops := r.hops.filter fun x => x.index != e.index }).relayEntry e.index e.node e.hops 0xFF e.static cause

/-- A new entry, after the one whose index it takes has gone. -/
def Line.addHop (node : W32) (hops : Nat) (static : Bool) (cause : Nat) (l : Line) : Option Line :=
  l.hopIndex.map fun i =>
    let l := match l.relay.hops.find? fun e => e.index == i with | some e => l.removeHop e 3 | none => l
    (l.modRelay fun r => { r with hops := r.hops ++ [{ index := i, node := node, hops := hops, static := static, updated := l.clock.tb }] }).relayEntry
      i node 0xFF hops static cause

/-- An entry is written: its update instant, and RELAY_ENTRY when HOPS or STATIC changes. -/
def Line.setHop (e : HopEntry) (hops : Nat) (static : Bool) (cause : Nat) (l : Line) : Line :=
  let l := l.modRelay fun r => { r with hops := r.hops.map fun x =>
    if x.index = e.index then { x with hops := hops, static := static, updated := l.clock.tb } else x }
  if e.hops = hops ∧ e.static = static then l else l.relayEntry e.index e.node e.hops hops static cause

/-- What a frame that is not a duplicate teaches of its SRC (R276). -/
def Line.learn (type : Nat) (src : W32) (hops : Nat) (l : Line) : Line :=
  if hops > 254 ∨ type > 2 then l
  else match l.hop? src with
    | some e => if e.static then l else l.setHop e (if type = 0 then min e.hops hops else hops) false 0
    | none => (l.addHop src hops false 0).getD (l.countRelay 12)

/-- HOP_AGE_EXPIRY: a learned entry not updated for HOP_AGE (R276). -/
def Line.hopAge (i : Nat) (l : Line) : Line :=
  match l.relay.hops.find? fun e => e.index == i with
  | some e => if !e.static && decide (l.clock.tb - e.updated ≥ (l.relay.hopAge * 1500000000 : Nat)) then l.removeHop e 2 else l
  | none => l

/-- HOP_AGE_EXPIRY (R276). -/
def execHopAgeExpiry (dt : Nat) (index : Nat) (s : State) : Out := .next ((s.advance dt).onLine (Line.hopAge index))

/-! ## Beacons as the engine reads them -/

/-- The fields of a beacon after its hop header (Table 5.7). -/
structure Beacon where
  ver : Nat
  stratum : Nat
  cox : W32
  e : Nat
  freq : Nat
  pb : Nat
  src : Nat
  count : Nat
  stroke : W32
  ofs : Int
  at_ : Tick
  segs : List Seg
  ok : Bool

/-- `n` bytes from offset `i` as a number. -/
def field (b : List Byte) (i n : Nat) : Nat := beNat ((b.drop i).take n)

/-- Segment `j` of a beacon (Table 5.8), its instant on the count that `now` stands on (log 16). -/
def beaconSeg (now : Tick) (b : List Byte) (pb j : Nat) : Seg :=
  { nEff := BitVec.ofNat 32 (field b (48 + 20 * j) 4), bEff := nearTick now (field b (52 + 20 * j) 8), pRaw := field b (60 + 20 * j) 8 % 2 ^ 40, pb := pb }

/-- Whether a stroke length keeps the bounds of R61. -/
def lengthOk (pRaw : Nat) : Bool := decide (11538462 * 65536 ≤ pRaw ∧ pRaw ≤ 16666667 * 65536)

/-- The fields of a beacon, and whether R169 lets it be used. -/
def parseBeacon (now : Tick) (len : Nat) (b : List Byte) : Beacon :=
  let pb := field b 26 2
  let segs := (List.range 5).map (beaconSeg now b pb)
  let stroke := BitVec.ofNat 32 (field b 32 4)
  let ofs := toSigned 32 (field b 36 4)
  let at_ := nearTick now (field b 40 8)
  let stratum := field b 17 1
  let first := (segs.head?.map fun g => g.ramp.boundary stroke).getD 0
  let ok := decide (len = 147 ∧ field b 16 1 = 1 ∧ field b 29 1 = 5 ∧ (pb = 64 ∨ pb = 128 ∨ pb = 256) ∧ 1 ≤ stratum ∧ stratum ≤ 14)
    && (List.range 5).all (fun j => decide (field b (60 + 20 * j) 3 = 0)) && segs.all (fun g => lengthOk g.pRaw)
    && ((segs.zip (segs.drop 1)).all fun p => later p.1.nEff.toNat p.2.nEff.toNat 32)
    && decide ((at_ - (first + ofs)).natAbs ≤ 1)
  { ver := field b 16 1, stratum := stratum, cox := BitVec.ofNat 32 (field b 18 4), e := field b 22 2, freq := field b 24 2, pb := pb,
    src := field b 28 1 % 4, count := field b 29 1, stroke := stroke, ofs := ofs, at_ := at_, segs := segs, ok := ok }



/-! ## Crew conditions -/

/-- The modes that relay floods (R279). -/
def Dev.relaysFloods (d : Dev) : Bool := d.trafficMode == .relay || d.trafficMode == .corridor

/-- The modes that relay unicast legs (R286). -/
def Dev.relaysLegs (d : Dev) : Bool := d.relaysFloods || d.mode == .island

/-- Whether a relay channel is placed with the F and RATE_K of the receiving channel and has a port set (R283, condition 3). -/
def Line.viaOk (l : Line) (via c : Nat) : Bool :=
  match (l.chan via).place, (l.chan c).place with
  | some p, some q => p.f == q.f && p.rateK == q.rateK && !p.entries.isEmpty
  | _, _ => false

/-- Whether E is less than E_crew and at most 250 ns (R72, R283, condition 2). -/
def crewError (e rateK spread : Nat) : Bool :=
  decide (e ≤ 250) && decide ((e : Rat) < ((125 : Rat) / 4 * 2 ^ rateK - (spread : Rat) * 1000 / 255) / 2)

/-- Conditions 1 and 2 of R283 as causes: UNCOVERED, HOLD, NOT_GRID, CREW_E, and MODE when no crew mode is in force (R72). `held` holds the
segments that the node holds. An unplaced relay channel has no RATE_K and no reference port to judge by. -/
def Line.crewFails (l : Line) (d : Dev) (held : List Seg) (k : Copy) : List Nat :=
  let e := l.errorBound d.mode
  let placed := (l.chan k.chan).place.isSome
  (if decide (e ≤ 250) && (!placed || crewError e (l.chan k.chan).rateK k.spread) then [] else [4])
    ++ (if covers held k.stroke then [] else [5])
    ++ (if l.time.crewHeld || (d.mode == .holdover && l.holdoverSpent) then [6] else [])
    ++ (if !placed || decide ((l.port (l.chan k.chan).refPort).srcNow = 0) then [] else [7])
    ++ (if d.relaysFloods then [] else [11])

/-- Conditions 3, 4, 5 and 7 of R283 at the decision, as causes. An unplaced relay channel has no RATE_K to judge the others by. -/
def Line.copyFails (l : Line) (k : Copy) : List Nat :=
  let p := (l.chan k.chan).refPort
  let rate := (l.chan k.chan).rateK
  let ticks := l.copyTicks k
  let judged := (l.chan k.chan).place.isSome
  (if judged && k.type != 0 && !l.inCatch p k.launch (headerEnd k.launch rate (hdrMod k.hdr)) then [2] else [])
    ++ (if judged && k.type != 0 && decide (4 * l.strokeLength p k.stroke < ticks * 65536 * 5) then [3] else [])
    ++ (if l.viaOk k.chan k.rx then [] else [8])
    ++ (if judged && meets (l.busySpans k.chan true) k.launch (k.launch + ticks) then [9] else [])

/-- The failing cause with the lowest code (R283). -/
def lowest : List Nat → Option Nat
  | [] => none
  | a :: r => some (r.foldl min a)

/-- A copy enters the relay queue, or is dropped with the lowest failing cause (R283, R284). -/
def State.queueCopy (k : Copy) (fails : List Nat) (s : State) : State :=
  let l := s.line
  let full := decide (l.relay.copies.length ≥ 1024) || !poolFits s.poolUse (poolSize (k.len + 1))
  let k := { k with id := l.relay.nextId }
  let l := l.modRelay fun r => { r with nextId := r.nextId + 1 }
  match lowest (fails ++ if full then [10] else []) with
  | some cause => { s with line := l.dropCopy k cause }
  | none =>
    { s with line := l.modRelay fun r =>
        { r with copies := r.copies ++ [k], hwm := ⟨max r.hwm.val (r.copies.length + 1), r.hwm.ovf⟩ } }

/-! ## The flood rule -/

/-- The flood group that a frame follows (R278). -/
def Line.groupOf (l : Line) (type : Nat) (id : W16) : Option FloodGroup :=
  match l.relay.groups.find? fun g => g.id == id with
  | some g => some g
  | none => if type = 2 then some { id := 0xFFFF, relay := true, deliver := false, floor := 12, spread := 20 } else none

/-- The copy that a flood or beacon would make: launched FLOOD_K strokes on, at the offset of the launch it heard (R279, R280, R282). -/
def Line.floodCopy (l : Line) (g : GoodFrame) (grp : FloodGroup) (n : W32) (bn : Tick) : Option Copy :=
  let f := g.frame
  let type := hdrType f.hdr
  let m := strokeAdd n (hopK g.bytes)
  let o : Int := if type = 2 then (parseBeacon l.clock.tb (hdrLen f.hdr) g.bytes).ofs else (f.launch - bn) / 375000 * 375000
  (l.boundary f.port m).map fun b =>
    { id := 0, type := type, chan := l.via g.chan, rx := g.chan, hdr := f.hdr, check := g.check, len := hdrLen f.hdr, dest := hopDest g.bytes,
      src := hopSrc g.bytes, seq := hopSeq g.bytes, floodId := hopFlood g.bytes, htg := hopToGo g.bytes - 1, hc := hopCount g.bytes + 1,
      launch := b + o, stroke := m, spread := grp.spread, decided := l.clock.tb, resident := none }

/-- Whether a beacon may be relayed: valid, of a cox not worse than the elected one, and in its stroke; `true` beside it counts a reject (R279). -/
def Line.beaconRelays (l : Line) (g : GoodFrame) (n : W32) : Bool × Bool :=
  let b := parseBeacon l.clock.tb (hdrLen g.frame.hdr) g.bytes
  let worse := match l.time.cox with | some (node, st) => rankWorse (b.stratum, b.cox) (st, node) | none => false
  if !b.ok || worse then (false, false)
  else if n = strokeAdd b.stroke (hopCount g.bytes) then (true, false) else (false, true)

/-- The flood rule (R279): whether it relayed or dropped a copy. A node holds the segments of the beacon that it relays (R63). -/
def State.relayFlood (g : GoodFrame) (s : State) : State :=
  let l := s.line
  let f := g.frame
  let type := hdrType f.hdr
  let b := g.bytes
  if hopToGo b = 0 ∨ hopCount b = 255 ∨ hopDest b = l.nodeId ∨ l.nodeId = 0 then s
  else match l.groupOf type (hopFlood b) with
    | none => s
    | some grp =>
      if !grp.relay || !s.dev.relaysFloods || (l.port f.port).srcNow ≠ 0 then s
      else
        let h := if hopDest b = 0xFFFFFFFF then 0 else ((l.hop? (hopDest b)).map (·.hops)).getD 0
        if h ≥ hopToGo b then s.onLine (Line.countRelay 3)
        else if toSigned 16 f.snr.toNat < grp.floor * 128 ∨ f.unconv = true then s.onLine (Line.countRelay 4)
        else match l.launchStroke f.port f.launch with
          | none => s
          | some n =>
            let ok := if type = 2 then l.beaconRelays g n else (true, false)
            if ok.2 then s.onLine (Line.countRelay 5)
            else if !ok.1 then s
            else match l.floodCopy g grp n ((l.boundary f.port n).getD 0) with
              | none => s
              | some k =>
                let held := if type = 2 then (parseBeacon l.clock.tb (hdrLen f.hdr) b).segs else l.time.held
                s.queueCopy k (l.crewFails s.dev held k ++ l.copyFails k)

/-! ## Unicast legs -/

/-- The quality step of a candidate (R287): the SNR estimate and UC_FLOOR in units of 2^-8 dB. -/
def qualityStep (snr floor : Int) : Nat :=
  if snr ≥ floor + 2304 then 0 else if snr ≥ floor + 1536 then 1 else if snr ≥ floor + 768 then 2 else 3

/-- SLOT of a leg (R287). -/
def slotTicks (hdr rateK : Nat) : Nat := headerSpan (repeats (hdrMod hdr)) * symbolTicks rateK + 1500000

/-- The leg of a candidate at distance `h` (R287, R289). -/
def Line.legCopy (l : Line) (g : GoodFrame) (h : Nat) : Copy :=
  let f := g.frame
  let q := qualityStep (toSigned 16 f.snr.toNat) (l.relay.ucFloor * 128)
  let j := 4 * (3 - min (hopToGo g.bytes - h) 3) + q
  let via := l.via g.chan
  let launch := f.endAt + 750000 + (j * slotTicks f.hdr (l.chan via).rateK : Nat)
  { id := 0, type := 0, chan := via, rx := g.chan, hdr := f.hdr, check := g.check, len := hdrLen f.hdr, dest := hopDest g.bytes, src := hopSrc g.bytes,
    seq := hopSeq g.bytes, floodId := 0, htg := h, hc := hopCount g.bytes + 1, launch := launch, stroke := 0, spread := 0, decided := l.clock.tb,
    resident := none }

/-- A frame of TYPE 0 judged as a candidate's (R286): whether it is relayed, and the state. -/
def State.relayLeg (g : GoodFrame) (s : State) : Bool × State :=
  let l := s.line
  let b := g.bytes
  if hopDest b = l.nodeId ∨ hopDest b = 0xFFFFFFFF ∨ l.nodeId = 0 ∨ l.relay.ucRelay = false ∨ s.dev.relaysLegs = false
      ∨ hopToGo b = 0 ∨ hopCount b = 255 then (false, s)
  else match l.hop? (hopDest b) with
    | none => (false, s.onLine (Line.countRelay 11))
    | some e =>
      if e.hops ≥ hopToGo b then (false, s)
      else if toSigned 16 g.frame.snr.toNat < l.relay.ucFloor * 128 ∨ g.frame.unconv = true then (false, s.onLine (Line.countRelay 4))
      else if !l.viaOk (l.via g.chan) g.chan then (false, s)
      else (true, s.queueCopy (l.legCopy g e.hops) (l.copyFails (l.legCopy g e.hops)))

/-! ## Take-up -/

/-- Whether a frame that is not a duplicate is delivered (R215, R261, R277): TYPE 3 and 4 never. With the node ID at 0 only frames whose DEST is
0xFFFF_FFFF are (R318). -/
def Line.delivers (l : Line) (g : GoodFrame) : Bool :=
  let b := g.bytes
  let ctrl := nth g.frame.cfg 7 0 == 1
  let mine := hopDest b == l.nodeId && l.nodeId != 0
  let all := hopDest b == 0xFFFFFFFF
  match hdrType g.frame.hdr with
  | 0 => if all && hopToGo b == 0 then ctrl else mine || all
  | 1 => mine || (all && ((l.groupOf 1 (hopFlood b)).map (·.deliver)).getD false)
  | 2 => ctrl && (l.nodeId != 0 || all)
  | _ => false

/-- The record of a GOOD frame: delivered, or its segments retracted with NOT_DELIVERED (R215, R219). -/
def Line.giveUp (g : GoodFrame) (deliver : Bool) (l : Line) : Line :=
  let f := g.frame
  if f.closed then l
  else if deliver then l.finalRecord g.chan f ⟨0, decide (f.segs > 0), g.bytes, g.check⟩
  else if f.segs > 0 then l.retractFrame g.chan 4 f else l

/-- A duplicate: counted, reported when RELAY_REPORT is 2 (R275, Table 10.7). -/
def Line.duplicate (g : GoodFrame) (l : Line) : Line :=
  let l := l.countRelay 1
  if l.relay.report ≠ 2 then l
  else
    let i := ((l.hop? (hopSrc g.bytes)).map (·.index))
    l.eventAt g.frame.endAt 0x182 0x20 6 false ((i.map (epochOfIndex l.relay.epochs)).getD 0) (i.getD 0xFFFF)
      ([w g.chan, w (hdrType g.frame.hdr)] ++ wordsOf 2 (hopSrc g.bytes).toNat ++ [hopSeq g.bytes, w (hopCount g.bytes)])

/-- Whether the final record of a frame that is not a duplicate is a retract: it was retracted at BARRIER_DOWN, or cut-through ran and the engine
does not deliver it (R219, R220). -/
def Line.retracts (l : Line) (g : GoodFrame) : Bool := g.frame.closed || (decide (g.frame.segs > 0) && !l.delivers g)

/-- Where a frame goes beside delivery: the time unit, the link table, or the relay decision (R261, R274, R279, R286). A frame whose final record is a
retract is not relayed (R291). -/
def State.passOn (g : GoodFrame) (s : State) : State :=
  let b := g.bytes
  let relays := !s.line.retracts g
  match hdrType g.frame.hdr with
  | 0 =>
    let report := hopDest b = 0xFFFFFFFF ∧ hopToGo b = 0
    let s := if report then { s with line := { s.line with links := { s.line.links with inbox := s.line.links.inbox ++ [g] } } } else s
    let r := if relays then s.relayLeg g else (false, s)
    if r.1 || s.line.delivers g then r.2 else r.2.onLine (Line.countRelay 10)
  | 1 => if relays then s.relayFlood g else s
  | 2 =>
    let s := if relays then s.relayFlood g else s
    { s with line := { s.line with beacons := s.line.beacons ++ [g] } }
  | _ => { s with line := { s.line with ttIn := s.line.ttIn ++ [g] } }

/-- RELAY_ENGINE_TAKE_UP: the oldest GOOD frame is taken up (R274 to R277, R288); none while the barrier is down (R453). A beacon that R169 discards
teaches its distance too (R276; log 75). A duplicate of TYPE 0 counts as overheard (R286). -/
def State.takeUp (s : State) : State :=
  match s.line.relay.inbox with
  | [] => s
  | g :: rest =>
    if s.line.down then s
    else
      let src := hopSrc g.bytes
      let seq := hopSeq g.bytes
      let type := hdrType g.frame.hdr
      let l := ((s.line.modRelay fun r => { r with inbox := rest }).countRelay 0).withdraw fun k => k.src == src && k.seq == seq
      if src = l.nodeId ∨ l.isDup src seq = true then
        let l := if type = 0 then l.countRelay 10 else l
        { s with line := (l.duplicate g).giveUp g false }
      else
        let l := if type ≤ 2 then l.insertDup src seq else l
        let l := l.learn type src (hopCount g.bytes + 1)
        let s := { s with line := l }.passOn g
        { s with line := s.line.giveUp g (s.line.delivers g) }

/-- RELAY_ENGINE_TAKE_UP (R274). -/
def execRelayEngineTakeUp (dt : Nat) (s : State) : Out := .next (s.advance dt).takeUp.flush

/-! ## The checks before air -/

/-- A pending copy. -/
def Line.copy? (l : Line) (id : Nat) : Option Copy := l.relay.copies.find? fun k => k.id == id

/-- The staged copy judged against the received check with the kept DEST and SEQ; when it agrees, the hop header is written, the new check
computed and the copy resident (R290). -/
def Line.stageCheck (id : Nat) (staged : List Byte) (l : Line) : Line :=
  match l.copy? id with
  | none => l
  | some k =>
    if k.resident.isSome then l
    else if staged.length ≠ k.len + 1 ∨ frameCheck k.dest k.seq staged ≠ k.check then l.dropCopy k 0x0C
    else
      let bytes := (staged.set 10 (BitVec.ofNat 8 k.htg)).set 11 (BitVec.ofNat 8 k.hc)
      l.modRelay fun r => { r with copies := r.copies.map fun x => if x.id = id then { x with resident := some (withCheck k.dest k.seq bytes) } else x }

/-- RELAY_STAGE_CHECK (R290). -/
def execRelayStageCheck (dt : Nat) (copy : Nat) (staged : List Byte) (s : State) : Out := .next ((s.advance dt).onLine (Line.stageCheck copy staged))

/-- The check of a crew copy at L - 1 ms (R283). -/
def Line.fixCopy (d : Dev) (id : Nat) (l : Line) : Line :=
  match l.copy? id with
  | none => l
  | some k =>
    if k.type = 0 ∨ l.clock.tb < k.launch - 1500000 then l
    else match lowest (l.crewFails d l.time.held k) with | some cause => l.dropCopy k cause | none => l

/-- RELAY_FIX_CHECK (R283). -/
def execRelayFixCheck (dt : Nat) (copy : Nat) (s : State) : Out := .next ((s.advance dt).onLine fun l => l.fixCopy s.dev copy)

/-- The residency check of a copy at L - 40 µs (R283). -/
def Line.copyResidency (id : Nat) (l : Line) : Line :=
  match l.copy? id with
  | none => l
  | some k => if k.resident.isSome || decide (l.clock.tb < k.launch - 60000) then l else l.dropCopy k 1

/-- RELAY_RESIDENCY_CHECK (R283). -/
def execRelayResidencyCheck (dt : Nat) (copy : Nat) (s : State) : Out := .next ((s.advance dt).onLine (Line.copyResidency copy))

/-- A host frame of the same instant and channel that was fixed no later than a copy (R284). -/
def Line.hostRival (l : Line) (k : Copy) : Bool :=
  l.sched.actions.any fun a => decide (a.fixedAt ≤ k.decided) &&
    a.frames.any fun f => f.desc.chan == k.chan && !f.launched && !f.ended && f.payload.isSome && a.frameLaunch f == k.launch

/-- A copy at its launch instant, once the actions of a class before its own have acted: conditions 3 and 7 again, then on air on every port that
transmits (R88, R283, R284, R289, R291). One that the rate now in force makes longer than 10 s is not sent (R187; log 105). -/
def State.launchCopy (leg : Bool) (id : Nat) (s : State) : State :=
  match s.line.copy? id with
  | none => s
  | some k =>
    if (k.type == 0) != leg || k.launch != s.line.clock.tb || !s.line.ready || s.line.classWaits k.chan then s
    else match k.resident with
      | none => { s with line := s.line.dropCopy k 1 }
      | some bytes =>
        let s := s.onLine (Line.transmitEnd k.chan)
        let l := s.line
        let h := k.hdr
        let level := (l.chan k.chan).row 20
        if tooLong (l.chan k.chan).rateK (hdrMod h) (hdrRate h) (hdrLift h) k.len then { s with line := l.dropCopy k 3 }
        else if !l.viaOk k.chan k.rx then { s with line := l.dropCopy k 8 }
        else if (l.chan k.chan).onAir.isSome || l.hostRival k || (l.reportOver k.chan k.launch (k.launch + l.copyTicks k)).isSome then
          { s with line := l.dropCopy k 9 }
        else
          let hdr := if leg then makeHeader l.netId 0 (hdrMod h) (hdrRate h) (hdrLift h) (hdrLen h) (hdrSeed h) (l.unicastTxb k.chan level) (hdrSec h)
            else relayHeader l.netId h
          let o := l.airOf s.dev.mode k.chan (.relay k) none hdr (poolSize (k.len + 1)) level bytes
          if !o.starts then { s with line := l.dropCopy k 0x0D }
          else { s with line := ((l.removeCopy k).countRelay (if leg then 8 else if k.type = 1 then 6 else 7)).goOnAir s.dev.mode k.chan o }

/-- RELAY_LAUNCH: a crew copy (R283). -/
def execRelayLaunch (dt : Nat) (copy : Nat) (s : State) : Out := .next (((s.advance dt).launchCopy false copy).flush)

/-- UNICAST_LEG_LAUNCH (R289). -/
def execUnicastLegLaunch (dt : Nat) (copy : Nat) (s : State) : Out := .next (((s.advance dt).launchCopy true copy).flush)

/-! ## Commands -/

/-- A signed word. -/
def signedWord (v : Nat) : Int := toSigned 16 v

/-- Whether a word is a floor of −10.0 to 40.0 dB in steps of 0.5 dB (Tables 10.1, 10.2). -/
def floorOk (v : Nat) : Bool := decide (-20 ≤ signedWord v ∧ signedWord v ≤ 80)

/-- Opcode 0x180 (Table 11.10). -/
def infoRelayConfigure : CmdInfo := ⟨0x180, false, true, setRun⟩

/-- Whether the settings that a RELAY_CONFIGURE names lie in their ranges (Table 10.1). -/
def relayRanges (c : Cmd) : Bool :=
  let m := c.word 3
  (!bitOf m 0 || decide (c.word 4 ≤ 1)) && (!bitOf m 1 || floorOk (c.word 5)) && (!bitOf m 2 || decide (10 ≤ c.value 6 2 ∧ c.value 6 2 ≤ 86400))
    && (!bitOf m 3 || decide (c.word 8 ≤ 2)) && (!bitOf m 4 || decide (c.word 9 ≤ 255 ∧ c.word 10 ≤ 255))

/-- The relay engine with the settings that a command writes. -/
def Relay.configure (c : Cmd) (r : Relay) : Relay :=
  let m := c.word 3
  { r with ucRelay := if bitOf m 0 then decide (c.word 4 = 1) else r.ucRelay, ucFloor := if bitOf m 1 then signedWord (c.word 5) else r.ucFloor,
           hopAge := if bitOf m 2 then c.value 6 2 else r.hopAge, report := if bitOf m 3 then c.word 8 else r.report }

/-- Whether a command changes RELAY_VIA of its channel (Table 11.10). -/
def Line.viaChanges (l : Line) (c : Cmd) : Bool := bitOf (c.word 3) 4 && decide (c.word 10 ≠ l.via (c.word 9))

/-- RELAY_CONFIGURE: device-wide settings give DEVICE_CONFIG, RELAY_VIA gives CHANNEL_MODE (R278, R321). -/
def State.relayConfigure (acc : Accepted) (s : State) : Answer :=
  let c := acc.cmd
  if !relayRanges c then s.hostError 0
  else
    let r := s.line.relay.configure c
    let wide := decide (r.ucRelay ≠ s.line.relay.ucRelay ∨ r.ucFloor ≠ s.line.relay.ucFloor ∨ r.hopAge ≠ s.line.relay.hopAge ∨ r.report ≠ s.line.relay.report)
    let t := { s with line := { s.line with relay := r } }
    let t := if wide then t.deviceConfig acc.cmd.tag 0x180 (c.word 3) else t
    let via := c.word 9
    if s.line.viaChanges c then
      let l := (t.line.modChan via fun x => { x with via := c.word 10 }).chanEvent t.line.clock.tb via 0x046 [w via, c.tag, 0x180, 0, 0, 0]
      ⟨.ok, [], { t with line := l }⟩
    else ⟨.ok, [], t⟩

/-- The unit that a RELAY_CONFIGURE reply carries: the device, or the channel whose RELAY_VIA the command has changed (R314, Table 11.10). -/
def State.viaRef (cmd : Cmd) (before after : State) : EpochRef :=
  let c := cmd.word 9
  if bitOf (cmd.word 3) 4 && decide (after.line.via c ≠ before.line.via c) then State.chanRefL c after else State.modeRefL cmd after

/-- RELAY_CONFIGURE (R278): the expected epoch is the device mode's (R299). -/
def execRelayConfigure (dt : Nat) (cmd : Cmd) (s : State) : Out :=
  .next ((s.advance dt).runWith infoRelayConfigure cmd false (State.modeRefL cmd) (State.viaRef cmd) State.relayConfigure)

/-- Opcode 0x182. -/
def infoFloodGroupSet : CmdInfo := ⟨0x182, false, true, setRun⟩

/-- FLOOD_GROUP_SET: an entry created, changed or removed (R278); a 65th is refused. -/
def State.floodGroupSet (acc : Accepted) (s : State) : Answer :=
  let c := acc.cmd
  let id := w (c.word 3)
  let gs := s.line.relay.groups
  let g : FloodGroup := { id := id, relay := bitOf (c.word 4) 0, deliver := bitOf (c.word 4) 1, floor := signedWord (c.word 5), spread := c.word 6 }
  let known := gs.any fun x => x.id == id
  let remove := bitOf (c.word 4) 15
  if id = 0 ∨ (remove = false ∧ (floorOk (c.word 5) = false ∨ c.word 6 > 40000)) then s.hostError 1
  else if !remove && !known && decide (gs.length ≥ 64) then ⟨.noResource, [], s⟩
  else
    let new := if remove then gs.filter fun x => x.id != id else if known then gs.map fun x => if x.id = id then g else x else gs ++ [g]
    let t := { s with line := s.line.modRelay fun r => { r with groups := new } }
    ⟨.ok, [w new.length], if new = gs then t else t.deviceConfig c.tag 0x182 0⟩

/-- FLOOD_GROUP_SET (R278). -/
def execFloodGroupSet (dt : Nat) (cmd : Cmd) (s : State) : Out :=
  .next ((s.advance dt).runL infoFloodGroupSet cmd false (State.modeRefL cmd) State.floodGroupSet)

/-- Opcode 0x183. -/
def infoFloodGroupRead : CmdInfo := ⟨0x183, true, true, setRun⟩

/-- The words of a flood-group entry (Table 11.10). -/
def FloodGroup.words (g : FloodGroup) : List W16 := [g.id, w (b2n g.deliver * 2 + b2n g.relay), w (ofSigned 16 g.floor), w g.spread]

/-- FLOOD_GROUP_READ (R317). -/
def State.floodGroupRead (_ : Accepted) (s : State) : Answer :=
  let gs := s.line.relay.groups
  ⟨.ok, w gs.length :: gs.flatMap FloodGroup.words, s⟩

/-- FLOOD_GROUP_READ (R317). -/
def execFloodGroupRead (dt : Nat) (cmd : Cmd) (s : State) : Out :=
  .next ((s.advance dt).runL infoFloodGroupRead cmd false (State.modeRefL cmd) State.floodGroupRead)

/-- Opcode 0x184. -/
def infoRelayTableWrite : CmdInfo := ⟨0x184, false, true, setRun⟩

/-- RELAY_TABLE_WRITE: a static entry written, STATIC cleared, or an entry removed (R276, Table 11.10). -/
def State.relayTableWrite (acc : Accepted) (s : State) : Answer :=
  let c := acc.cmd
  let node := BitVec.ofNat 32 (c.value 3 2)
  let l := s.line
  if c.word 6 > 2 ∨ (c.word 6 = 0 ∧ c.word 5 > 254) then s.hostError 1
  else match c.word 6, l.hop? node with
    | 0, some e => ⟨.ok, [w e.index], { s with line := l.setHop e (c.word 5) true 1 }⟩
    | 0, none =>
      match l.addHop node (c.word 5) true 1 with
      | some l' => ⟨.ok, [w (l.hopIndex.getD 0)], { s with line := l' }⟩
      | none => ⟨.noResource, [], s⟩
    | 1, some e => ⟨.ok, [w e.index], if e.static then { s with line := l.setHop e e.hops false 1 } else s⟩
    | _, some e => ⟨.ok, [0xFFFF], { s with line := l.removeHop e 1 }⟩
    | _, none => ⟨.ok, [0xFFFF], s⟩

/-- RELAY_TABLE_WRITE (R276). -/
def execRelayTableWrite (dt : Nat) (cmd : Cmd) (s : State) : Out :=
  let s := s.advance dt
  .next (s.runL infoRelayTableWrite cmd false (State.relayRef cmd (s.line.writeIndex cmd)) State.relayTableWrite)

/-- Opcode 0x185. -/
def infoRelayTableRead : CmdInfo := ⟨0x185, true, true, setRun⟩

/-- The words of a relay entry (Table 10.9). -/
def HopEntry.words (epochs : List (Nat × W16)) (e : HopEntry) : List W16 :=
  wordsOf 2 e.node.toNat ++ [w (e.hops * 256 + b2n e.static * 128), epochOfIndex epochs e.index] ++ tickWords e.updated

/-- RELAY_TABLE_READ (R295). -/
def State.relayTableRead (acc : Accepted) (s : State) : Answer :=
  let c := acc.cmd
  if c.word 4 = 0 ∨ c.word 4 > 118 then s.hostError 1
  else
    let es := s.line.hopSlice c
    ⟨.ok, w es.length :: es.flatMap fun e => w e.index :: e.words s.line.relay.epochs, s⟩

/-- RELAY_TABLE_READ (R295). -/
def execRelayTableRead (dt : Nat) (cmd : Cmd) (s : State) : Out :=
  .next ((s.advance dt).runL infoRelayTableRead cmd false (State.relayReadRef cmd) State.relayTableRead)

/-- Opcode 0x186. -/
def infoRelayStatus : CmdInfo := ⟨0x186, true, true, setRun⟩

/-- The counters of Table 10.10, the epochs per index left out. -/
def Relay.counters (r : Relay) : List Ctr := r.ctrs ++ r.drops ++ [r.hwm]

/-- RELAY_STATUS (R296). -/
def State.relayStatus (acc : Accepted) (s : State) : Answer :=
  let clr := acc.cmd.clr
  ⟨.ok, counterWords s.line.relay.counters,
   { s with line := s.line.modRelay fun r =>
      { r with ctrs := clearAll clr r.ctrs, drops := clearAll clr r.drops, hwm := if clr then Ctr.zero else r.hwm } }⟩

/-- RELAY_STATUS (R296). -/
def execRelayStatus (dt : Nat) (cmd : Cmd) (s : State) : Out :=
  .next ((s.advance dt).runL infoRelayStatus cmd false (State.modeRefL cmd) State.relayStatus)

end Sys2Proof.Machine
end

