-- ==== Sys2Proof/Machine/Grid.lean ====
section
/-! DEFINITION. Stroke sources (R59, R68), per-stroke events (R110, R111, R196), the ranks heard (R64), the change to an adopted schedule
(R63, R66, R521), and the sense inputs (R53 to R58). -/

namespace Sys2Proof.Machine

/-- The source that a port runs on: in ISLAND a GRID port runs on LOCAL (R71). -/
def Port.wantSrc (mode : Mode) (q : Port) : Nat := if mode = .island ∧ q.src = 0 then 1 else q.src

/-- The configured source of a port, or the mode, has changed: the new source waits for its first boundary (R68). -/
def Port.retarget (mode : Mode) (now : Tick) (q : Port) : Port :=
  if q.wantSrc mode = q.srcNow then { q with srcNext := none }
  else if q.srcNext.map (·.1) = some (q.wantSrc mode) then q
  else { q with srcNext := some (q.wantSrc mode, now) }

/-- The first boundary of a waiting source at or after its change (R68). -/
def Line.firstBoundary (l : Line) (p src : Nat) (t : Tick) : Option Tick :=
  match src with
  | 0 => (segNow l.time.segs t).map fun g => g.ramp.firstFrom t
  | 1 => some (min (l.phaseInstant p t 0) (l.phaseInstant p t 32768))
  | _ => some ((l.time.synthRamp t).firstFrom t)

/-- The stroke count that a port has at a boundary of its new source (R68). -/
def Line.countAtSwitch (l : Line) (p src : Nat) (b : Tick) : W32 :=
  match src with
  | 0 => (l.time.gridStroke b).getD 0
  | 1 => ((l.strokeAt p (b - 1)).getD 0) + 1
  | _ => (l.time.synthRamp b).stroke b

/-! ## Ages in strokes

What is counted in strokes counts those that occur: a count that jumps takes the references along (log 74). -/

/-- The cache entries after the strokes by which they age are renumbered (R275). -/
def Line.renumberDups (d : Int) (l : Line) : Line :=
  l.modRelay fun r => { r with dups := r.dups.map fun e => { e with stroke := e.stroke.map (strokeAdd · d) }, earlyIn := r.earlyIn.map (strokeAdd · d) }

/-- The strokes of the ports that satisfy a test are renumbered by `d`. -/
def Line.renumber (which : Nat → Bool) (d : Int) (l : Line) : Line :=
  let on (c : Nat) : Bool := match (l.chan c).rxPort with | some p => which p | none => false
  { l with chans := l.chans.map fun (x : Chan) => (if (match x.rxPort with | some p => which p | none => false) then x.renumber d else x),
           links := { l.links with entries := l.links.entries.map fun e => if on e.chan then e.renumber d else e } }

/-- The grid strokes are renumbered by `d` (R66). -/
def Line.renumberGrid (d : Int) (l : Line) : Line :=
  let l := l.modTime fun x => { x with ranks := x.ranks.map fun (r : Rank) => { r with heard := strokeAdd r.heard d }, bcnStrokes := x.bcnStrokes.map (strokeAdd · d) }
  let l := if (l.port 0).srcNow = 0 then l.renumberDups d else l
  l.renumber (fun p => decide ((l.port p).srcNow = 0)) d

/-- RX_CLIP and TX_CLIP of a port at the end of its stroke `n` at instant `b`, where samples before `b` clipped (R110, R111). -/
def Line.clipEvents (p : Nat) (n : W32) (b : Tick) (l : Line) : Line :=
  let past := (l.port p).clips.filter fun x => decide (x.at_ < b)
  let rx := (past.filter fun x => !x.tx).length
  let tx := (past.filter fun x => x.tx).length
  let now := l.clock.tb
  let l := l.modPort p fun q => { q with clips := q.clips.filter fun x => decide (b ≤ x.at_) }
  let l := if rx = 0 then l else l.portNote now p 0x043 ([w p] ++ wordsOf 2 n.toNat ++ wordsOf 2 rx)
  if tx = 0 then l else l.portNote now p 0x044 ([w p] ++ wordsOf 2 n.toNat ++ wordsOf 2 tx)

/-- What the end of stroke `n` at instant `b` gives on port `p`: clip events, DECODER_LOAD, and the evaluation of the link entries whose wash_drop
the stroke that leaves the last 64 changes (R110, R111, R196, R268, R269). -/
def Line.strokeEnd (n : W32) (b : Tick) (l : Line) (p : Nat) : Line :=
  let l := l.clipEvents p n b
  let chans := (l.chans.zipIdx.filter fun x => x.1.rxPort == some p).map (·.2)
  (chans.foldl (fun l c => l.decoderLoad c n) l).washDrops fun e => (l.chan e.chan).rxPort == some p

/-- What the end of stroke `n` gives on the ports that satisfy a test. -/
def Line.strokeEnds (which : Port → Bool) (n : W32) (b : Tick) (l : Line) : Line :=
  ((l.ports.zipIdx.filter fun p => which p.1).map (·.2)).foldl (Line.strokeEnd n b) l

/-- A port takes up its new source, once its first boundary has come (R68, R75). -/
def State.takeSource (p : Nat) (s : State) : State :=
  let l := s.line
  match (l.port p).srcNext with
  | none => s
  | some (src, t) =>
    match l.firstBoundary p src t with
    | none => s
    | some b =>
      if b > l.clock.tb then s
      else
        let n := l.countAtSwitch p src b
        let l := (l.strokeAt p (b - 1)).elim l fun m => l.strokeEnd m b p
        let half := decide (src = 1) && decide (l.phaseInstant p b 0 ≠ b)
        let old := (l.port p).srcNow
        let l := l.renumber (· == p) (strokeDist (((l.strokeAt p (b - 1)).getD 0) + 1) n)
        let was := l.dupStroke.getD 0
        let l := l.modPort p fun q => { q with srcNow := src, srcNext := none, locCount := n, locB := b, locHalf := half }
        let l := l.renumberDups (strokeDist was (l.dupStroke.getD was))
        let l := l.portEvent b p 0x017 ([w p, w old, w src] ++ tickWords b ++ wordsOf 2 n.toNat)
        { s with line := l }.rejudge false (· == p)

/-- STROKE_SOURCE (R68). -/
def execStrokeSource (dt : Nat) (port : Nat) (s : State) : Out := .next ((s.advance dt).takeSource port).flush

/-- PORT_TIMING's range: STROKE_SRC, SENSE_INPUT (Table 2.2). -/
def timingOk (c : Cmd) : Bool :=
  (!bitOf (c.word 4) 0 || decide (c.word 5 ≤ 2)) && (!bitOf (c.word 4) 1 || decide (c.word 6 ≤ 5))

/-- Opcode 0x103. -/
def infoPortTiming : CmdInfo := ⟨0x103, false, true, setRun⟩

/-- PORT_TIMING (R68, R321, Table 11.7). -/
def State.portTiming (acc : Accepted) (s : State) : Answer :=
  let c := acc.cmd
  let p := c.word 3
  let m := c.word 4
  let q := s.line.port p
  if p ≥ 96 ∨ timingOk c = false then s.hostError 0
  else
    let input := if bitOf m 1 then c.word 6 else q.input
    let sofs := if bitOf m 2 then c.word 7 else q.sofs
    let bits := b2n (decide (input ≠ q.input)) * 2 ^ 16 + b2n (decide (sofs ≠ q.sofs)) * 2 ^ 17
    let l := s.line.modPort p fun q =>
      ({ q with input := input, sofs := sofs, src := if bitOf m 0 then c.word 5 else q.src } : Port).retarget s.dev.mode s.line.clock.tb
    let l := if bits = 0 then l else l.portConfigEvent p c.tag bits
    ⟨.ok, [], { s with line := l }.recompute⟩

/-- PORT_TIMING (R68). -/
def execPortTiming (dt : Nat) (cmd : Cmd) (s : State) : Out :=
  .next ((s.advance dt).runL infoPortTiming cmd false (State.portRefL (cmd.word 3)) State.portTiming)

/-! ## Stroke boundaries -/

/-- The cache's early evictions, when LP00 ends a stroke by which it ages (R275). -/
def State.dupStrokeEnds (srcs : List Nat) (s : State) : State :=
  if srcs.contains (s.line.port 0).srcNow then { s with line := s.line.dupEarly } else s

/-- The provisional schedule starts with its first boundary at `b` (R521). -/
def Time.startGrid (b : Tick) (x : Time) : Time :=
  { x with segs := [{ nEff := BitVec.ofInt 32 (b % 2 ^ 64 / x.nominalStroke), bEff := b, pRaw := x.nominalStroke * 65536, pb := 0 }] }

/-- While no sense input is VALID the provisional schedule starts at a multiple of the nominal stroke length (R521): every such start gives the same
boundaries and counts. -/
def Line.startAtMultiple (l : Line) : Line :=
  if l.time.segs.isEmpty && l.time.mainsLost then
    l.modTime fun x => x.startGrid (countZero l.clock.tb + l.clock.tb % 2 ^ 64 / x.nominalStroke * x.nominalStroke)
  else l

/-- A grid boundary (R59, R63): an uncovered stroke is counted. -/
def State.gridBoundary (s : State) : State :=
  let l := s.line.startAtMultiple
  match l.time.gridStroke l.clock.tb with
  | none => { s with line := l }
  | some n =>
    if l.time.gridLast = some n then s
    else
      let l := l.strokeEnds (fun q => q.srcNow == 0) (n - 1) ((l.time.gridBoundary n).getD l.clock.tb)
      let l := if l.time.covered n then l else l.countTime 13
      { s with line := l.modTime fun x => { x with gridLast := some n, segs := pruneSegs l.clock.tb x.segs } }.dupStrokeEnds [0]

/-- A synthetic boundary (Table 2.6). -/
def State.synthBoundary (s : State) : State :=
  let now := s.line.clock.tb
  let n := (s.line.time.synthRamp now).stroke now
  if s.line.time.synthLast = some n then s
  else
    let l := s.line.strokeEnds (fun q => q.srcNow == 2) (n - 1) ((s.line.time.synthRamp now).boundary n)
    { s with line := l.modTime fun x => { x with synthLast := some n } }.dupStrokeEnds [1, 2]

/-- A local boundary of a port (Table 2.6): the launches that count on local strokes follow it (R79). -/
def State.localBoundary (p : Nat) (s : State) : State :=
  let l := s.line
  let q := l.port p
  if q.srcNow ≠ 1 ∨ l.nextLocal p > l.clock.tb then s
  else
    let b := l.nextLocal p
    State.recompute
      { s with line := (l.modPort p fun q => { q with locB := b, locCount := q.locCount + 1, locHalf := !q.locHalf }).strokeEnd q.locCount b p }

/-- STROKE_BOUNDARY (R59), with the samples that have clipped (R110, R111). -/
def execStrokeBoundary (dt : Nat) (boundary : Boundary) (s : State) : Out :=
  let s := (s.advance dt).onLine (Line.noteClips boundary.clips)
  .next (match boundary.source with
    | .grid => s.gridBoundary
    | .localOf p => s.localBoundary p
    | .synthetic => s.synthBoundary).flush

/-! ## The grid schedule -/

/-- The stroke that runs when the grid count changes at `b` ends there, unless its own boundary has just ended it (R110, R111, R196). -/
def State.endBeforeStep (b : Tick) (s : State) : State :=
  let at_ := s.line.time.gridStroke b
  if s.line.time.gridLast = at_ ∧ at_.bind s.line.time.gridBoundary = some b then s
  else match s.line.time.gridStroke (b - 1) with
    | none => s
    | some m => State.dupStrokeEnds [0] { s with line := s.line.strokeEnds (fun q => q.srcNow == 0) m b }

/-- The grid count changes at the first boundary of an adopted schedule, which begins a stroke like any other (R63); actions are judged again (R66, R86).
What is aged in strokes takes the new stroke for the one after the last. -/
def State.gridStep (s : State) : State :=
  match s.line.time.adopting with
  | none => s
  | some (b, segs) =>
    if b > s.line.clock.tb then s
    else
      let old := (s.line.time.gridStroke b).getD 0
      let new := ((segNow segs b).map fun g => g.ramp.stroke b).getD 0
      let next := ((s.line.time.gridStroke (b - 1)).map (· + 1)).getD old
      let s := s.endBeforeStep b
      let l := ((s.line.renumberGrid (strokeDist next new)).modTime fun x => { x with segs := segs, adopting := none, gridLast := some new }).countTime 15
      let l := if l.time.covered new then l else l.countTime 13
      { s with line := l.timeEventAt b 0x015 (wordsOf 2 old.toNat ++ wordsOf 2 new.toNat ++ tickWords b) }.rejudge false
        fun p => decide ((s.line.port p).srcNow = 0)

/-- GRID_STEP (R66). -/
def execGridStep (dt : Nat) (s : State) : Out := .next (s.advance dt).gridStep.flush

/-! ## Election -/

/-- A beacon whose turn has come: discarded as a reject, or its segments and rank taken (R64, R169). -/
def Line.beacon (mode : Mode) (g : GoodFrame) (l : Line) : Line :=
  let b := parseBeacon l.clock.tb (hdrLen g.frame.hdr) g.bytes
  if !b.ok then l.countRelay 5
  else if mode = .island then l
  else
    let heard := (l.time.gridStroke l.clock.tb).getD 0
    let r : Rank := { node := b.cox, stratum := b.stratum, heard := heard, pb := b.pb, segs := b.segs }
    let l := l.modTime fun x => { x with ranks := r :: x.ranks.filter fun y => y.node != b.cox }
    let before := l.time.cox.map (·.1)
    let l := l.elect mode
    if before = some b.cox ∧ l.time.cox.map (·.1) = some b.cox then l.follow false b.segs else l

/-- BEACON_RECEIVED (R169): launches that count on grid strokes follow a schedule that it changes (R79). -/
def execBeaconReceived (dt : Nat) (s : State) : Out :=
  let s := s.advance dt
  .next (match s.line.beacons with
    | [] => s
    | g :: rest => { s with line := { s.line with beacons := rest }.beacon s.dev.mode g }.recompute.flush)

/-- COX_RANK_EXPIRY: a rank not heard within 8 × P_b strokes (R64). -/
def Line.rankExpiry (mode : Mode) (node : W32) (l : Line) : Line :=
  match l.time.ranks.find? fun r => r.node == node, l.time.gridStroke l.clock.tb with
  | some r, some n =>
    if strokeDist r.heard n > 8 * r.pb then (l.modTime fun x => { x with ranks := x.ranks.filter fun y => y.node != node }).elect mode else l
  | _, _ => l

/-- COX_RANK_EXPIRY (R64). -/
def execCoxRankExpiry (dt : Nat) (node : W32) (s : State) : Out :=
  let s := s.advance dt
  .next { s with line := s.line.rankExpiry s.dev.mode node }.recompute.flush

/-! ## Sense inputs -/

/-- The code of a sense state (Table 11.7). -/
def senseCode : SenseState → Nat
  | .valid => 0 | .lost => 1 | .noisy => 2 | .off => 3

/-- An input changed. -/
def Line.modSense (i : Nat) (f : Sense → Sense) (l : Line) : Line := l.modTime fun x => { x with sense := x.sense.modify i f }

/-- The reference after a change of state (R52, R56): ZXA1 stays, or stays replaced until it reverts; else the first VALID input. -/
def Time.newRef (x : Time) : Nat := if x.valid 0 then x.ref else ([3, 1, 2, 4, 5].find? x.valid).getD x.ref

/-- A frequency in mHz in one word: the end of the range where it lies outside (R519). -/
def freqWord (freq : Nat) : W16 := w (min 65535 freq)

/-- A change of state of an input (R54 to R58): SENSE_STATE, and MAINS_LOST with the last frequency `freq` in mHz when none is VALID any more. -/
def Line.senseState (t : Tick) (i : Nat) (new : SenseState) (freq : Nat) (l : Line) : Line :=
  let x := l.time.input i
  if x.state = new then l
  else
    let lostAll := l.time.mainsLost
    let lastRef := l.time.ref
    let stop (y : Sense) : Sense := if new = .off then { y with anchor := some (t, y.angle t) } else y
    let l := l.modSense i fun y => { stop y with state := new, accepted := if new = .valid then y.accepted else 0 }
    let l := if new = .lost ∨ new = .noisy then l.countTime (6 + i) else l
    let l := l.modTime fun y => { y with ref := y.newRef, blindEnd := if lostAll then t else y.blindEnd }
    let l := l.timeEventAt t 0x012 [w i, w (senseCode x.state), w (senseCode new), w l.time.ref]
    if !lostAll && l.time.mainsLost then l.timeEventAt t 0x013 [freqWord freq, w lastRef] else l

/-- A rejected crossing (R53, Table 2.3): the eighth of the fourth consecutive noisy cycle makes the input NOISY. -/
def Line.rejectCrossing (t : Tick) (i : Nat) (l : Line) : Line :=
  let l := l.countTime i
  let x := l.time.input i
  let cycle : Tick := (cycleTicks / x.freq : Nat)
  let fresh := decide (t - x.cycleFrom ≥ cycle)
  let noisy := if !fresh then x.noisy else if decide (x.rejected ≥ 8) && decide (t - x.cycleFrom < 2 * cycle) then x.noisy + 1 else 0
  let from_ := if !fresh then x.cycleFrom else if t - x.cycleFrom < 2 * cycle then x.cycleFrom + cycle else t
  let n := if fresh then 1 else x.rejected + 1
  let l := l.modSense i fun y => { y with accepted := 0, rejected := n, cycleFrom := from_, noisy := noisy }
  let alive := match x.anchor with | some a => decide (t - a.1 < 67500000) | none => false
  if n ≥ 8 ∧ noisy ≥ 3 ∧ alive = true then l.senseState t i .noisy l.time.mainsFreq else l

/-- The mean of angles as a signed mean about the first. -/
def meanAngle : List W16 → W16
  | [] => 0
  | a :: r => a + BitVec.ofInt 16 (roundDiv ((r.map fun b => (b - a).toInt).sum) (r.length + 1))

/-- The learning of an offset at a positive-going crossing (R55). -/
def Line.learnOffset (t : Tick) (i : Nat) (l : Line) : Line :=
  if i = 0 || !l.time.valid 0 || !l.time.valid i then l
  else
    let a := (l.time.input 0).angle t
    l.modSense i fun y =>
      let samples := (a :: y.samples).take 64
      { y with samples := samples, offset := if samples.length = 64 then some (meanAngle samples) else y.offset }

/-- An accepted crossing (R53 to R56). In LOST and NOISY too its instant and frequency are the tracker's from now on (log 118). The first positive-going one of the
reference, which a stand-in gives at its own angle 0, starts the provisional schedule (R521; log 119). MAINS_LOST tells the frequency of the reference's
tracker as the crossing leaves it. -/
def Line.acceptCrossing (t : Tick) (i : Nat) (positive : Bool) (freq : Nat) (l : Line) : Line :=
  let revert := decide (i = 0) && positive && l.time.valid 0
  let l := l.modSense i fun y =>
    { y with anchor := some (t, if positive then 0 else 32768), freq := freq, accepted := y.accepted + 1 }
  let l := if revert then l.modTime fun x => { x with ref := 0 } else l
  let l := if freq < 45000 ∨ 65000 < freq then l.senseState t i .lost l.time.mainsFreq
    else if (l.time.input i).accepted ≥ 16 then l.senseState t i .valid l.time.mainsFreq else l
  let l := if l.time.segs.isEmpty && positive && l.time.ref == i && l.time.valid i then l.modTime (Time.startGrid t) else l
  if positive then l.learnOffset t i else l

/-- Whether a transition is accepted (R53): the level held, within ±1,024 steps of the prediction. -/
def Sense.accepts (x : Sense) (t : Tick) (e : Crossing) : Bool :=
  e.held && (x.anchor.isNone || decide ((x.angle t - (if e.positive then 0 else 32768)).toInt.natAbs ≤ 1024))

/-- A comparator transition (R53). -/
def Line.crossing (i : Nat) (e : Crossing) (l : Line) : Line :=
  let t := l.clock.tb - e.late
  let x := l.time.input i
  if i ≥ 6 ∨ x.state = .off then l
  else if x.accepts t e then l.acceptCrossing t i e.positive (max 1 e.freqMhz) else l.rejectCrossing t i

/-- ZERO_CROSSING (R53): the launches that count on angles or local strokes follow the tracker (R79). -/
def execZeroCrossing (dt : Nat) (input : Nat) (edge : Crossing) (s : State) : Out :=
  let s := s.advance dt
  .next ({ s with line := s.line.crossing input edge }.recompute.flush)

/-- SENSE_LOSS_TIMEOUT: 45 ms without an accepted crossing (R54). -/
def Line.senseLoss (i : Nat) (l : Line) : Line :=
  let x := l.time.input i
  match x.state, x.anchor with
  | .valid, some a => if l.clock.tb - a.1 ≥ 67500000 then l.senseState l.clock.tb i .lost l.time.mainsFreq else l
  | .noisy, some a => if l.clock.tb - a.1 ≥ 67500000 then l.senseState l.clock.tb i .lost l.time.mainsFreq else l
  | _, _ => l

/-- SENSE_LOSS_TIMEOUT (R54). -/
def execSenseLossTimeout (dt : Nat) (input : Nat) (s : State) : Out :=
  let s := s.advance dt
  .next ({ s with line := s.line.senseLoss input }.recompute.flush)

/-- Opcode 0x104. -/
def infoSenseControl : CmdInfo := ⟨0x104, false, true, setRun⟩

/-- SENSE_CONTROL: the named inputs go to OFF, or from OFF to LOST, from where their crossings lead (R54, Table 11.7). -/
def State.senseControl (acc : Accepted) (s : State) : Answer :=
  let m := acc.cmd.word 3
  let on := bitOf (acc.cmd.word 4) 0
  let now := s.line.clock.tb
  let one (l : Line) (i : Nat) : Line :=
    if on then
      if (l.time.input i).state = .off then (l.modSense i fun y => { y with anchor := none, accepted := 0, rejected := 0, noisy := 0 }).senseState now i .lost l.time.mainsFreq else l
    else l.senseState now i .off l.time.mainsFreq
  let l := ((List.range 6).filter (bitOf m)).foldl one s.line
  ⟨.ok, [w l.time.senseBits], { s with line := l }.recompute⟩

/-- SENSE_CONTROL (R54). -/
def execSenseControl (dt : Nat) (cmd : Cmd) (s : State) : Out :=
  .next ((s.advance dt).runL infoSenseControl cmd false State.timeRefL State.senseControl)

end Sys2Proof.Machine
end

