-- ==== Sys2Proof/Machine/Modes.lean ====
section
/-! DEFINITION. Device modes (R26 to R36): the transitions of Table 1.7, what a change does to pending work, MODE_SET, LINE_FIRMWARE_UPDATE with
MAINTAIN, and DEVICE_CONFIGURE. -/

namespace Sys2Proof.Machine

/-! ## Transitions -/

/-- The transitions by command of Table 1.7. -/
def listed (old new : Mode) : Bool :=
  match old with
  | .config => isTraffic new || new == .survey || new == .island || new == .test
  | .survey => isTraffic new || new == .config
  | .headend => (isTraffic new && new != .headend) || new == .config || new == .survey
  | .relay => (isTraffic new && new != .relay) || new == .config || new == .survey
  | .corridor => (isTraffic new && new != .corridor) || new == .config || new == .survey
  | .holdover => new == .config || new == .island
  | .island => new == .config
  | .test => new == .config
  | .boot => false | .maintain => false | .quarantine => false | .safe => false

/-- The rungs that a mode permits (Table 19.8). -/
def permits (m : Mode) (r : Rung) : Bool := r == .row || m == .config || m == .quarantine || m == .safe

/-- Whether the device may enter a mode by MODE_SET now (R29, R484). -/
def State.mayEnter (target : Mode) (s : State) : Bool := listed s.dev.mode target && permits target s.dev.rung

/-- Whether a mode needs a node ID (R318). -/
def needsNode (m : Mode) : Bool := isTraffic m || m == .island

/-! ## What a change of mode does -/

/-- Whether the mode of a device carries host frames (R31, R230). -/
def Dev.carriesFrames (d : Dev) : Bool := d.inSet setTx

/-- The frames of an action whose launch falls at or after an instant end with cause MODE. -/
def Line.dropFrom (t : Tick) (l : Line) (a : Action) : Line :=
  ((List.range a.frames.length).filter fun i => ((a.frames[i]?).map fun f => decide (t ≤ a.frameLaunch f)).getD false).foldl
    (fun l i => l.dropFrame a i .aborted 6 t) l

/-- Pending host frames that the new mode does not carry, and whose launch falls at or after the instant, end with cause MODE (R31). -/
def State.dropForMode (t : Tick) (s : State) : State :=
  if s.dev.carriesFrames then s
  else
    let l := s.line.sched.actions.foldl (Line.dropFrom t) s.line
    { s with line := { l with sched := l.sched.sweep } }

/-- Relayed copies that the new mode does not relay are dropped with cause MODE (R284); entry into MAINTAIN keeps them (R31). -/
def State.dropCopiesForMode (s : State) : State :=
  if s.dev.mode = .maintain then s
  else
    let gone (k : Copy) : Bool := if k.type = 0 then !s.dev.relaysLegs else !s.dev.relaysFloods
    { s with line := s.line.dropCopies gone 0x0B }

/-- The planned own frames but those that are kept are dropped; driver enables risen for them fall (R123). -/
def Line.dropPlanned (keeps : OwnFrame → Bool) (l : Line) : Line :=
  (l.time.planned.filter fun o => !keeps o).foldl (fun l o => l.settleSet o.chan l.clock.tb)
    (l.modTime fun x => { x with planned := x.planned.filter keeps })

/-- The device's own frames that the new mode does not send are dropped (R27, R62, R71, R262). -/
def Line.dropOwn (mode : Mode) (l : Line) : Line := l.dropPlanned fun o => outputsActive mode && !(mode == .island && o.type == 2)

/-- A receive lock whose header is not committed is abandoned without a record and counted (R31, R207). -/
def Chan.abandon (t : Tick) (x : Chan) : Chan :=
  let n := x.uncommitted.length
  { x.countRx 5 n with
      ctx := x.ctx.map fun c => match c with | some (.cand ..) => none | k => k
      ctxEnd := if n = 0 then x.ctxEnd else max x.ctxEnd t }

/-- Every such lock, at every change of mode (R207); the header codewords in the array are finished (R194). -/
def Line.abandonLocks (l : Line) : Line := { l.keepAllHeaders with chans := l.chans.map (Chan.abandon l.clock.tb) }.settleAllEnded

/-- GRID ports move to LOCAL in ISLAND, and back (R68, R71). -/
def Line.retargetPorts (mode : Mode) (l : Line) : Line := { l with ports := l.ports.map (Port.retarget mode l.clock.tb) }

/-- A cox outside HEADEND, RELAY and CORRIDOR issues no segments: its next beacon is a first one again (R62, R65). -/
def Line.pauseCox (d : Dev) (l : Line) : Line := if isTraffic d.trafficMode then l else l.modTime fun x => { x with isCox := false }

/-- In a mode whose line outputs are not active no port transmits: what has risen for launches to come falls (R117). -/
def Line.quietPorts (mode : Mode) (l : Line) : Line :=
  if outputsActive mode then l else (List.range l.ports.length).foldl (fun l p => l.dropRise p) l

/-- A change of mode with everything that it does on the line side (R28, R31, R71, R207). `stamp` is the follower's value at the instant `t`. -/
def State.changeMode (new : Mode) (cause : Nat) (stamp t : Tick) (s : State) : State :=
  let s := s.modeChange new cause stamp t
  let l := (((s.line.abandonLocks.dropOwn new).retargetPorts new).pauseCox s.dev).quietPorts new
  ({ s with line := l }.dropForMode t).dropCopiesForMode

/-- HOLDOVER from a traffic mode (R33, R69): the mode held before is kept. -/
def State.enterHoldover (t : Tick) (s : State) : State :=
  let l := if s.line.time.lostAt.isSome then s.line
    else s.line.modTime fun x => { x with entryAt := some t, crewHeld := false }
  { s with line := l, dev := { s.dev with held := s.dev.mode, islandAuto := false } }.changeMode .holdover 0x14 (s.hostTime t) t

/-- Entry into a mode; into a traffic mode without a source HOLDOVER follows at once (R33). -/
def State.enterMode (new : Mode) (cause : Nat) (t : Tick) (s : State) : State :=
  let s := s.changeMode new cause (s.hostTime t) t
  let s := if isTraffic new && decide (s.line.time.source = 3) then s.enterHoldover t else s
  s.elect

/-- The return to the mode held before HOLDOVER or MAINTAIN. -/
def State.resumeMode (cause : Nat) (t : Tick) (s : State) : State := s.enterMode s.dev.held cause t

/-! ## MODE_SET -/

/-- Opcode 0x004 (Table 11.6). -/
def infoModeSet : CmdInfo := ⟨0x004, false, true, setRun⟩

/-- MODE_SET: a class 1 action (R29, R31, R318). -/
def State.modeSet (acc : Accepted) (s : State) : Answer :=
  match parseSpec acc.cmd, modeOf (acc.cmd.word 8 % 16) with
  | none, _ => s.hostError 5
  | some _, none => ⟨.mode, [], s⟩
  | some spec, some target =>
    if !s.mayEnter target then ⟨.mode, [], s⟩
    else if needsNode target && s.line.nodeId == 0 then ⟨.noResource, [], s⟩
    else s.schedule acc spec (.modeSet target) 0

/-- MODE_SET (R31). -/
def execModeSet (dt : Nat) (cmd : Cmd) (s : State) : Out :=
  .next ((s.advance dt).runL infoModeSet cmd true (State.modeRefL cmd) State.modeSet)

/-- A commanded mode change at its instant: dropped when its epoch is stale, the transition is listed no more, or no node ID is set (R31, R92,
R318, Table 11.6). -/
def State.modeEffect (id : Nat) (s : State) : State :=
  match s.line.dueAction id with
  | none => s
  | some a =>
    match a.kind with
    | .modeSet target =>
      let now := s.line.clock.tb
      if !s.stale a && (!s.mayEnter target || (needsNode target && s.line.nodeId == 0)) then s.actionDone a .aborted now
      else s.takeEffect a fun s => { s with dev := { s.dev with islandAuto := false } }.enterMode target 0x10 now
    | .lineFirmware _ _ => s | .mute _ _ => s | .unmute _ => s | .place _ _ => s | .chanMode _ _ _ => s | .frames _ => s

/-- MODE_CHANGE_AT_LAUNCH (R31). -/
def execModeChangeAtLaunch (dt : Nat) (action : Nat) (s : State) : Out := .next ((s.advance dt).modeEffect action).flush

/-! ## LINE_FIRMWARE_UPDATE -/

/-- Opcode 0x007 (Table 11.6). -/
def infoLineFirmwareUpdate : CmdInfo := ⟨0x007, false, true, setUpdate⟩

/-- LINE_FIRMWARE_UPDATE: a class 1 action (R29, R94). -/
def State.lineFirmwareUpdate (acc : Accepted) (s : State) : Answer :=
  match parseSpec acc.cmd with
  | none => s.hostError 5
  | some spec => s.schedule acc spec (.lineFirmware (acc.cmd.value 8 2) (acc.cmd.value 10 2)) 0

/-- LINE_FIRMWARE_UPDATE (R479). -/
def execLineFirmwareUpdate (dt : Nat) (cmd : Cmd) (s : State) : Out :=
  .next ((s.advance dt).runL infoLineFirmwareUpdate cmd true (State.modeRefL cmd) State.lineFirmwareUpdate)

/-- The entry into MAINTAIN at the command's instant: pending frames are kept, its ACTION_DONE follows at the end of the update (R31, R34). -/
def State.maintainEntry (id : Nat) (s : State) : State :=
  match s.line.dueAction id with
  | none => s
  | some a =>
    match a.kind with
    | .lineFirmware offset len =>
      let now := s.line.clock.tb
      if s.stale a then s.actionDone a .epochStale now
      else if !setUpdate s.dev.mode then s.actionDone a .aborted now
      else
        let fw : FwUpdate := { action := a, offset := offset, len := len }
        { s with line := { s.line.removeAction a.id with fw := some fw }, dev := { s.dev with held := s.dev.mode } }.changeMode .maintain 0x11
          (s.hostTime now) now
    | .modeSet _ => s | .mute _ _ => s | .unmute _ => s | .place _ _ => s | .chanMode _ _ _ => s | .frames _ => s

/-- ENTER_MAINTAIN (R34). -/
def execEnterMaintain (dt : Nat) (action : Nat) (s : State) : Out := .next ((s.advance dt).maintainEntry action).flush

/-- Whether the image of an update waits for a handover of a bank that it lies in (R394). -/
def State.imageWaits (u : FwUpdate) (s : State) : Bool := s.blocked (cpMaster u.action.via) u.offset u.len false

/-- The image of an update, as the command processor reads it from BAR2. -/
def State.updateImage (u : FwUpdate) (s : State) : FlashSlot × State :=
  let r := s.readHb (cpMaster u.action.via) u.offset u.len
  (imageOf 1 r.1, r.2.2)

/-- The end of an update: the mode held before resumes. Frames still to launch that it does not carry end (R31); those whose L has passed are late or
slip (R34, Table 3.2), and one that has slipped into a mode that does not carry it ends likewise. ACTION_DONE follows (R29). -/
def State.leaveMaintain (u : FwUpdate) (cause : Nat) (st : Status) (s : State) : State :=
  let now := s.line.clock.tb
  let s := { s with line := { s.line with fw := none } }.resumeMode cause now
  ((s.rejudge true fun _ => false).dropForMode now).actionDone u.action st now

/-- The new firmware starts when its image passes the check; the line side then runs its release (R479). -/
def State.firmwareStarted (s : State) : State :=
  match s.dev.mode, s.line.fw with
  | .maintain, some u =>
    let r := s.updateImage u
    if s.imageWaits u then s else if r.1.passes 1 then { r.2 with line := { r.2.line with release := r.1.release } }.leaveMaintain u 0x12 .ok else s
  | _, _ => s

/-- LINE_FIRMWARE_STARTED (R29). -/
def execLineFirmwareStarted (dt : Nat) (s : State) : Out := .next (s.advance dt).firmwareStarted.flush

/-- An image that fails its check: the previous one still runs (Table 1.7). -/
def State.imageFailed (s : State) : State :=
  match s.dev.mode, s.line.fw with
  | .maintain, some u =>
    let r := s.updateImage u
    if s.imageWaits u || r.1.passes 1 then s else r.2.leaveMaintain u 0x13 .aborted
  | _, _ => s

/-- FIRMWARE_IMAGE_FAILED (R29). -/
def execFirmwareImageFailed (dt : Nat) (s : State) : Out := .next (s.advance dt).imageFailed.flush

/-! ## DEVICE_CONFIGURE -/

/-- Opcode 0x003 (Table 11.6). -/
def infoDeviceConfigure : CmdInfo := ⟨0x003, false, true, setCfg⟩

/-- The ranges of DEVICE_CONFIGURE's settings (Table 11.6, R232, R257, R262). -/
def deviceRanges (c : Cmd) : Bool :=
  let m := c.word 3
  (!bitOf m 0 || decide (1 ≤ c.value 4 2 ∧ c.value 4 2 ≤ 0xFFFFFFFE)) && (!bitOf m 2 || decide (5 ≤ c.word 7 ∧ c.word 7 ≤ 500))
    && (!bitOf m 3 || decide (64 ≤ c.word 8)) && (!bitOf m 4 || decide (6 ≤ c.word 9 ∧ c.word 9 ≤ 12))

/-- The line side with the settings that a command writes. -/
def Line.configure (c : Cmd) (l : Line) : Line :=
  let m := c.word 3
  { l with nodeId := if bitOf m 0 then BitVec.ofNat 32 (c.value 4 2) else l.nodeId, netId := if bitOf m 1 then w (c.word 6) else l.netId,
           stageAhead := if bitOf m 2 then c.word 7 else l.stageAhead, linkAge := if bitOf m 3 then c.word 8 else l.linkAge,
           reportLog := if bitOf m 4 then c.word 9 else l.reportLog }

/-- DEVICE_CONFIGURE (R318, R321). -/
def State.deviceConfigure (acc : Accepted) (s : State) : Answer :=
  let c := acc.cmd
  if !deviceRanges c then s.hostError 0
  else
    let l := s.line.configure c
    if l = s.line then ⟨.ok, [], s⟩
    else
      let t := { s with line := l, host := { s.host with nodeIdSeen := l.nodeId } }.elect
      ⟨.ok, [], t.deviceConfig c.tag 0x003 (c.word 3)⟩

/-- DEVICE_CONFIGURE (R318). -/
def execDeviceConfigure (dt : Nat) (cmd : Cmd) (s : State) : Out :=
  .next ((s.advance dt).runL infoDeviceConfigure cmd false (State.modeRefL cmd) State.deviceConfigure)

/-! ## Line memory -/

/-- Opcode 0x1C0 (Table 11.11). -/
def infoLineMemoryStatus : CmdInfo := ⟨0x1C0, true, true, setRun⟩

/-- The word of a line bank (R390). -/
def LineMem.bankWord (x : LineMem) (bank : Nat) : W16 :=
  w (lineOwner bank * 256 + b2n (nth x.vital bank false) * 2 + b2n (nth x.marked bank false))

/-- The line counters in the order of R409. -/
def LineMem.counters (x : LineMem) : List Ctr := x.conflicts ++ x.writeLost ++ x.faults ++ [x.marchFails]

/-- LINE_MEMORY_STATUS (R409). -/
def State.lineMemoryStatus (acc : Accepted) (s : State) : Answer :=
  let x := s.line.mem
  let clr := acc.cmd.clr
  ⟨.ok, (List.range 68).map x.bankWord ++ counterWords x.counters,
   { s with line := s.line.modMem fun x =>
      { x with conflicts := clearAll clr x.conflicts, writeLost := clearAll clr x.writeLost, faults := clearAll clr x.faults,
               marchFails := if clr then Ctr.zero else x.marchFails } }⟩

/-- LINE_MEMORY_STATUS (R409). -/
def execLineMemoryStatus (dt : Nat) (cmd : Cmd) (s : State) : Out :=
  .next ((s.advance dt).runL infoLineMemoryStatus cmd false (State.modeRefL cmd) State.lineMemoryStatus)

/-- Opcode 0x1C1 (Table 11.11). -/
def infoMarchControl : CmdInfo := ⟨0x1C1, false, true, setRun⟩

/-- The banks that a MARCH_CONTROL names: LB00 to LB63, then DS0 to DS3. -/
def marchBanks (c : Cmd) : List Nat :=
  let m := c.value 3 4 + c.word 7 % 16 * 2 ^ 64
  (List.range 68).filter (bitOf m)

/-- The flags of the named banks set to a value. -/
def setFlags (banks : List Nat) (v : Bool) (xs : List Bool) : List Bool := banks.foldl (fun xs b => xs.set b v) xs

/-- MARCH_CONTROL (R403): LB62 and LB63 keep VITAL and take no mark. -/
def State.marchControl (acc : Accepted) (s : State) : Answer :=
  let op := acc.cmd.word 8
  let banks := marchBanks acc.cmd
  if op > 3 then s.hostError 0
  else if (op = 1 ∨ op = 3) ∧ (banks.contains 62 || banks.contains 63) = true then ⟨.noResource, [], s⟩
  else
    ⟨.ok, [], { s with line := s.line.modMem fun x =>
      if op < 2 then { x with marked := setFlags banks (op == 1) x.marked } else { x with vital := setFlags banks (op == 2) x.vital } }⟩

/-- MARCH_CONTROL (R403). -/
def execMarchControl (dt : Nat) (cmd : Cmd) (s : State) : Out :=
  .next ((s.advance dt).runL infoMarchControl cmd false (State.modeRefL cmd) State.marchControl)

/-- Opcode 0x1C3 (Table 11.11). -/
def infoLineMemoryRead : CmdInfo := ⟨0x1C3, false, true, setTest⟩

/-- LINE_MEMORY_READ: words of a line bank, served to the line sequencer (R392). -/
def State.lineMemoryRead (acc : Accepted) (s : State) : Answer :=
  let c := acc.cmd
  let bank := c.word 3
  let ofs := c.value 4 2
  let n := c.word 6
  if bank > 67 ∨ ofs % 2 = 1 ∨ n = 0 ∨ n > 1024 ∨ ofs + 2 * n > lineBankSize bank then s.hostError (min n 1024)
  else ⟨.ok, byteWords (s.lbRead (lineBankAt bank + ofs) (2 * n)), s⟩

/-- LINE_MEMORY_READ (R392). -/
def execLineMemoryRead (dt : Nat) (cmd : Cmd) (s : State) : Out :=
  .next ((s.advance dt).runL infoLineMemoryRead cmd false (State.modeRefL cmd) State.lineMemoryRead)

/-! ## Fabric margin -/

/-- The measurements of the last 10 ms, the newest first (R95). -/
def noteMargin (t : Tick) (m : W16) (xs : List (Tick × W16)) : List (Tick × W16) :=
  (t, m) :: (xs.takeWhile fun x => decide (t - x.1 < 15000000))

/-- Since when a margin has stood at or above 1.20. -/
def marginSince (t : Tick) (m : W16) (since : Option Tick) : Option Tick := if m.toNat ≥ 308 then some (since.getD t) else none

/-- Whether a die has stood at or above 1.20 for 10 ms. -/
def stoodOk (now : Tick) (since : Option Tick) : Bool := match since with | some t => decide (now - t ≥ 15000000) | none => false

/-- MARGIN_LOW or MARGIN_OK of a die (R95, Table 3.9). -/
def State.marginEvent (die : Die) (code : Nat) (m : W16) (s : State) : State :=
  let s := if code = 0x021 then { s with line := s.line.countSched 4 1 } else s
  match die with
  | .line => { s with line := s.line.event code 0x0010 1 false s.dev.modeEpoch 0 [0, m] }
  | .host => { s with host := s.host.event code 0x8000 1 false s.dev.modeEpoch 0 [1, m] }

/-- A measurement of the fabric margin of a die: MARGIN_LOW at each fall below 1.15, MARGIN_OK once both dies have recovered since (R95).
MARGIN_OK comes only where a MARGIN_LOW went before it, and names the die measured last (DESIGN CHOICE, log 122). -/
def State.measure (die : Die) (m : W16) (s : State) : State :=
  let low := decide (m.toNat < 295)
  let was := match die with | .line => s.line.marginLow | .host => s.host.marginLow
  let s := match die with
    | .line =>
      let l := s.line
      let now := l.clock.tb
      { s with line := { l with margins := noteMargin now m l.margins, marginLow := low, marginOwed := l.marginOwed || low,
                                 marginOkFrom := marginSince now m l.marginOkFrom } }
    | .host =>
      let h := s.host
      { s with host := { h with margins := noteMargin h.follower m h.margins, marginLow := low, marginOwed := h.marginOwed || low,
                                marginOkFrom := marginSince h.follower m h.marginOkFrom } }
  let s := if low && !was then s.marginEvent die 0x021 m else s
  if (s.line.marginOwed || s.host.marginOwed) && stoodOk s.line.clock.tb s.line.marginOkFrom && stoodOk s.host.follower s.host.marginOkFrom then
    { s with line := { s.line with marginOwed := false }, host := { s.host with marginOwed := false } }.marginEvent die 0x022 m
  else s

/-- MARGIN_MEASURE (R95): a die that runs. -/
def execMarginMeasure (dt : Nat) (die : Die) (margin : W16) (s : State) : Out :=
  let s := s.advance dt
  let runs := match die with | .line => s.line.running | .host => s.host.running
  .next (if runs then (s.measure die margin).flush else s)

end Sys2Proof.Machine
end

