-- ==== Sys2Proof/Machine/TimeUnit.lean ====
section
/-! DEFINITION. Discipline (R37 to R50): the sources and their selection, the step and the slew, TIME_SYNC and the follower, the 1PPS output, the
time commands, and the limits that count from the loss of the last source (R70, R71). -/

namespace Sys2Proof.Machine

/-! ## Steps and slews -/

/-- Ticks of one second. -/
def secondTicks : Nat := 1500000000

/-- The modes in which a timebase that is behind by more than 1 ms steps (R40). -/
def stepMode (m : Mode) : Bool := m == .boot || m == .config || m == .survey || m == .test

/-- A port over a forward step: its local strokes and its waits keep their distance to the present (R42; log 60). -/
def Port.stepBy (n : Nat) (q : Port) : Port :=
  { q with locB := q.locB + n, lateEnds := q.lateEnds.map fun (x : LateEnd) => { x with at_ := x.at_ + n },
           tails := q.tails.map fun (x : Tick × Int × Int) => (x.1 + n, x.2), fallAt := q.fallAt.map (· + (n : Int)), fltSince := q.fltSince.map (· + n), settle := q.settle.map (· + n), windowAt := q.windowAt + n,
           airEnd := q.airEnd + n, markEnd := q.markEnd + n,
           faultDue := q.faultDue.map fun d => (d.1 + n, d.2) }

/-- A conflict report whose follower has jumped. -/
def Report.shift (d : Tick) (r : Report) : Report := { r with last := r.last + d }

/-- A march tester whose die's time jumps: its last borrow keeps its distance to the present (log 60). -/
def March.shift (d : Tick) (m : March) : March := { m with last := m.last.map (· + d) }

/-- An end of the barrier whose die's time jumps: its waits keep their distance to the present (log 60). -/
def BarrierEnd.shift (d : Tick) (e : BarrierEnd) : BarrierEnd :=
  { e with lastValid := e.lastValid + d, flight := e.flight.map fun (m : InFlight) => { m with sent := m.sent + d } }

/-- A channel over a forward step: its hold keeps its distance to the present. -/
def Chan.stepBy (n : Nat) (x : Chan) : Chan := { x with holdUntil := x.holdUntil.map (· + n) }

/-- A tracker over a forward step. -/
def Sense.stepBy (n : Nat) (y : Sense) : Sense := { y with anchor := y.anchor.map fun a => (a.1 + n, a.2), cycleFrom := y.cycleFrom + n }

/-- A waiting TIME_SET over a forward step. -/
def TimeSet.stepBy (n : Nat) (y : TimeSet) : TimeSet := { y with reached := y.reached + n }

/-- The time unit over a forward step of `n` ticks, which leaves no offset (R41). An offset still to be taken up is that much smaller (R46). -/
def Time.stepBy (n : Nat) (x : Time) : Time :=
  { x with stepDue := none, firstStep := false, stepAt := none, ptpOffset := x.ptpOffset - n, bcnOffset := x.bcnOffset - n,
           blindEnd := x.blindEnd + n, ppsLast := x.ppsLast.map (· + n), ptpLast := x.ptpLast.map (· + n), lostAt := x.lostAt.map (· + n),
           entryAt := x.entryAt.map (· + n), timeSet := x.timeSet.map (TimeSet.stepBy n), sense := x.sense.map (Sense.stepBy n), faulted := false }

/-- A planned own frame that launches now leaves the plan without going on air. -/
def Line.unplan (o : OwnFrame) (l : Line) : Line := l.modTime fun x => { x with planned := x.planned.erase o }

/-- A planned own frame that is not sent: what has risen for it falls (R123), and it is counted (R170, R262). -/
def Line.skipOwn (o : OwnFrame) (l : Line) : Line := ((l.unplan o).settleSet o.chan l.clock.tb).ownUnsent o

/-- The line side over a forward step of `n` ticks (R42). What is counted from the mains or in elapsed time keeps its distance to the present;
copies and own frames whose instant it skips are not sent. -/
def Line.stepBy (n : Nat) (l : Line) : Line :=
  let l := { l with clock := { l.clock with tb := l.clock.tb + n, slew := 0, slewAcc := 0 }, ports := l.ports.map (Port.stepBy n), chans := l.chans.map (Chan.stepBy n),
                    marginOkFrom := l.marginOkFrom.map (· + n), margins := l.margins.map fun (m : Tick × W16) => (m.1 + n, m.2),
                    mem := { l.mem with reports := l.mem.reports.map (Report.shift n), march := l.mem.march.shift n } }
  let l := (l.modTime (Time.stepBy n)).dropCopies (fun k => decide (k.launch < l.clock.tb)) 1
  let l := (l.time.planned.filter fun o => decide (o.launch < l.clock.tb)).foldl (fun l o => l.skipOwn o) l
  { l with sched := { l.sched with actions := l.sched.actions.map fun a => { a with deferred := a.deferred.map (max l.clock.tb) } } }

/-- The timebase steps forward by `n` ticks at once: what it skipped is late, a fixed L stays as a tick value, and what waits for a frame whose end it
skipped acts now (R42, R87, R89). -/
def State.stepNow (n : Nat) (s : State) : State :=
  { s with line := s.line.stepBy n, link := { s.link with line := s.link.line.shift n } }.rejudge true fun _ => false

/-- A rate correction within 200 × 10^-6, which the discipline gives (R39): free. -/
def State.freeRate (s : State) : Int := (((Config.freeLong s.host.freeCtr).toNat % 1717987 : Nat) : Int) - 858993

/-- A phase offset of the source in force: it is stepped or slewed away (R40, R41, R43). Until the step of the first source is made, a further
measurement is one of the first source too. -/
def State.correct (off : Int) (s : State) : State :=
  let first := !s.line.clock.disciplined || s.line.time.firstStep
  let stepOk := (first && decide (0 < off)) || (decide (1500000 < off) && stepMode s.dev.mode)
  let l := { s.line with clock := { s.line.clock with c := s.freeRate, disciplined := true, slew := if stepOk then 0 else off, slewAcc := 0 } }
  let l := l.modTime fun x => { x with offset := off, firstStep := first && decide (0 < off), faulted := s.line.faultStands && decide (1500 ≤ off.natAbs) }
  let s := { s.spend 1 with line := l }
  if l.time.stepAt.isSome then s
  else if stepOk then
    if s.link.line.up then { s with line := l.modTime fun x => { x with stepDue := some off.toNat } } else s.stepNow off.toNat
  else
    let l := l.modTime fun x => { x with stepDue := none }
    if 1500000000 < off.natAbs ∧ l.time.faulted = false then
      { s with line := (l.modTime fun x => { x with faulted := true }).timeEvent 0x011 (wordsOf 4 (ofSigned 64 off) ++ [w (modeCode s.dev.mode)]) }
    else { s with line := l }

/-! ## Selection -/

/-- The offset that a source last measured. -/
def Time.sourceOffset (x : Time) (source : Nat) : Int :=
  match source with
  | 0 => nearTick (x.ppsLast.getD 0) (x.second.getD 0 * secondTicks) - x.ppsLast.getD 0
  | 1 => x.ptpOffset
  | 2 => x.bcnOffset
  | _ => x.offset

/-- E of a source as Table 2.1 gives it. -/
def Time.sourceE (x : Time) (source : Nat) : Nat := if source = 2 then x.parentE else 20

/-- The change of source with its event (R45, R69, R75). A step that the host side has been told of is still made (R43). -/
def Line.changeSource (mode : Mode) (new : Nat) (l : Line) : Line :=
  let now := l.clock.tb
  let e := l.errorBound mode
  let off := l.time.sourceOffset new
  let old := l.time.source
  let stands := l.faultStands
  let l := l.modTime fun x =>
    if new = 3 then { x with source := 3, lostAt := some now, entryAt := none, crewHeld := false, eBase := e, faulted := stands,
                             stepDue := if x.stepAt.isSome then x.stepDue else none }
    else { x with source := new, lostAt := none, entryAt := none, crewHeld := false, eBase := x.sourceE new }
  let l := if new = 3 then { l with clock := { l.clock with slew := 0, slewAcc := 0 } } else l
  let shown := { l with clock := { l.clock with disciplined := true } }.errorBound mode
  l.timeEvent 0x010 ([w old, w new, w l.time.stratumNow, w shown] ++ wordsOf 4 (ofSigned 64 off))

/-- The source of highest priority is taken up; its loss enters HOLDOVER, its return ends HOLDOVER or an ISLAND entered by delay
(R33, R45, R69, Table 1.7). -/
def State.reselect (s : State) : State :=
  let best := s.line.time.bestSource
  if best = s.line.time.source then s
  else
    let now := s.line.clock.tb
    let off := s.line.time.sourceOffset best
    let s := { s with line := s.line.changeSource s.dev.mode best }
    let s :=
      if best = 3 then (if isTraffic s.dev.mode then s.enterHoldover now else s)
      else
        let s := s.correct off
        if s.dev.mode = .holdover ∨ (s.dev.mode = .island ∧ s.dev.islandAuto = true) then s.resumeMode 0x15 s.line.clock.tb else s
    s.elect

/-- A measurement of a source: the selection, then the offset when the source was in force already. -/
def State.measured (source : Nat) (off : Int) (s : State) : State :=
  let was := s.line.time.source
  let s := s.reselect
  if was = source ∧ s.line.time.source = source then s.correct off else s

/-! ## PPS_REF -/

/-- The second of a pulse at `t` (R46): from PTP or BEACON, from a TIME_SET that has waited 1 ms, or counted on. -/
def Time.pulseSecond (x : Time) (now t : Tick) : Option Nat :=
  let near (off : Int) : Nat := (roundDiv (t + off) secondTicks).toNat
  if x.ptpQual then some (near x.ptpOffset)
  else if x.bcnQual then some (near x.bcnOffset)
  else match x.timeSet with
    | some y => if now ≥ y.reached + 1500000 then some y.second else x.second.map fun n => n + (roundDiv (t - x.ppsLast.getD t) secondTicks).toNat
    | none => x.second.map fun n => n + (roundDiv (t - x.ppsLast.getD t) secondTicks).toNat

/-- The time unit after a pulse at `t` (R45, Table 2.1). -/
def Time.pulse (now t : Tick) (x : Time) : Time :=
  let ok := match x.ppsLast with | some a => decide ((t - a - secondTicks).natAbs ≤ 1500) | none => false
  let sec := x.pulseSecond now t
  let good := if ok then min 4 (x.ppsGood + 1) else 1
  let bad := if x.ppsQual && !ok then x.ppsBad + 1 else 0
  let qual := if x.ppsQual then decide (bad < 3) else decide (4 ≤ good) && sec.isSome
  { x with ppsGood := good, ppsBad := if qual then bad else 0, ppsQual := qual, ppsLast := some t, second := sec }

/-- Opcode 0x102 (Table 11.7). -/
def infoTimeSet : CmdInfo := ⟨0x102, false, true, setRun⟩

/-- A waiting TIME_SET is answered, its reply stamped at `t` (R46, R310). -/
def State.answerTimeSet (st : Status) (words : List W16) (t : Tick) (s : State) : State :=
  match s.line.time.timeSet with
  | none => s
  | some y =>
    let s := { s with line := s.line.modTime fun x => { x with timeSet := none } }
    s.answerWith infoTimeSet y.cmd s.timeRefL st words t none

/-- A pulse that reaches the time unit (R45 to R47, R359, R360). -/
def State.ppsEdge (highNs : Nat) (s : State) : State :=
  let l := s.line
  if !(s.link.host.up && s.link.line.up && s.link.timingUp && decide (100 ≤ highNs ∧ highNs ≤ 900000000)) then s
  else
    let now := l.clock.tb
    let t := now - l.time.ppsDelay - l.time.laneDelay
    let due := match l.time.timeSet with | some y => decide (now ≥ y.reached + 1500000) | none => false
    let s := { s with line := l.modTime (Time.pulse now t) }
    let at_ : Tick := nearTick t (s.line.time.second.getD 0 * secondTicks)
    let s := s.measured 0 (at_ - t)
    let done := decide (s.line.clock.tb ≠ now)
    let value := if done || s.line.time.stepDue.isSome then at_ else t
    if due then s.answerTimeSet .ok (tickWords value) (if done then at_ else t) else s

/-- PPS_EDGE (R45). -/
def execPpsEdge (dt : Nat) (highNs : Nat) (s : State) : Out := .next ((s.advance dt).ppsEdge highNs).flush

/-- PPS_LOSS_TIMEOUT: no pulse for 1.5 s (Table 2.1). -/
def State.ppsLoss (s : State) : State :=
  match s.line.time.ppsLast with
  | some t =>
    if s.line.clock.tb - t < 2250000000 then s
    else { s with line := s.line.modTime fun x => { x with ppsQual := false, ppsGood := 0, ppsBad := 0 } }.reselect
  | none => s

/-- PPS_LOSS_TIMEOUT (R45). -/
def execPpsLossTimeout (dt : Nat) (s : State) : Out := .next (s.advance dt).ppsLoss.flush

/-- TIME_SET (R46): on the line side it waits for its pulse; an earlier one that still waits is answered ABORTED. The reply is deferred (R310). -/
def State.timeSet (cmd : Cmd) (s : State) : State :=
  match s.arrived infoTimeSet.opcode cmd with
  | some (a, e) =>
    let s1 := { s with link := { s.link with line := e } }
    if epochDiffers cmd s1.line.time.epoch then s1.answerL infoTimeSet a s1.timeRefL .epochStale [] s1
    else
      let s2 := s1.answerTimeSet .aborted [] s1.line.clock.tb
      let y : TimeSet := { cmd := a, second := cmd.value 3 4, reached := s2.line.clock.tb }
      { s2 with line := s2.line.modTime fun x => { x with timeSet := some y } }
  | none => s.sendOn infoTimeSet cmd State.timeRefL State.timeRefL

/-- TIME_SET (R46). -/
def execTimeSet (dt : Nat) (cmd : Cmd) (s : State) : Out := .next ((s.advance dt).timeSet cmd).flush

/-- TIME_SET_TIMEOUT: no pulse within 1.1 s (R46). -/
def State.timeSetTimeout (s : State) : State :=
  match s.line.time.timeSet with
  | some y => if s.line.clock.tb - y.reached < 1650000000 then s else s.answerTimeSet .aborted [] (y.reached + 1650000000)
  | none => s

/-- TIME_SET_TIMEOUT (R46). -/
def execTimeSetTimeout (dt : Nat) (s : State) : Out := .next (s.advance dt).timeSetTimeout.flush

/-! ## PTP -/

/-- Whether PTP messages are taken: the Ethernet port works and its link is up (R357; log 138). -/
def State.ptpRuns (s : State) : Bool := s.etherOn && s.host.eth.link && s.dev.rung != .drift

/-- DOMAIN of H_PTP_CTRL (Table 13.14). -/
def ptpDomain (v : W32) : Nat := bitsOf v.toNat 24 8

/-- Whether PROFILE is that of IEC/IEEE 61850-9-3: over Ethernet, with the peer-to-peer delay mechanism (Table 13.15). -/
def ptpPeer (v : W32) : Bool := bitsOf v.toNat 22 2 == 1

/-- RX_DELAY, medium to balls, in ticks (R358). -/
def ptpRx (v : W32) : Int := roundDiv (3 * (bitsOf v.toNat 0 8 : Int)) 2

/-- TX_DELAY, balls to medium, in ticks (R358). -/
def ptpTx (v : W32) : Int := roundDiv (3 * (bitsOf v.toNat 8 8 : Int)) 2

/-- Whether a message is of the domain and the transport of a value of H_PTP_CTRL; over UDP the device needs an address (Tables 13.13, 13.15). -/
def State.ptpHears (v : W32) (m : PtpHead) (s : State) : Bool :=
  m.domain == ptpDomain v && m.layer2 == ptpPeer v && (m.layer2 || s.host.eth.ipv4 != 0)

/-- What the best master clock algorithm compares of two different grandmasters, in order, the lower value first (R357). -/
def gradeOrder (g : PtpGrade) : List Nat := [g.priority1, g.clockClass, g.accuracy, g.variance, g.priority2, g.grandmaster.toNat]

/-- Whether a list of values comes before another one in their order. -/
def lexBefore : List Nat → List Nat → Bool
  | a :: s, b :: t => a < b || (a == b && lexBefore s t)
  | _, _ => false

/-- Whether the data set of an Announce is better than another: of two grandmasters by their data, of one grandmaster by the steps to it and then by the
sender (R357; log 138). -/
def betterMaster (a b : PtpHead × PtpGrade) : Bool :=
  if a.2.grandmaster = b.2.grandmaster then
    lexBefore [a.2.steps, a.1.clock.toNat, a.1.port.toNat] [b.2.steps, b.1.clock.toNat, b.1.port.toNat]
  else lexBefore (gradeOrder a.2) (gradeOrder b.2)

/-- An Announce: the master that is followed tells anew, or a better one is followed from now on, by a path that is still to be measured (R357). -/
def Ptp.announce (m : PtpHead) (g : PtpGrade) (p : Ptp) : Ptp :=
  match p.best with
  | none => { p with best := some (m, g), grandmaster := g.grandmaster }
  | some b =>
    if b.1 = m then { p with best := some (m, g), grandmaster := g.grandmaster }
    else if betterMaster (m, g) b then { p with best := some (m, g), grandmaster := g.grandmaster, path := none, open_ := none, last := none }
    else p

/-- H_PTP_CTRL takes effect: with another domain or profile the master is chosen anew, and the path is measured anew (R358). -/
def Ptp.adopt (p : Ptp) : Ptp :=
  let same := ptpDomain p.ctrl == ptpDomain p.inForce && ptpPeer p.ctrl == ptpPeer p.inForce
  { p with inForce := p.ctrl, best := if same then p.best else none, path := none, open_ := none, last := none }

/-- PTP is qualified no more. -/
def Time.dropPtp (x : Time) : Time := { x with ptpQual := false, ptpGood := 0 }

/-- The PTP clock changed. -/
def HostSide.modPtp (f : Ptp → Ptp) (h : HostSide) : HostSide := { h with ptp := f h.ptp }

/-- A change of H_PTP_CTRL takes effect at a Sync: PTP is disqualified, as soon as the time unit can be told (R357, R358). -/
def State.ptpAdopt (s : State) : State :=
  if !s.host.ptp.requalify then s
  else
    let s := if s.host.ptp.inForce = s.host.ptp.ctrl then s else s.onHost (HostSide.modPtp Ptp.adopt)
    if s.link.host.up && s.link.line.up then
      { s.onHost (HostSide.modPtp fun p => { p with requalify := false }) with line := s.line.modTime Time.dropPtp }.reselect
    else s

/-- Whether a message is of the master that is followed. -/
def State.ptpFollows (m : PtpHead) (s : State) : Bool := s.ptpHears s.host.ptp.inForce m && s.host.ptp.best.any fun b => b.1 == m

/-- The time unit after an offset of PTP with the servo offset of its Sync (Table 2.1). -/
def Time.sync (servo off : Int) (x : Time) : Time :=
  let good := if servo.natAbs ≤ 150 then min 16 (x.ptpGood + 1) else 0
  let qual := if x.ptpQual then decide (servo.natAbs ≤ 15000) else decide (16 ≤ good)
  { x with ptpQual := qual, ptpGood := good, ptpOffset := off }

/-- The origin of a Sync captured at `t` is known (R357): with the path delay it gives the offset against the follower, which an internal message carries to
the time unit while the barrier is up. -/
def State.ptpOrigin (b : PtpOrigin) (t : Tick) (s : State) : State :=
  let s := s.onHost (HostSide.modPtp fun p => { p with last := some (b.origin, t), open_ := none })
  match s.host.ptp.path with
  | none => s
  | some d =>
    if s.link.host.up && s.link.line.up then
      { s with line := s.line.modTime (Time.sync b.servo (b.origin + d - t)) }.measured 1 (b.origin + d - t)
    else s

/-- A Sync of the master that is followed: captured in follower ticks at the medium (R358); of a two-step master its Follow_Up tells the origin. -/
def State.ptpSync (twoStep : Bool) (b : PtpOrigin) (s : State) : State :=
  let t := s.host.follower - ptpRx s.host.ptp.inForce
  let s := if s.link.host.up && s.link.line.up then { s with line := s.line.modTime fun x => { x with ptpLast := some s.line.clock.tb } } else s
  if twoStep then s.onHost (HostSide.modPtp fun p => { p with open_ := some (b.seq, t) }) else s.ptpOrigin b t

/-- The path delay that a delay request and its response give with the last Sync (IEEE 1588, R357, R358). -/
def Ptp.endToEnd (sent received : Int) (p : Ptp) : Ptp :=
  match p.last with
  | none => p
  | some (origin, t) => { p with path := some (roundDiv ((t - origin) + (received - (sent + ptpTx p.inForce))) 2) }

/-- The path delay that a peer delay request and its response give (IEEE 1588, R357, R358). -/
def Ptp.peerToPeer (sent turn : Int) (now : Tick) (p : Ptp) : Ptp :=
  { p with path := some (roundDiv (now - ptpRx p.inForce - (sent + ptpTx p.inForce) - turn) 2) }

/-- A PTP message (R357, R358). -/
def State.ptpMessage (msg : PtpMsg) (s : State) : State :=
  if !s.ptpRuns then s
  else
    let v := s.host.ptp.inForce
    match msg with
    | .other => s
    | .announce m g => if s.ptpHears v m && decide (g.steps < 255) then s.onHost (HostSide.modPtp (Ptp.announce m g)) else s
    | .sync m twoStep b =>
      if !s.ptpHears v m && !(s.host.ptp.requalify && s.ptpHears s.host.ptp.ctrl m) then s
      else if s.ptpAdopt.ptpFollows m then s.ptpAdopt.ptpSync twoStep b else s.ptpAdopt
    | .followUp m b =>
      match s.host.ptp.open_ with
      | some (seq, t) => if s.ptpFollows m && seq == b.seq then s.ptpOrigin b t else s
      | none => s
    | .delayResp m sent received =>
      if s.ptpFollows m && !ptpPeer v then s.onHost (HostSide.modPtp (Ptp.endToEnd sent received)) else s
    | .pdelayResp m sent turn =>
      if s.ptpHears v m && ptpPeer v then s.onHost fun h => h.modPtp (Ptp.peerToPeer sent turn h.follower) else s

/-- PTP_MESSAGE (R357). -/
def execPtpMessage (dt : Nat) (msg : PtpMsg) (s : State) : Out := .next ((s.advance dt).ptpMessage msg).flush

/-- PTP_SYNC_TIMEOUT: no Sync for 3 s (Table 2.1); the master is chosen anew (log 138). -/
def State.ptpLoss (s : State) : State :=
  match s.line.time.ptpLast with
  | some t => 
    if s.line.clock.tb - t < 4500000000 then s
    else
      { s.onHost (HostSide.modPtp fun p => { p with best := none, path := none, open_ := none, last := none }) with
          line := s.line.modTime fun x => { x.dropPtp with ptpLast := none } }.reselect
  | none => s

/-- PTP_SYNC_TIMEOUT (R45). -/
def execPtpSyncTimeout (dt : Nat) (s : State) : Out := .next (s.advance dt).ptpLoss.flush

/-! ## BEACON -/

/-- TT_PERIOD in strokes. -/
def Time.ttPeriod (x : Time) : Nat := x.row 10

/-- BEACON_SOURCE_TIMEOUT: no successful exchange for eight periods; the parent that fell silent is a candidate no more (Table 2.1). -/
def State.beaconLoss (s : State) : State :=
  let x := s.line.time
  match x.bcnStrokes, x.gridStroke s.line.clock.tb with
  | n :: _, some now =>
    if strokeDist n now < 8 * x.ttPeriod then s
    else
      let l := s.line.modTime fun x => { x with bcnQual := false, bcnStrokes := [], answers := x.answers.filter fun (a : TtAnswer) => some a.node != x.parent }
      { s with line := l.chooseParent }.reselect.elect
  | _, _ => s

/-- BEACON_SOURCE_TIMEOUT (R45). -/
def execBeaconSourceTimeout (dt : Nat) (s : State) : Out := .next (s.advance dt).beaconLoss.flush

/-! ## The follower -/

/-- A TIME_SYNC: the timebase, and a due step announced 20 µs ahead (R43). -/
def State.timeSyncSend (s : State) : State :=
  if !s.link.line.up then s
  else
    let now := s.line.clock.tb
    let l := match s.line.time.stepDue, s.line.time.stepAt with
      | some _, none => s.line.modTime fun x => { x with stepAt := some (now + 30000) }
      | _, _ => s.line
    let step := match l.time.stepDue, l.time.stepAt with | some n, some t => some (t, n) | _, _ => none
    { s with line := l.emit (.timeSync now step) }

/-- TIME_SYNC_SEND (R43). -/
def execTimeSyncSend (dt : Nat) (s : State) : Out := .next (s.advance dt).timeSyncSend.flush

/-- Whether the announced step is due, or the barrier went down before it was announced. -/
def State.stepIsDue (s : State) : Bool :=
  match s.line.time.stepAt with
  | some t => decide (t ≤ s.line.clock.tb)
  | none => !s.link.line.up

/-- A queue whose follower has jumped by `d`. -/
def Queue.shift (d : Tick) (q : Queue) : Queue := { q with stallEnd := q.stallEnd + d }

/-- A ring whose follower has jumped. -/
def Ring.shift (d : Tick) (g : Ring) : Ring := { g with holdoffEnd := g.holdoffEnd + d }

/-- A serial port whose follower has jumped. -/
def Serial.shift (d : Tick) (p : Serial) : Serial :=
  { p with timeout := p.timeout.map (· + d), stoppedTimeout := p.stoppedTimeout.map (· + d), queueStallEnd := p.queueStallEnd + d,
           breakFrom := p.breakFrom.map (· + d), tailFrom := p.tailFrom.map (· + d), edge := p.edge.map (· + d),
           lowSince := p.lowSince.map (· + d), shiftAt := p.shiftAt + d, txAfter := p.txAfter + d }

/-- The captures of PTP when the follower has jumped. -/
def Ptp.shift (d : Tick) (p : Ptp) : Ptp :=
  { p with open_ := p.open_.map fun (o : W16 × Tick) => (o.1, o.2 + d), last := p.last.map fun (o : Int × Tick) => (o.1, o.2 + d) }

/-- A key slot whose follower has jumped. -/
def KeySlot.shift (d : Tick) (k : KeySlot) : KeySlot := { k with writes := k.writes.map (· + d) }

/-- A rung exit whose follower has jumped. -/
def RungExit.shift (d : Tick) (x : RungExit) : RungExit := { x with began := x.began + d }

/-- The follower jumps by `d`: what the host side counts in elapsed time keeps its distance to the present (log 60). -/
def State.jump (d : Tick) (s : State) : State :=
  let h := s.host
  { s with dev := { s.dev with bootDeadline := s.dev.bootDeadline.map (· + d), exit := s.dev.exit.map (RungExit.shift d) },
           link := { s.link with host := s.link.host.shift d },
           host := { h with follower := h.follower + d, queues := h.queues.map (Queue.shift d), rings := h.rings.map (Ring.shift d),
                            serials := h.serials.map (Serial.shift d), ptp := h.ptp.shift d, keys := h.keys.map (KeySlot.shift d),
                            mem := { h.mem with reports := h.mem.reports.map (Report.shift d), march := h.mem.march.shift d },
                            margins := h.margins.map fun (m : Tick × W16) => (m.1 + d, m.2), marginOkFrom := h.marginOkFrom.map (· + d) } }

/-- TIMEBASE_STEP: the timebase and the follower step together (R43). -/
def State.timebaseStep (s : State) : State :=
  match s.line.time.stepDue with
  | none => s
  | some n =>
    if !s.stepIsDue then s
    else
      let s := match s.host.syncStep with
        | some (_, k) => { s with host := { s.host with syncStep := none } }.jump k
        | none => s
      s.stepNow n

/-- TIMEBASE_STEP (R43). -/
def execTimebaseStep (dt : Nat) (s : State) : Out := .next (s.advance dt).timebaseStep.flush

/-- RUN_START, the first record of a new run (R474, Table 19.9). -/
def State.runStart (before after : Tick) (s : State) : State :=
  { s with host := s.host.event 0x006 0x8000 1 false s.dev.modeEpoch 0 (tickWords before ++ tickWords after ++ [s.line.bootId]) }

/-- The follower takes a TIME_SYNC (R43, R474): set at the first of a run; else it steps forward when it is behind by more than 1 µs, and slews
otherwise. -/
def State.follow (target : Tick) (step : Option (Tick × Nat)) (s : State) : State :=
  let before := s.host.follower
  if s.host.firstSync then
    let s := s.jump (target - before)
    let s := { s with host := { s.host with followerAhead := 0, followerBehind := 0, followerFree := 0, inSync := true, firstSync := false, lastSync := target, syncStep := step, stamps := [] } }
    s.runStart before target
  else
    let now := if target > before + 1500 then target else before
    let s := s.jump (now - before)
    { s with host := { s.host with followerAhead := (now - target).toNat, followerBehind := (target - now).toNat, followerFree := 0, inSync := true, lastSync := now,
                                   syncStep := step } }

/-- TIME_SYNC_RECEIVE: the follower lands within 2 ticks of the timebase (R43). -/
def State.timeSyncReceive (s : State) : State :=
  match takeInbox s.link.host with
  | some (.timeSync _ step, e) =>
    let err : Int := (((Config.freeError s.host.freeCtr).toNat % 5 : Nat) : Int) - 2
    { s.spend 1 with link := { s.link with host := e } }.follow (s.line.clock.tb + err) step
  | _ => s

/-- TIME_SYNC_RECEIVE (R43). -/
def execTimeSyncReceive (dt : Nat) (s : State) : Out := .next (s.advance dt).timeSyncReceive

/-- The time that the follower keeps: what it shows, with what it does not show on the coarse rungs (R483). -/
def HostSide.time (h : HostSide) : Tick := h.follower + h.followerCoarse

/-- The whole second of the follower's 64-bit count that lies at most 5 ticks after an instant, or before it (R44). -/
def wholeSecond (t : Tick) : Tick := countZero (t + 5) + (t + 5) % 2 ^ 64 / secondTicks * secondTicks

/-- The level of PPS_OUT: high for 100 ms from each edge (R359). -/
def HostSide.ppsLevel (h : HostSide) : Bool := match h.ppsOut with | some k => decide (h.time < k + 150000000) | none => false

/-- PPS_OUT_EDGE: a rising edge within 5 ticks of the instant at which the follower reaches a whole second, while the timebase is disciplined
(R44, R359). -/
def State.ppsOutEdge (s : State) : State :=
  let k : Tick := wholeSecond s.host.time
  let near := decide (s.host.time - k ≤ 5)
  if !s.dev.hostRails || !s.line.clock.disciplined || !near || decide (s.host.ppsOut = some k) then s
  else { s with host := { s.host with ppsOut := some k } }

/-- PPS_OUT_EDGE (R44). -/
def execPpsOutEdge (dt : Nat) (s : State) : Out := .next (s.advance dt).ppsOutEdge

/-- REF10M_CHANGE: the converter clock source; c alone changes (R39, R360). -/
def Line.ref10m (inTolerance : Bool) (rate : Int) (l : Line) : Line :=
  { l with clock := { l.clock with ref10m := inTolerance, c := max (-858993) (min 858993 rate) } }

/-- REF10M_CHANGE (R39): the reference reaches the line side while the barrier and its timing lane are up. -/
def execRef10mChange (dt : Nat) (inTolerance : Bool) (rate : Int) (s : State) : Out :=
  let s := s.advance dt
  .next { s with line := s.line.ref10m (inTolerance && s.link.line.up && s.link.timingUp) rate }

/-! ## Commands -/

/-- Opcode 0x100 (Table 11.7). -/
def infoTimeStatus : CmdInfo := ⟨0x100, true, true, setRun⟩

/-- The last offset as a 32-bit result, at the nearest end of the range where it lies outside (R519). -/
def Time.offsetWords (x : Time) : List W16 := wordsOf 2 (ofSigned 32 (max (-2147483648) (min 2147483647 x.offset)))

/-- TIME_STATUS (R317, Table 11.7). -/
def State.timeStatus (acc : Accepted) (s : State) : Answer :=
  let l := s.line
  let x := l.time
  let ws := [w x.source, w x.stratumNow, w (l.errorBound s.dev.mode)] ++ wordsOf 2 x.mainsFreq ++ [w x.ref, w x.senseBits]
    ++ wordsOf 2 ((x.cox.map fun c => c.1.toNat).getD 0) ++ [w ((x.cox.map (·.2)).getD 15)] ++ wordsOf 2 ((x.parent.map (·.toNat)).getD 0)
    ++ wordsOf 2 (((x.gridStroke l.clock.tb).map (·.toNat)).getD 0) ++ x.offsetWords ++ counterWords x.ctrs
  ⟨.ok, ws, { s with line := l.modTime fun x => { x with ctrs := clearAll acc.cmd.clr x.ctrs } }⟩

/-- TIME_STATUS (R317). -/
def execTimeStatus (dt : Nat) (cmd : Cmd) (s : State) : Out :=
  .next ((s.advance dt).runL infoTimeStatus cmd false State.timeRefL State.timeStatus)

/-- Opcode 0x101. -/
def infoTimeConfigure : CmdInfo := ⟨0x101, false, true, setRun⟩

/-- The rows of Table 2.2 that are marked CFG: NOMINAL_F, PHASE_SEQ, CATCH_W, SYNTH_LEN and BEACON_PERIOD (Table 11.7). -/
def cfgRows (mask : Nat) : Bool := [2, 3, 4, 5, 8].any (bitOf mask)

/-- What R303 judges of a TIME_CONFIGURE: with a row marked CFG its mode set is CFG (Table 11.7). -/
def infoTimeConfigureOf (cmd : Cmd) : CmdInfo := ⟨0x101, false, true, if cfgRows (cmd.word 3) then setCfg else setRun⟩

/-- A format word with its reserved bits cleared (R6, Table 11.7). -/
def fmtWord (v : Nat) : Nat := bitsOf v 8 4 * 256 + bitsOf v 4 2 * 16 + bitsOf v 0 2

/-- The rows of Table 2.2 as a TIME_CONFIGURE carries them. -/
def timeRows (c : Cmd) : List Nat :=
  [c.word 4 % 8, c.value 5 2, c.word 7, c.word 8, c.word 9, c.value 10 2, c.word 12, c.word 13, c.word 14, c.word 15, c.word 16, c.word 17,
   fmtWord (c.word 18), c.word 19, c.word 20, fmtWord (c.word 21)]

/-- Whether a row holds a value of its range (Table 2.2). -/
def timeRowOk (i v : Nat) : Bool :=
  match i with
  | 1 => decide ((toSigned 32 v).natAbs ≤ 1000000)
  | 2 => decide (v = 50 ∨ v = 60)
  | 3 => decide (v ≤ 1)
  | 4 => decide (250 ≤ v ∧ v ≤ 2000 ∧ v % 50 = 0)
  | 5 => decide (1000 ≤ v ∧ v ≤ 100000)
  | 6 => decide (1 ≤ v ∧ v ≤ 600)
  | 7 => decide (v ≤ 3600)
  | 8 => decide (v = 64 ∨ v = 128 ∨ v = 256)
  | 9 => decide (v ≤ 1)
  | 10 => decide (16 ≤ v ∧ v ≤ 1024)
  | 11 => decide (v ≤ 255)
  | 12 => decide (bitsOf v 8 4 ≤ 7)
  | 13 => decide ((toSigned 16 v).natAbs ≤ 1000)
  | 14 => decide (v ≤ 255)
  | 15 => decide (bitsOf v 8 4 ≤ 7)
  | _ => true

/-- The settings that a TIME_CONFIGURE leaves. -/
def Time.newRows (c : Cmd) (x : Time) : List Nat :=
  (List.range 16).map fun i => if bitOf (c.word 3) i then nth (timeRows c) i 0 else x.row i

/-- TIME_CONFIGURE (R317, R321): the rows marked CFG only in CONFIG, and then as a whole. -/
def State.timeConfigure (acc : Accepted) (s : State) : Answer :=
  let c := acc.cmd
  let m := c.word 3
  let rows := s.line.time.newRows c
  if cfgRows m && s.dev.mode != .config then ⟨.mode, [], s⟩
  else if !(List.range 16).all (fun i => !bitOf m i || timeRowOk i (nth (timeRows c) i 0)) then s.hostError 0
  else if rows = s.line.time.cfg then ⟨.ok, [], s⟩
  else
    let l := (s.line.modTime fun x => { x with cfg := rows }).timeEvent 0x002 [c.tag, 0x101, w m]
    ⟨.ok, [], { s with line := l }.recompute.reselect.elect⟩

/-- TIME_CONFIGURE (R317). -/
def execTimeConfigure (dt : Nat) (cmd : Cmd) (s : State) : Out :=
  .next ((s.advance dt).runL (infoTimeConfigureOf cmd) cmd false State.timeRefL State.timeConfigure)

/-! ## After the loss of the last source -/

/-- CREW_HOLD: HOLDOVER_LIMIT after the loss; pending crew copies are dropped (R70). -/
def Line.crewHold (mode : Mode) (l : Line) : Line :=
  if l.time.crewHeld || !l.holdoverSpent then l
  else
    let e := l.errorBound mode
    let t := l.time.lossAt.getD 0
    ((l.modTime fun x => { x with crewHeld := true }).timeEvent 0x016 (tickWords t ++ [w e])).dropCopies (fun k => k.type != 0) 6

/-- CREW_HOLD (R70). -/
def execCrewHold (dt : Nat) (s : State) : Out := .next ((s.advance dt).onLine (Line.crewHold s.dev.mode))

/-- ISLAND_DELAY_EXPIRY: ISLAND_DELAY after the loss, from HOLDOVER (R71, Table 1.7). -/
def State.islandDelay (s : State) : State :=
  let x := s.line.time
  let due := match x.lossAt with | some t => decide (x.islandDelay ≠ 0 ∧ x.islandDelay ≤ s.line.clock.tb - t) | none => false
  if s.dev.mode = .holdover ∧ due = true then { s with dev := { s.dev with islandAuto := true } }.enterMode .island 0x16 s.line.clock.tb else s

/-- ISLAND_DELAY_EXPIRY (R71). -/
def execIslandDelayExpiry (dt : Nat) (s : State) : Out := .next (s.advance dt).islandDelay.flush

end Sys2Proof.Machine
end

