-- ==== Sys2Proof/Machine/Beacons.lean ====
section
/-! DEFINITION. Frames that the device itself originates: beacons (R61 to R65, R168 to R170), time transfers (R50, R51, R171 to R175) and link reports
(R262, R263). -/

namespace Sys2Proof.Machine

/-! ## Own frames -/

/-- The hop header of an own frame (Table 6.7). -/
def ownHop (dest src : W32) (seq : W16) (hopsToGo : Nat) (flood : W16) (k : Nat) : List Byte :=
  beBytes 4 dest.toNat ++ beBytes 4 src.toNat ++ beBytes 2 seq.toNat ++ [BitVec.ofNat 8 hopsToGo, 0] ++ beBytes 2 flood.toNat ++ [BitVec.ofNat 8 k, 0]

/-- An own frame is planned. -/
def Line.plan (o : OwnFrame) (l : Line) : Line := l.modTime fun x => { x with planned := x.planned ++ [o] }

/-- The planned own frame of a type that launches now, once the actions of a class before its own have acted (R88). -/
def Line.dueOwn (l : Line) (type : Nat) (chan : Nat → Bool) : Option OwnFrame :=
  l.time.planned.find? fun o => o.type == type && chan o.chan && decide (o.launch = l.clock.tb) && !l.classWaits o.chan

/-- The planned own frame of a type that is due goes on air; a frame of its channel whose end has come is over first. -/
def Line.sendOwn (mode : Mode) (type : Nat) (chan : Nat → Bool) (l : Line) : Line :=
  match l.dueOwn type chan with
  | some o => (l.transmitEnd o.chan).launchOwn mode o
  | none => l

/-- Whether an own frame keeps its header in the catch of its launch stroke (R164). -/
def Line.ownInCatch (l : Line) (c mod : Nat) (t : Tick) : Bool :=
  l.inCatch (l.chan c).refPort t (headerEnd t (l.chan c).rateK mod)

/-- MOD, RATE and LIFT of BEACON_FMT or TT_FMT (Table 11.7). -/
def fmtOf (v : Nat) : Nat × Nat × Nat := (bitsOf v 8 4, bitsOf v 4 2, bitsOf v 0 2)

/-- Whether an own frame may be planned: a stroke's instant lies within the next 1 ms. -/
def Line.soon (l : Line) (t : Tick) : Bool := decide (l.clock.tb ≤ t ∧ t ≤ l.clock.tb + 1500000)

/-! ## Beacons -/

/-- Whether this node is the elected cox and originates beacons (R62, R64). -/
def State.originates (s : State) : Bool :=
  isTraffic s.dev.mode && s.line.nodeId != 0 && decide (s.line.time.cox.map (·.1) = some s.line.nodeId)

/-- A segment with n_eff `n` after the held ones, its boundary joining the last (R61). -/
def appendSeg (n : W32) (pRaw : Option Nat) (pb : Nat) (segs : List Seg) : List Seg :=
  match segs.getLast? with
  | none => segs
  | some g =>
    if later g.nEff.toNat n.toNat 32 then segs ++ [{ nEff := n, bEff := g.ramp.boundary n, pRaw := pRaw.getD g.pRaw, pb := pb }] else segs

/-- The stroke lengths, in 2^-16 ticks, that a cox may choose for a segment that begins at `b` (R61): between the bounds, and with the boundary at
its end within ±2,048 steps of the reference angle (R56) of the crossing that its reference tracker now predicts there; the bounds alone while the reference is not VALID,
or where none of them comes so near (log 54). -/
def Line.lengths (l : Line) (b : Tick) : Nat × Nat :=
  let x := l.time.input l.time.ref
  let h := halfCycle x.freq
  let a := (l.time.refAngle b).toNat % 32768
  let off : Int := if a ≥ 16384 then (a : Int) - 32768 else a
  let p := l.time.beaconPeriod
  let lo := max (11538462 * 65536) (h * 65536 - off * h * 2 / p - h * 4096 / p)
  let hi := min (16666667 * 65536) (h * 65536 - off * h * 2 / p + h * 4096 / p)
  if x.state = .valid ∧ lo ≤ hi then (lo.toNat, hi.toNat) else (11538462 * 65536, 16666667 * 65536)

/-- A stroke length between two bounds, which the cox chooses: free. -/
def freeLength (n : Nat) (bounds : Nat × Nat) : Nat :=
  bounds.1 + ((Config.freeLong n).toNat + 2 ^ 32 * (Config.freeLong (n + 1)).toNat) % (bounds.2 - bounds.1 + 1)

/-- The segments that a cox issues at its beacon stroke `n` (R61, R65): at its first one the missing ones with the length before them. -/
def Time.issue (n : W32) (length : Nat) (x : Time) : List Seg :=
  let p := x.beaconPeriod
  let segs := [1, 2, 3].foldl (fun ss j => appendSeg (strokeAdd n (j * p : Nat)) none p ss) x.segs
  appendSeg (strokeAdd n (4 * p : Nat)) (if x.isCox then some length else none) p segs

/-- At least four segments after stroke `n`: more of the last length where fewer are held (log 54). -/
def fillSegs (n : W32) (p : Nat) : Nat → List Seg → List Seg
  | 0, ss => ss
  | k + 1, ss =>
    if (ss.filter fun g => later n.toNat g.nEff.toNat 32).length ≥ 4 then ss
    else fillSegs n p k (appendSeg (strokeAdd ((ss.getLast?.map (·.nEff)).getD n) p) none p ss)

/-- The five segments of a beacon launched in stroke `n` (R62, R169). -/
def beaconSegs (n : W32) (segs : List Seg) : List Seg := (segAt segs n).toList ++ (segs.filter fun g => later n.toNat g.nEff.toNat 32).take 4

/-- The bytes of a segment (Table 5.8). -/
def Seg.bytes (g : Seg) : List Byte := beBytes 4 g.nEff.toNat ++ beBytes 8 (tickNat g.bEff) ++ beBytes 8 g.pRaw

/-- The payload of a beacon (Table 5.7). -/
def Line.beaconBytes (l : Line) (mode : Mode) (seq : W16) (n : W32) (launch : Tick) : List Byte :=
  let x := l.time
  ownHop 0xFFFFFFFF l.nodeId seq 255 0xFFFF 1 ++ [1, BitVec.ofNat 8 x.stratumNow] ++ beBytes 4 l.nodeId.toNat ++ beBytes 2 (l.errorBound mode)
    ++ beBytes 2 (min 65535 x.mainsFreq) ++ beBytes 2 x.beaconPeriod ++ [BitVec.ofNat 8 x.source, 5, 0, 0] ++ beBytes 4 n.toNat
    ++ beBytes 4 (ofSigned 32 x.beaconOfs) ++ beBytes 8 (tickNat launch) ++ (beaconSegs n x.segs).flatMap Seg.bytes

/-- The beacon stroke whose launch comes within 1 ms (R62). -/
def Line.beaconStroke (l : Line) : Option (W32 × Tick) :=
  let x := l.time
  (x.gridStroke (l.clock.tb + 1500000 - x.beaconOfs)).bind fun n =>
    if n.toNat % x.beaconPeriod ≠ 0 then none
    else (x.gridBoundary n).bind fun b => if l.soon (b + x.beaconOfs) then some (n, b + x.beaconOfs) else none

/-- The beacon of stroke `n` fixed: its segments issued, the frame planned (R61, R65, R170). Without a SEQ it is a beacon reject. -/
def State.planBeacon (n : W32) (launch : Tick) (s : State) : State :=
  let joins := ((s.line.time.gridBoundary (strokeAdd n (4 * s.line.time.beaconPeriod : Nat))).getD launch)
  let length := freeLength s.host.freeCtr (s.line.lengths joins)
  let l := s.line.modTime fun x => { x with segs := fillSegs n x.beaconPeriod 4 (x.issue n length), isCox := true }
  let l := match l.takeSeq with
    | none => l.countRelay 5
    | some (seq, l) =>
      let c := l.time.row 11
      let f := fmtOf (l.time.row 12)
      l.plan { chan := c, port := none, type := 2, mod := f.1, rate := f.2.1, lift := f.2.2, bytes := l.beaconBytes s.dev.mode seq n launch, launch := launch }
  ({ s.spend 2 with line := l }).refillSeq

/-- Why a beacon is not sent at its instant (R170). -/
def Line.beaconRejected (l : Line) (o : OwnFrame) : Bool :=
  let p := (l.chan o.chan).refPort
  (l.chan o.chan).entries.isEmpty || !l.ownInCatch o.chan o.mod o.launch
    || decide (l.ownTicks o * 65536 * 5 > 4 * ((l.launchStroke p o.launch).map (l.strokeLength p)).getD 0)

/-- A planned beacon at its instant: launched, or counted as a beacon reject, driver enables risen for it falling (R123, R170). -/
def Line.sendBeacon (mode : Mode) (l : Line) : Line :=
  match l.dueOwn 2 fun _ => true with
  | none => l
  | some o => if l.beaconRejected o then l.skipOwn o else l.sendOwn mode 2 fun _ => true

/-- BEACON_ORIGINATE: from 1 ms before its launch on a beacon is fixed, at its launch it goes on air (R62). Launches that count on grid strokes follow
the segments issued (R79). -/
def State.beaconOriginate (s : State) : State :=
  let s := match s.line.beaconStroke with
    | some (n, t) =>
      if s.originates && !(s.line.time.planned.any fun o => o.type == 2 && decide (o.launch = t)) then (s.planBeacon n t).recompute else s
    | none => s
  { s with line := s.line.sendBeacon s.dev.mode }

/-- BEACON_ORIGINATE (R62, R170). -/
def execBeaconOriginate (dt : Nat) (s : State) : Out := .next (s.advance dt).beaconOriginate.flush

/-! ## Time transfer: the requester -/

/-- The ACTIVE neighbours of the link table. -/
def Line.activeNodes (l : Line) : List W32 := ((l.links.entries.filter fun e => !e.stale).map (·.node)).dedup

/-- The neighbour asked: the time parent, or while there is none any ACTIVE one, which is a free choice (R50, R171; log 55). -/
def Line.ttTarget (l : Line) (pick : Nat) : Option W32 :=
  match l.time.parent with
  | some p => some p
  | none => l.activeNodes[pick % max 1 l.activeNodes.length]?

/-- The channel of a request (R174). -/
def Line.ttChannel (l : Line) (target : W32) : Option Nat :=
  let ch := l.time.row 14
  if ch ≠ 0xFF then some ch
  else
    let best := (l.links.entries.filter fun e => e.node == target).foldl (fun b e =>
      match b with | none => some e | some x => if x.snr.getD (-1000) < e.snr.getD (-1000) then some e else some x) (none : Option LinkEntry)
    best.map fun e => l.via e.chan

/-- The stroke of the next request, and the first tick of its catch when it comes within 1 ms (R173). -/
def Line.ttStroke (l : Line) : Option (W32 × Tick) :=
  let x := l.time
  (x.gridStroke (l.clock.tb + 1500000 + x.halfCatch)).bind fun n =>
    if n.toNat % x.ttPeriod ≠ l.nodeId.toNat % x.ttPeriod then none
    else (x.gridBoundary n).bind fun b => if l.soon (b - x.halfCatch) then some (n, b - x.halfCatch) else none

/-- A request fixed: planned, and open (R171, R173). One that would break R164, or whose channel has no port set, is not sent. -/
def Line.planRequest (target : W32) (n : W32) (launch : Tick) (l : Line) : Line :=
  match l.ttChannel target with
  | none => l
  | some c =>
    let f := fmtOf (l.time.row 15)
    if (l.chan c).entries.isEmpty || !l.ownInCatch c f.1 launch then l
    else match l.takeSeq with
      | none => l
      | some (seq, l) =>
        let x := l.time
        let t1 := syncInstant launch (l.chan c).rateK
        let bytes := ownHop target l.nodeId seq 0 0 0 ++ [1, BitVec.ofNat 8 x.stratumNow] ++ beBytes 2 x.exch.toNat ++ beBytes 4 n.toNat ++ beBytes 8 (tickNat t1)
        (l.modTime fun x => { x with open_ := some { exch := x.exch, stroke := n, t1 := t1, parent := target }, exch := x.exch + 1 }).plan
          { chan := c, port := none, type := 3, mod := f.1, rate := f.2.1, lift := f.2.2, bytes := bytes, launch := launch }

/-- TIME_TRANSFER_REQUEST: fixed from 1 ms before its launch on, launched at the first tick of the catch (R173). -/
def State.ttRequest (s : State) : State :=
  let l := s.line
  let s := match l.ttStroke, l.ttTarget (Config.freeWord s.host.freeCtr).toNat with
    | some (n, t), some target =>
      if outputsActive s.dev.mode && l.nodeId != 0 && bitOf (l.time.row 0) 2 && !(l.time.planned.any fun o => o.type == 3 && decide (o.launch = t)) then
        ({ s.spend 1 with line := l.planRequest target n t }).refillSeq
      else s
    | _, _ => s
  { s with line := s.line.sendOwn s.dev.mode 3 fun _ => true }

/-- TIME_TRANSFER_REQUEST (R173). -/
def execTimeTransferRequest (dt : Nat) (s : State) : Out := .next (s.advance dt).ttRequest.flush

/-! ## Time transfer: the parent -/

/-- The first time-transfer frame of a TYPE that waits, and the rest. -/
def Line.takeTt (type : Nat) (l : Line) : Option (GoodFrame × Line) :=
  (l.ttIn.find? fun g => hdrType g.frame.hdr == type).map fun g => (g, { l with ttIn := l.ttIn.erase g })

/-- 10 dB in Q8.8. -/
def tenDb : Int := 2560

/-- Whether the SNR of a frame's SYNC lies below 10 dB (R51). -/
def GoodFrame.lowSnr (g : GoodFrame) : Bool := decide (toSigned 16 g.frame.lock.snr.toNat < tenDb)

/-- The instant of a reply: at least 100 µs after the request's end, a multiple of Ts from the boundary of the request's stroke (R173). -/
def replyInstant (b earliest : Tick) (ts : Nat) : Tick := b - (-(earliest - b)) / ts * ts

/-- The reply to a request (R171 to R174), in the catch of the request's stroke (R51); none where that, R164 or the port set forbids it. -/
def Line.planReply (mode : Mode) (g : GoodFrame) (l : Line) : Line :=
  let f := g.frame
  let c := l.via g.chan
  let n := BitVec.ofNat 32 (field g.bytes 20 4)
  match l.time.gridBoundary n with
  | none => l
  | some b =>
    let k := (l.chan c).rateK
    let t := replyInstant b (f.endAt + 150000) (symbolTicks k)
    let allowed := (l.chan c).entries.any fun e => e.2 == f.port
    let sameCatch := decide (b - l.time.halfCatch ≤ t ∧ headerEnd t k (hdrMod f.hdr) ≤ b + l.time.halfCatch)
    if !allowed || !sameCatch || !l.ownInCatch c (hdrMod f.hdr) t then l
    else match l.takeSeq with
      | none => l
      | some (seq, l) =>
        let x := l.time
        let refused := decide (x.stratumNow ≥ 14) || !l.clock.disciplined
        let bytes := ownHop (hopSrc g.bytes) l.nodeId seq 0 0 0 ++ [1, BitVec.ofNat 8 x.stratumNow] ++ (g.bytes.drop 18).take 14
          ++ beBytes 8 (tickNat (syncInstant f.launch f.rateK)) ++ beBytes 8 (tickNat (syncInstant t k)) ++ beBytes 2 (l.errorBound mode)
          ++ [BitVec.ofNat 8 x.source, BitVec.ofNat 8 (b2n refused + 2 * b2n g.lowSnr)] ++ beBytes 2 f.lock.snr.toNat ++ [0, 0]
        l.plan { chan := c, port := some f.port, type := 4, mod := hdrMod f.hdr, rate := hdrRate f.hdr, lift := hdrLift f.hdr, bytes := bytes, launch := t }

/-- TIME_TRANSFER_REQUEST_RECEIVED: a request addressed to this node (R173). -/
def State.ttRequestReceived (s : State) : State :=
  match s.line.takeTt 3 with
  | none => s
  | some (g, l) =>
    if l.nodeId = 0 ∨ hopDest g.bytes ≠ l.nodeId ∨ hdrLen g.frame.hdr ≠ 31 ∨ nth g.bytes 16 0 ≠ 1 ∨ outputsActive s.dev.mode = false then { s with line := l }
    else { s with line := l.planReply s.dev.mode g }.refillSeq

/-- TIME_TRANSFER_REQUEST_RECEIVED (R173). -/
def execTimeTransferRequestReceived (dt : Nat) (s : State) : Out := .next (s.advance dt).ttRequestReceived.flush

/-- TIME_TRANSFER_REPLY: the planned reply at its instant (R174). -/
def execTimeTransferReply (dt : Nat) (s : State) : Out := .next ((s.advance dt).onLine (Line.sendOwn s.dev.mode 4 fun _ => true))

/-! ## Time transfer: the result -/

/-- The mean of the path delays, as an exact value. -/
def meanDelay (xs : List Int) : Option Rat := if xs.isEmpty then none else some ((xs.sum : Rat) / (xs.length : Rat))

/-- Whether a path delay differs by more than 1 µs from the mean of the last eight (R51). -/
def delayRejected (xs : List Int) (d : Int) : Bool :=
  match meanDelay xs with
  | none => false
  | some m => decide (1500 < |(d : Rat) - m|)

/-- Whether a reply answers the open request and neither end found it too weak (R175). A reply of another node than the one asked, or with no request
open, counts as a discarded exchange too (log 35). -/
def Line.replyMatches (l : Line) (g : GoodFrame) : Bool :=
  let b := g.bytes
  match l.time.open_ with
  | none => false
  | some o =>
    decide (field b 18 2 = o.exch.toNat ∧ field b 20 4 = o.stroke.toNat ∧ field b 24 8 = tickNat o.t1 ∧ hopSrc b = o.parent)
      && decide ((nth b 51 0).toNat % 4 = 0) && !g.lowSnr

/-- What a neighbour's reply says of it (R50). -/
def Line.noteAnswer (g : GoodFrame) (l : Line) : Line :=
  let a : TtAnswer :=
    { node := hopSrc g.bytes, stratum := (nth g.bytes 17 0).toNat, e := field g.bytes 48 2, below := min 0xFFFF (hopE (field g.bytes 48 2) (l.chan g.chan).rateK) }
  (l.modTime fun x => { x with answers := a :: x.answers.filter fun (y : TtAnswer) => y.node != a.node }).chooseParent

/-- A successful exchange of the parent: its offset and E, and the qualification of BEACON (R49 to R51, Table 2.1). -/
def Line.exchanged (g : GoodFrame) (off : Int) (l : Line) : Line :=
  let now := (l.time.gridStroke l.clock.tb).getD 0
  let e := min 0xFFFF (hopE (field g.bytes 48 2) (l.chan g.chan).rateK)
  l.modTime fun x =>
    let strokes := (now :: x.bcnStrokes).take 3
    let three := match strokes[2]? with | some a => decide (strokeDist a now ≤ 4 * x.ttPeriod) | none => false
    { x with bcnStrokes := strokes, bcnOffset := off, parentE := e, bcnQual := x.bcnQual || three,
             eBase := if x.source = 2 then e else x.eBase }

/-- A reply addressed to this node: offset and path delay, or a failed time transfer (R51, R175). The last eight path delays are those of every parent
asked (log 120). -/
def State.takeReply (s : State) : State :=
  match s.line.takeTt 4 with
  | none => s
  | some (g, l) =>
    let b := g.bytes
    if l.nodeId = 0 ∨ hopDest b ≠ l.nodeId ∨ hdrLen g.frame.hdr ≠ 55 ∨ nth b 16 0 ≠ 1 then { s with line := l }
    else
      let ok := l.replyMatches g
      let l := (l.noteAnswer g).modTime fun x => { x with open_ := none }
      if !ok then { s with line := l.countTime 14 }
      else
        let now := l.clock.tb
        let t1 := nearTick now (field b 24 8)
        let t2 := nearTick now (field b 32 8)
        let t3 := nearTick now (field b 40 8)
        let t4 := syncInstant g.frame.launch g.frame.rateK
        let off := roundDiv ((t2 - t1) - (t4 - t3)) 2
        let delay := roundDiv ((t4 - t1) - (t3 - t2)) 2
        let bad := delayRejected l.time.bcnDelays delay
        let l := l.modTime fun x => { x with bcnDelays := (delay :: x.bcnDelays).take 8 }
        if bad then { s with line := l.countTime 14 }
        else if l.time.parent ≠ some (hopSrc b) then { s with line := l }
        else { s with line := l.exchanged g off }.measured 2 off

/-- TIME_TRANSFER_REPLY_RECEIVED: the node's own rank follows its stratum (R64, R175). -/
def State.ttReplyReceived (s : State) : State := s.takeReply.elect

/-- TIME_TRANSFER_REPLY_RECEIVED (R175). -/
def execTimeTransferReplyReceived (dt : Nat) (s : State) : Out := .next (s.advance dt).ttReplyReceived.flush

/-! ## Link reports -/

/-- The profile group of a phase bin: that of the bin's centre, where it next falls after `t` (R263; log 56). -/
def Line.groupOfBin (l : Line) (p : Nat) (t : Tick) (bin : Nat) : Nat :=
  let c := l.phaseInstant p t (BitVec.ofNat 16 (bin * 256 + 128))
  ((l.groups p c c).head?).getD 0

/-- How far each observed cell of a frequency bin stands above the mean over all phase bins, in dB, with its phase bin (R263).
Cells without an observation do not count for the mean (DESIGN CHOICE, log 123). -/
def Line.cellExcess (l : Line) (p freq : Nat) : List (Nat × Rat) :=
  let cells := (List.range 256).filterMap fun bin => ((l.cellPower p bin freq).map cellCount).map fun v => (bin, (-(v : Rat)) / 128)
  match meanOf (cells.map (·.2)) with
  | none => []
  | some m => cells.map fun c => (c.1, c.2 - m)

/-- The frequency bins of a port that overlap a band. -/
def Port.binsIn (q : Port) (band : Int × Int) : List Nat :=
  (List.range 128).filter fun f => bandsOverlap band (hertz (q.binEdges f).1, hertz (q.binEdges f).2)

/-- PROFILE of a channel at a launch (R263): in steps of 0.5 dB, 0xFF without cells, without a map or off the grid, and for a group whose cells hold no
observation (log 123). -/
def Line.profileOf (l : Line) (c : Nat) (t : Tick) : List Nat :=
  let x := l.chan c
  match x.place with
  | none => List.replicate 8 0xFF
  | some q =>
    let p := q.rxPort
    if (l.port p).srcNow ≠ 0 then List.replicate 8 0xFF
    else
      let cells := ((l.port p).binsIn (bandOf q.f q.rateK)).flatMap fun f => l.cellExcess p f
      let groups := (List.range 256).map (l.groupOfBin p t)
      (List.range 8).map fun g =>
        match meanOf ((cells.filter fun e => nth groups e.1 0 == g).map (·.2)) with
        | none => 0xFF
        | some m => min 0xFE (roundRat (m * 2)).toNat

/-- The entries of a report: the ACTIVE ones of the channel, heard most recently first, up to 32 (R263). -/
def Line.reportEntries (l : Line) (c : Nat) : List LinkEntry :=
  ((l.links.entries.filter fun e => e.chan == c && !e.stale).insertionSort fun a b => b.heardAt ≤ a.heardAt).take 32

/-- The bytes of a report entry (Table 9.4). -/
def LinkEntry.reportBytes (l : Line) (e : LinkEntry) : List Byte :=
  beBytes 4 e.node.toNat ++ beBytes 2 (measureWord e.snr).toNat ++ beBytes 2 (measureWord e.evm).toNat
    ++ [BitVec.ofNat 8 (max 8 (min 255 (roundRat (e.iter * 8)).toNat)), BitVec.ofNat 8 (e.washRx l)] ++ beBytes 2 e.since

/-- The payload of a report (Table 9.3). -/
def Line.reportBytes (l : Line) (c : Nat) (seq : W16) (t : Tick) : List Byte :=
  let es := l.reportEntries c
  let x := l.chan c
  ownHop 0xFFFFFFFF l.nodeId seq 0 0 0 ++ [1, BitVec.ofNat 8 (x.row 3), BitVec.ofNat 8 es.length, BitVec.ofNat 8 x.rateK, 0, 0, 0, 0]
    ++ (l.profileOf c t).map (BitVec.ofNat 8) ++ es.flatMap (LinkEntry.reportBytes l)

/-- The stroke of a channel's next report, and its launch when it comes within 1 ms (R262). -/
def Line.reportStroke (l : Line) (c : Nat) : Option (W32 × Tick) :=
  let p := (l.chan c).refPort
  (l.strokeAt p (l.clock.tb + 1500000 - l.time.halfCatch)).bind fun n =>
    if n.toNat % l.reportPeriod ≠ (l.nodeId.toNat + c) % l.reportPeriod then none
    else (l.boundary p n).bind fun b => if l.soon (b + l.time.halfCatch) then some (n, b + l.time.halfCatch) else none

/-- A report fixed, or skipped and counted when a frame is scheduled over it, it would not end before the next catch (R262), or no SEQ is left. -/
def Line.planReport (c : Nat) (n : W32) (t : Tick) (l : Line) : Line :=
  let l := l.modChan c fun x => { x with reportAt := some n }
  let p := (l.chan c).refPort
  let len := 31 + 12 * (l.reportEntries c).length
  let lift := liftRule 0 len
  let e := t + frameTicks (l.chan c).rateK 0 0 lift len
  let next := (l.boundary p (n + 1)).getD t - l.time.halfCatch
  if meets (l.busySpans c false) t e || decide (next ≤ e) then l.countLink c 1
  else match l.takeSeq with
    | none => l.countLink c 1
    | some (seq, l) =>
      let o : OwnFrame := { chan := c, port := none, type := 0, mod := 0, rate := 0, lift := lift, bytes := l.reportBytes c seq t, launch := t }
      ({ l with links := { l.links with entries := l.links.entries.map fun (x : LinkEntry) => if x.chan = c then { x with since := 0 } else x } }).plan o

/-- LINK_REPORT_SEND: fixed from 1 ms before its launch on, launched at the end of the catch (R262). -/
def State.reportSend (c : Nat) (s : State) : State :=
  let l := s.line
  let x := l.chan c
  let able := outputsActive s.dev.mode && l.nodeId != 0 && x.row 32 == 1 && x.rxPort.isSome && !x.entries.isEmpty
  let s := match l.reportStroke c with
    | some (n, t) => if able && x.reportAt != some n then ({ s with line := l.planReport c n t }).refillSeq else s
    | none => s
  { s with line := s.line.sendOwn s.dev.mode 0 (· == c) }

/-- LINK_REPORT_SEND (R262). -/
def execLinkReportSend (dt : Nat) (channel : Nat) (s : State) : Out :=
  let s := s.advance dt
  .next (if channel < 256 then (s.reportSend channel).flush else s)

end Sys2Proof.Machine
end

