-- ==== Sys2Proof/Machine/HostCommands.lean ====
section
/-! DEFINITION. The commands that the host side completes alone (Tables 11.6, 11.12 to 11.14): identity and status, the release from
QUARANTINE, keys, CIPHER_RUN, the alarm settings and the routes. RUNG_SET and RESET stand with power. -/

namespace Sys2Proof.Machine

/-! ## Device -/

/-- Opcode 0x000 (Table 11.6). -/
def infoNop : CmdInfo := ⟨0x000, true, false, setAny⟩

/-- NOP: the parameter words, echoed, less an expected epoch; more than 64 are a host error (R317). -/
def State.nop (cmd : Cmd) (s : State) : Answer :=
  let ws := if cmd.expect then cmd.params.dropLast else cmd.params
  if ws.length > 64 then s.hostError 64 else ⟨.ok, ws, s⟩

/-- NOP (R317). -/
def execNop (dt : Nat) (cmd : Cmd) (s : State) : Out := .next ((s.advance dt).runH infoNop cmd (State.modeRef cmd) (State.nop cmd))

/-- Opcode 0x001 (Table 11.6). -/
def infoIdentify : CmdInfo := ⟨0x001, true, false, setAny⟩

/-- A release as two words: major and minor, patch and build (Table 11.6). -/
def releaseWords (r : W32) : List W16 := [w (r.toNat / 65536), w r.toNat]

/-- IDENTIFY: part, stepping and grade, releases, serial number, node ID last set, port allowance (R317, R318). -/
def State.identify (s : State) : Answer :=
  ⟨.ok, [0x9625, w (0xB0 * 256 + b2n s.dev.gradeE)] ++ releaseWords (s.host.flash.usedRelease 0)
     ++ releaseWords (if s.linePresent then s.line.release else 0) ++ wordsOf 4 s.dev.serial.toNat ++ wordsOf 2 s.host.nodeIdSeen.toNat
     ++ [w s.dev.allowance], s⟩

/-- IDENTIFY (R317). -/
def execIdentify (dt : Nat) (cmd : Cmd) (s : State) : Out :=
  .next ((s.advance dt).runH infoIdentify cmd (State.modeRef cmd) State.identify)

/-- Opcode 0x002 (Table 11.6). -/
def infoDeviceStatus : CmdInfo := ⟨0x002, true, false, setAny⟩

/-- Word 16 of DEVICE_STATUS: mode, rung, LINE_PRESENT, BARRIER_UP, ALARM_LATCHED (Table 11.6). -/
def State.statusWord (s : State) : W16 :=
  w (modeCode s.dev.mode * 4096 + rungCode s.dev.rung * 512 + b2n s.linePresent * 256 + b2n s.link.host.up * 128
    + b2n (s.dev.alarmLatched != 0) * 64)

/-- DEVICE_STATUS (R317). -/
def State.deviceStatus (s : State) : Answer := ⟨.ok, [s.statusWord, s.dev.alarmActive], s⟩

/-- DEVICE_STATUS (R26, R317). -/
def execDeviceStatus (dt : Nat) (cmd : Cmd) (s : State) : Out :=
  .next ((s.advance dt).runH infoDeviceStatus cmd (State.modeRef cmd) State.deviceStatus)

/-- Opcode 0x005 (Table 11.6). -/
def infoQuarantineRelease : CmdInfo := ⟨0x005, true, false, setQuarantine⟩

/-- The sources that keep QUARANTINE: the enabled TAMPER inputs and the sources that have no enable (R462, Table 18.3). -/
def Dev.enabledSources (d : Dev) : W16 := w (0xF0 + d.tamperEnable.toNat)

/-- QUARANTINE_RELEASE: refused while an enabled source is active; else the latches of inactive sources clear, ALARM_CLEAR, and CONFIG or
SAFE follows (R462, Table 1.7). -/
def State.quarantineRelease (cmd : Cmd) (s : State) : Answer :=
  if s.dev.alarmActive &&& s.dev.enabledSources ≠ 0 then ⟨.quarantined, [], s⟩
  else
    let cleared := s.dev.alarmLatched &&& ~~~s.dev.alarmActive
    let s := { s with dev := { s.dev with alarmLatched := s.dev.alarmLatched &&& s.dev.alarmActive },
                      host := s.host.event 0x304 0x8600 1 false s.dev.modeEpoch 0 [cleared, cmd.tag] }
    let new : Mode := if s.linePresent then .config else .safe
    let now := s.host.follower
    let t := if s.link.line.up then (s.changeMode new 0x1C now now).flush else s.modeChange new 0x1C now now
    ⟨.ok, [w (modeCode new * 4096)], t⟩

/-- QUARANTINE_RELEASE (R462). -/
def execQuarantineRelease (dt : Nat) (cmd : Cmd) (s : State) : Out :=
  .next ((s.advance dt).runH infoQuarantineRelease cmd (State.modeRef cmd) (State.quarantineRelease cmd))

/-! ## Keys and ciphers -/

/-- Opcode 0x200 (Table 11.12). -/
def infoKeySlotStatus : CmdInfo := ⟨0x200, true, false, setAny⟩

/-- The nonce count that a slot has left: 2^64 less the counter, saturated at 48 bits; nothing once it is EXHAUSTED (R422). -/
def KeySlot.remaining (k : KeySlot) : Nat := if k.state = .exhausted then 0 else min (2 ^ 48 - 1) (2 ^ 64 - k.counter)

/-- The six words of a slot (Table 11.12). -/
def KeySlot.statusWords (k : KeySlot) : List W16 := [w (slotCode k.state), w k.len, k.epoch] ++ wordsOf 3 k.remaining

/-- KEY_SLOT_STATUS (R317, R422). -/
def State.keySlotStatus (cmd : Cmd) (s : State) : Answer :=
  let first := cmd.word 3
  let n := cmd.word 4
  if n = 0 ∨ first + n > 64 then s.hostError (6 * min n 64)
  else ⟨.ok, ((s.host.keys.drop first).take n).flatMap KeySlot.statusWords, s⟩

/-- KEY_SLOT_STATUS (R317). -/
def execKeySlotStatus (dt : Nat) (cmd : Cmd) (s : State) : Out :=
  .next ((s.advance dt).runH infoKeySlotStatus cmd (State.keyRef cmd (cmd.word 3)) (State.keySlotStatus cmd))

/-- Opcode 0x201 (Table 11.12). -/
def infoKeyErase : CmdInfo := ⟨0x201, true, false, setAny⟩

/-- KEY_ERASE: the named slots are erased (R420). -/
def State.keyErase (cmd : Cmd) (s : State) : Answer :=
  let r := s.erase false (bitOf (cmd.value 3 4))
  ⟨.ok, [w r.1], r.2⟩

/-- KEY_ERASE (R420). -/
def execKeyErase (dt : Nat) (cmd : Cmd) (s : State) : Out :=
  .next ((s.advance dt).runH infoKeyErase cmd (State.keyRef cmd (firstNamed cmd)) (State.keyErase cmd))

/-- Opcode 0x202 (Table 11.12). -/
def infoCipherRun : CmdInfo := ⟨0x202, false, false, setRun⟩

/-- The mode of CIPHER_RUN (Table 11.12); other codes are a host error. -/
def cmodeOf : Nat → Option CMode
  | 0 => some .ctr | 1 => some .ccm | 2 => some .gcm | _ => none

/-- The tag lengths of R411. -/
def tagLengths : CMode → List Nat
  | .ctr => [0]
  | .ccm => [4, 6, 8, 10, 12, 14, 16]
  | .gcm => [4, 8, 12, 13, 14, 15, 16]

/-- The operation of a CIPHER_RUN (R429). STREAM has no meaning for CTR or for encryption, and the nonce words are reserved for
encryption (R6). -/
def runOp (c : Cmd) (mode : CMode) (now : Tick) : CipherOp :=
  let word := c.word 4
  { origin := .run, tag := c.tag, mode := mode, decrypt := bitOf word 11, stream := bitOf word 10 && bitOf word 11 && mode != .ctr,
    slot := c.word 3, tagLen := bitsOf word 0 8, aadLen := c.word 11, src := c.value 5 2, dst := c.value 7 2, len := c.value 9 2,
    nonce := if bitOf word 11 then wordBytes ((c.params.drop 9).take 6) else [], accepted := now, launch := 0, frameEnd := 0, key := [], keyLen := 0, keyId := 0,
    slotEpoch := 0, keyChanged := false, erased := none, input := [], released := 0, written := 0, segs := [], final := none,
    zeroing := false }

/-- CIPHER_RUN: queued for an engine, or refused (R411, R429). -/
def State.cipherRun (cmd : Cmd) (s : State) : Answer :=
  match cmodeOf (bitsOf (cmd.word 4) 12 4) with
  | none => s.hostError 0
  | some mode =>
    let a := s.host.acceptedFor 0x202 cmd
    let o : CipherOp := { runOp cmd mode a.at_ with touched := !a.touched.isEmpty }
    if o.slot > 63 then s.hostError 0
    else if !(tagLengths mode).contains o.tagLen || (s.host.key o.slot).state != .loaded || (o.decrypt && decide (o.len < o.aadLen + o.tagLen)) then
      ⟨.noResource, [], s⟩
    else if o.len < o.aadLen then s.hostError 0
    else ⟨.accepted, [], { s with host := { s.host with cipherQ := s.host.cipherQ ++ [o] } }⟩

/-- CIPHER_RUN (R429). -/
def execCipherRun (dt : Nat) (cmd : Cmd) (s : State) : Out :=
  .next ((s.advance dt).runH infoCipherRun cmd (State.keyRef cmd (cmd.word 3)) (State.cipherRun cmd))

/-- Opcode 0x205 (Table 11.12). -/
def infoCipherStatus : CmdInfo := ⟨0x205, true, false, setAny⟩

/-- CIPHER_STATUS: the ten counters of every engine, CE00 first (Table 16.7). -/
def State.cipherStatus (cmd : Cmd) (s : State) : Answer :=
  ⟨.ok, counterWords (s.host.engines.flatMap (·.ctrs)),
   s.onHost fun h => { h with engines := h.engines.map fun (g : Engine) => { g with ctrs := clearAll cmd.clr g.ctrs } }⟩

/-- CIPHER_STATUS (R300, R317). -/
def execCipherStatus (dt : Nat) (cmd : Cmd) (s : State) : Out :=
  .next ((s.advance dt).runH infoCipherStatus cmd (State.modeRef cmd) (State.cipherStatus cmd))

/-! ## Alarms -/

/-- Opcode 0x203 (Table 11.12). -/
def infoAlarmConfigure : CmdInfo := ⟨0x203, false, false, setCfg⟩

/-- ALARM_CONFIGURE: TAMPER enables, polarities, debounce (R459). An input that is disabled is no active source any more. -/
def State.alarmConfigure (cmd : Cmd) (s : State) : Answer :=
  let d := s.dev
  let debounce := cmd.word 5
  if debounce = 0 ∨ debounce > 10000 then s.hostError 0
  else
    let enable := BitVec.ofNat 4 (cmd.word 3)
    let new := { d with tamperEnable := enable, tamperHigh := BitVec.ofNat 4 (cmd.word 4), debounce := debounce,
                        alarmActive := d.alarmActive &&& w (0xFFF0 + enable.toNat) }
    if new = d then ⟨.ok, [], s⟩ else ⟨.ok, [], { s with dev := new }.deviceConfig cmd.tag 0x203 0⟩

/-- ALARM_CONFIGURE (R459). -/
def execAlarmConfigure (dt : Nat) (cmd : Cmd) (s : State) : Out :=
  .next ((s.advance dt).runH infoAlarmConfigure cmd (State.modeRef cmd) (State.alarmConfigure cmd))

/-- Opcode 0x204 (Table 11.12). -/
def infoAlarmStatus : CmdInfo := ⟨0x204, true, false, setAny⟩

/-- ALARM_STATUS (R317). -/
def State.alarmStatus (s : State) : Answer :=
  ⟨.ok, [s.dev.alarmActive, s.dev.alarmLatched] ++ tickWords s.dev.alarmAt ++ [w s.dev.alarmLast], s⟩

/-- ALARM_STATUS (R317). -/
def execAlarmStatus (dt : Nat) (cmd : Cmd) (s : State) : Out :=
  .next ((s.advance dt).runH infoAlarmStatus cmd (State.modeRef cmd) State.alarmStatus)

/-! ## Serial ports -/

/-- The event of a change of destination, its epoch already raised (R342, Table 12.3). -/
def HostSide.routeEvent (queue old new : Nat) (epoch tag : W16) (h : HostSide) : HostSide :=
  h.event 0x1D2 0x8500 8 true epoch queue [w queue, w old, w new, tag]

/-- Opcode 0x240 (Table 11.13). -/
def infoSerialRoute : CmdInfo := ⟨0x240, false, false, setRun⟩

/-- SERIAL_ROUTE (R342, R374, R386). -/
def State.serialRoute (cmd : Cmd) (s : State) : Answer :=
  let n := cmd.word 3
  let v := cmd.word 4
  if n = 0 ∨ n > 7 ∨ v > 1 then s.hostError 0
  else if (s.host.sp n).route = decide (v = 1) then ⟨.ok, [], s⟩
  else
    let h := s.host.modSp n fun p => { p with route := decide (v = 1), queueEpoch := p.queueEpoch + 1 }
    ⟨.ok, [], { s with host := h.routeEvent (8 + n) (1 - v) v (h.sp n).queueEpoch cmd.tag }⟩

/-- SERIAL_ROUTE (R374). -/
def execSerialRoute (dt : Nat) (cmd : Cmd) (s : State) : Out :=
  .next ((s.advance dt).runH infoSerialRoute cmd (State.rxqRef cmd (cmd.word 3)) (State.serialRoute cmd))

/-- Opcode 0x241 (Table 11.13). -/
def infoSerialStatus : CmdInfo := ⟨0x241, true, false, setAny⟩

/-- SERIAL_STATUS: the receive queue epoch and the counters of Table 14.6. -/
def State.serialStatus (cmd : Cmd) (s : State) : Answer :=
  let n := cmd.word 3
  if n > 7 then s.hostError 31
  else
    let p := s.host.sp n
    ⟨.ok, counterWords (wrapCtr p.queueEpoch.toNat :: p.ctrs), s.onHost (HostSide.modSp n fun p => { p with ctrs := clearAll cmd.clr p.ctrs })⟩

/-- SERIAL_STATUS (R300, R317). -/
def execSerialStatus (dt : Nat) (cmd : Cmd) (s : State) : Out :=
  .next ((s.advance dt).runH infoSerialStatus cmd (State.rxqRef cmd (cmd.word 3)) (State.serialStatus cmd))

/-! ## Diagnostics and routes -/

/-- Opcode 0x300 (Table 11.14). -/
def infoDiagStatus : CmdInfo := ⟨0x300, true, false, setAny⟩

/-- The lowest margin of a die over the last 10 ms (R95); a free value where they hold no measurement. -/
def lowestMargin (free : Nat) (now : Tick) (xs : List (Tick × W16)) : W16 :=
  match (xs.filter fun x => decide (now - x.1 < 15000000)).map fun x => x.2.toNat with
  | [] => Config.freeWord free
  | m :: r => w (r.foldl min m)

/-- DIAG_STATUS: margins, temperatures, which are measured and so free values, and the transport counters (Table 11.14). -/
def State.diagStatus (cmd : Cmd) (s : State) : Answer :=
  let n := s.host.freeCtr
  let line := if s.linePresent then lowestMargin n s.line.clock.tb s.line.margins else 0
  ⟨.ok, [line, lowestMargin (n + 1) s.host.follower s.host.margins, Config.freeWord (n + 2), Config.freeWord (n + 3)] ++ counterWords s.host.transport,
   (s.spend 4).onHost fun h => { h with transport := clearAll cmd.clr h.transport }⟩

/-- DIAG_STATUS (R317). -/
def execDiagStatus (dt : Nat) (cmd : Cmd) (s : State) : Out :=
  .next ((s.advance dt).runH infoDiagStatus cmd (State.modeRef cmd) (State.diagStatus cmd))

/-- Opcode 0x301 (Table 11.14). -/
def infoBarrierStatus : CmdInfo := ⟨0x301, true, false, setAny⟩

/-- The lanes up in both directions, with the timing lane in bit 4 (Table 11.14). -/
def Link.laneBits (k : Link) : Nat :=
  (((List.zipWith (· && ·) k.host.lanes k.line.lanes) ++ [k.timingUp]).zipIdx.map fun p => b2n p.1 * 2 ^ p.2).sum

/-- The 10 µs periods without a valid HEARTBEAT that the host side has not counted yet (Table 18.5); none while the barrier is suspended. -/
def State.countMissed (s : State) : State :=
  let e := s.link.host
  let n := ((s.host.follower - e.lastValid - 1) / 15000).toNat
  if s.link.suspended || !s.host.running || n ≤ e.missedFrom then s
  else { s with link := { s.link with host := { e with missedFrom := n }, ctrs := countAt 3 32 (n - e.missedFrom) s.link.ctrs } }

/-- BARRIER_STATUS: state, lanes and the counters of Table 18.5. -/
def State.barrierStatus (cmd : Cmd) (s : State) : Answer :=
  let s := s.countMissed
  ⟨.ok, [w (b2n (!s.link.host.up)), w s.link.laneBits] ++ counterWords s.link.ctrs,
   { s with link := { s.link with ctrs := clearAll cmd.clr s.link.ctrs } }⟩

/-- BARRIER_STATUS (R300, R317). -/
def execBarrierStatus (dt : Nat) (cmd : Cmd) (s : State) : Out :=
  .next ((s.advance dt).runH infoBarrierStatus cmd (State.modeRef cmd) (State.barrierStatus cmd))

/-- Opcode 0x302 (Table 11.14). -/
def infoRouteSet : CmdInfo := ⟨0x302, true, false, setAny⟩

/-- The destination codes of ROUTE_SET (Table 11.14). -/
def destOf : Nat → Option Dest
  | 0 => some .pcie | 1 => some .udp | 2 => some .sp0 | _ => none

/-- The code of a destination (Table 12.3). -/
def destCode : Dest → Nat
  | .pcie => 0 | .udp => 1 | .sp0 => 2

/-- An answer of the Ethernet port. -/
def HostSide.ethAnswer (a : EthAnswer) (h : HostSide) : HostSide := { h with eth := { h.eth with answers := h.eth.answers ++ [a] } }

/-- An ARP request for the destination of a queue that is not resolved, once the device has an address (R355, Table 13.13). -/
def HostSide.arpAsk (h : HostSide) (n : Nat) : HostSide :=
  let q := h.queue n
  if q.dest == .udp && !h.eth.arp.contains q.destAddr && h.eth.ipv4 != 0 then h.ethAnswer (.arpRequest q.destAddr) else h

/-- The first ARP request for a new destination (R355). -/
def State.arpFirst (n : Nat) (s : State) : State := if s.etherOn then s.onHost fun h => h.arpAsk n else s

/-- ROUTE_SET (R319, R342): the new destination takes every record that the old one has not yet taken. A destination that is not resolved is asked for at once
(R355). -/
def State.routeSet (cmd : Cmd) (s : State) : Answer :=
  let n := cmd.word 3
  match destOf (cmd.word 4) with
  | none => s.hostError 0
  | some dest =>
    if n > 1 then s.hostError 0
    else if n = 1 ∧ dest = .sp0 then ⟨.noResource, [], s⟩
    else
      let q := s.host.queue n
      let addr := BitVec.ofNat 32 (cmd.value 5 2)
      let port := w (cmd.word 7)
      if q.dest = dest ∧ (dest ≠ .udp ∨ (q.destAddr = addr ∧ q.destPort = port)) then ⟨.ok, [], s⟩
      else
        let h := s.host.modQueue n fun q => { q with dest := dest, destAddr := addr, destPort := port, epoch := q.epoch + 1 }
        ⟨.ok, [], { s with host := (h.routeEvent n (destCode q.dest) (destCode dest) (q.epoch + 1) cmd.tag).deliver n }.arpFirst n⟩

/-- ROUTE_SET (R319). -/
def execRouteSet (dt : Nat) (cmd : Cmd) (s : State) : Out :=
  .next ((s.advance dt).runH infoRouteSet cmd (State.queueRef cmd (cmd.word 3)) (State.routeSet cmd))

end Sys2Proof.Machine
end

