-- ==== Sys2Proof/Machine/Transports.lean ====
section
/-! DEFINITION. The rows of the four command inputs (R297 to R309, R351): rings 0 and 1, UDP and SP0. A packet that passes its checks is accepted, and a
command row executes it later. -/

namespace Sys2Proof.Machine

/-! ## Rings -/

/-- A doorbell (R351): PROD is written and the packets up to it are read, unless a request of the ring ends in an error (R353). A device ring has none: its
PROD is read-only. -/
def State.doorbell (q : RingReq) (prod : W32) (s : State) : State :=
  if 2 ≤ q.ring then s
  else
    let s := s.onHost (HostSide.modRing q.ring fun g => { g with prod := prod })
    match q.error with
    | some bit => if s.mayRequest && (s.host.ring q.ring).enabled then s.onHost (HostSide.ringError q.ring bit) else s
    | none => s.readInputs

/-- COMMAND_RING_DOORBELL (R351). -/
def execCommandRingDoorbell (dt : Nat) (request : RingReq) (prod : W32) (s : State) : Out :=
  .next ((s.advance dt).bar0 (State.doorbell request prod))

/-! ## UDP and SP0 -/

/-- A datagram to UDP_PORT (R306, R356): taken while host firmware runs and ADDR is set. Its packets wait in the receive buffer for their command processor;
a datagram that finds the buffer full is discarded and counted, as is the part of one that fails. -/
def State.udpCommand (src : W32) (port : W16) (bytes : List Byte) (s : State) : State :=
  if !s.etherOn || s.host.eth.ipv4 == 0 then s
  else if 262144 < s.host.eth.used + bytes.length + 28 then s.onHost (HostSide.countTransport 0)
  else
    let r := parseDatagram bytes
    let s := if r.2 then s.onHost (HostSide.countTransport 0) else s
    (s.onHost fun h => { h with eth := { h.eth with waiting := h.eth.waiting ++ waitingOf (src, port) h.follower bytes.length r.1 } }).readInputs

/-- UDP_DATAGRAM_RECEIVE (R306). -/
def execUdpDatagramReceive (dt : Nat) (src : W32) (port : W16) (bytes : List Byte) (s : State) : Out :=
  .next ((s.advance dt).udpCommand src port bytes)

/-- CP0 takes the first whole frame out of its buffer (R307, R386): one that fails is discarded and counted; a command waits there while its reply queue has
no room (R336). -/
def State.sp0Frame (bytes : List Byte) (s : State) : State :=
  if !s.sp0On then s
  else match sp0First s.host.sp0Buf with
    | none => s
    | some (body, t, rest) =>
      let taken := s.onHost fun h => { h with sp0Buf := rest }
      if body ≠ bytes then s
      else match sp0Packet body with
        | none => taken.onHost (HostSide.countTransport 1)
        | some ws => if s.host.room .sp0 then taken.acceptOr (acceptanceOf .sp0 (0, 0) t ws) else s

/-- SP0_FRAME_RECEIVE (R307). -/
def execSp0FrameReceive (dt : Nat) (bytes : List Byte) (s : State) : Out := .next ((s.advance dt).sp0Frame bytes)

end Sys2Proof.Machine
end

