-- ==== Sys2Proof/Machine/Barrier.lean ====
section
/-! DEFINITION. The isolation barrier (R447 to R457): heartbeats, messages and lanes, the two declarations of BARRIER_DOWN, the return, and the
records that cross. -/

namespace Sys2Proof.Machine

/-! ## Ends -/

/-- Whether a die sends and hears on the barrier: powered, out of reset, and on the host side with its firmware running (R456)
and the test port at rest (R363). -/
def State.alive (die : Die) (s : State) : Bool :=
  match die with
  | .host => s.hostOn && s.host.running && !s.linksStopped
  | .line => s.dev.lineRails && !s.dev.lineReset

/-- The time base of a die. -/
def State.clockOf (die : Die) (s : State) : Tick := match die with | .host => s.host.follower | .line => s.line.clock.tb

/-- The end of a die. -/
def Link.endOf (die : Die) (k : Link) : BarrierEnd := match die with | .host => k.host | .line => k.line

/-- The end of a die changed. -/
def Link.modEnd (die : Die) (f : BarrierEnd → BarrierEnd) (k : Link) : Link :=
  match die with | .host => { k with host := f k.host } | .line => { k with line := f k.line }

/-- The end of a die changed. -/
def State.modEnd (die : Die) (f : BarrierEnd → BarrierEnd) (s : State) : State := { s with link := s.link.modEnd die f }

/-- The other die. -/
def otherDie : Die → Die
  | .host => .line | .line => .host

/-- Counter `i` of Table 18.5. -/
def State.countLink (i k : Nat) (s : State) : State :=
  { s with link := { s.link with ctrs := countAt i (if i = 4 ∨ i = 5 ∨ 7 ≤ i then 16 else 32) k s.link.ctrs } }

/-- The internal messages of log 84, which act on the line side as they arrive. -/
def Msg.internal : Msg → Bool
  | .frameGone .. => true
  | .retracted _ => true
  | _ => false

/-- The messages that an end keeps over a loss: the reset requests and alarms that it sends first at bring-up (R461, R472), and the internal ones. -/
def Msg.kept (m : Msg) : Bool :=
  match m with
  | .alarm => true
  | .lineReset _ => true
  | _ => m.internal

/-- An end that has declared BARRIER_DOWN. -/
def BarrierEnd.fall (e : BarrierEnd) : BarrierEnd :=
  { e with up := false, heard := 0, bootAtDown := e.bootHeard, flight := [], owed := e.owed ++ (e.flight.map (·.msg)).filter Msg.kept,
           inbox := e.inbox.filter Msg.kept }

/-- An end that has declared the barrier up: its sequence numbers start at 0 (R456). -/
def BarrierEnd.rise (e : BarrierEnd) : BarrierEnd := { e with up := true, seq := 0 }

/-! ## Resets of the line die -/

/-- The line die in reset (R471, Table 19.3): nothing of it is kept but its boot ID count and what its banks hold (R318, R407). The model's own
numbers of actions go on, so that a note names one action. -/
def State.lineOff (s : State) : State :=
  let l := s.line
  { s with line := { Line.reset with bootId := l.bootId, lastReset := l.lastReset,
                                     sched := { actions := [], nextId := l.sched.nextId, ctrs := List.replicate 6 Ctr.zero } },
           host := { s.host with nodeIdSeen := 0 },
           dev := { s.dev with lineAlarm := false }, link := { s.link with line := BarrierEnd.reset } }

/-- The release of line-side reset (R456, R474, R480, R484, R520): a new boot ID and a new timebase run; the rung is ROW. -/
def State.lineRelease (kind : Nat) (s : State) : State :=
  let own := kind = 1 ∨ kind = 5 ∨ kind = 9
  { s with line := { s.line with bootId := s.line.bootId + 1, lastReset := kind },
           host := { s.host with firstSync := true, inSync := false, adjusted := Ctr.zero },
           link := { s.link with suspended := false },
           dev := { s.dev with lineReset := false, rung := .row, owedDone := if own then s.dev.owedDone ++ [kind] else s.dev.owedDone } }

/-- A line-side reset that ends at once. -/
def State.lineResetNow (kind : Nat) (s : State) : State := s.lineOff.lineRelease kind

/-! ## Records that cross -/

/-- A record of device control that has crossed is stamped by the follower (R97). -/
def State.deviceStamp (p : Packet) (s : State) : Packet × HostSide :=
  if p.source = 0x8000 then s.host.restamp 0x8000 (s.hostTime (p.instant s.line.clock.tb)) p else (p, s.host)

/-- A line-side record enters the event queue. An outcome record, which names its action and frame, closes its note, or ends its frame in the transmit
frame queue; one whose note the host side has closed is discarded and counted (R94, R246, R455). The outcome of a command whose reply was lost has no
note, and is placed (R457). -/
def State.placeEvent (p : Packet) (outcome : Option (Nat × Nat)) (s : State) : State :=
  let put (s : State) : State :=
    let r := s.deviceStamp p
    { s with host := (r.2.place 0 r.1).deliver 0 }
  match outcome with
  | none => put s
  | some (a, i) =>
    match s.host.notes.find? fun n => n.action == a && n.index == i with
    | some n =>
      let s := s.onHost (HostSide.closeNote a i)
      if n.closed then s.onHost fun h => { h with discarded := h.discarded + 1 } else put s
    | none => match s.host.txq.find? fun f => f.action == a && f.index == i with
      | some f => put (s.onHost fun h => { h with txq := h.txq.erase f })
      | none => put s

/-- EVENT_MESSAGE_RECEIVE (R22). -/
def State.eventReceive (s : State) : State :=
  match takeInbox s.link.host with
  | some (.event p o, e) => { s with link := { s.link with host := e } }.placeEvent p o
  | _ => s

/-- EVENT_MESSAGE_RECEIVE (R22). -/
def execEventMessageReceive (dt : Nat) (s : State) : Out := .next (s.advance dt).eventReceive

/-- A REPLY_LINE becomes the command's reply, unless the command is answered already (R452, R457). The note of an accepted action is kept (R455), and
accepted frames enter the transmit frame queue (R337). -/
def State.placeReply (r : LineReply) (s : State) : State :=
  match s.host.accepted.find? fun a => a.crossed && a.cmd.via == r.via && a.cmd.tag == r.tag with
  | some a => s.onHost fun h => ({ h with notes := h.notes ++ r.note.toList }.takeFrames r.frames).sendReply a r.words
  | none => s

/-- REPLY_LINE_RECEIVE: a command less is outstanding, and the command processors read on (R309, R351, R457). -/
def State.replyReceive (s : State) : State :=
  match takeInbox s.link.host with
  | some (.replyLine r, e) =>
    ({ s with link := { s.link with host := e } }.placeReply r).readInputs
  | _ => s

/-- REPLY_LINE_RECEIVE (R457). -/
def execReplyLineReceive (dt : Nat) (s : State) : Out := .next (s.advance dt).replyReceive

/-- What has crossed whole before the host side declares BARRIER_DOWN is placed first; an ALARM stays for its own step. -/
def State.takeCrossed (m : Msg) (s : State) : State :=
  match m with
  | .frameUp u => s.frameUp u
  | .event p o => s.placeEvent p o
  | .replyLine r => s.placeReply r
  | .frameDown _ _ _ => s | .lineReset _ => s | .timeSync _ _ => s | .alarm => s | .cmdLine _ => s | .frameGone .. => s | .retracted _ => s

/-- Every message that the host side has received. -/
def State.drainInbox (s : State) : State := s.link.host.inbox.foldl (fun s m => s.takeCrossed m) s

/-! ## Mode -/

/-- The firmware update of MAINTAIN ends ABORTED when the mode leaves MAINTAIN otherwise (R34, R94). -/
def State.endUpdate (s : State) : State :=
  match s.line.fw with
  | none => s
  | some u => { s with line := { s.line with fw := none } }.actionDone u.action .aborted s.line.clock.tb

/-- What a change of mode other than by command does on the line side: pending frames end by their own rules (R32). -/
def State.lineMode (s : State) : State :=
  { s with line := (((s.line.abandonLocks.dropOwn s.dev.mode).retargetPorts s.dev.mode).pauseCox s.dev).quietPorts s.dev.mode }.endUpdate

/-- An automatic change into QUARANTINE, SAFE, BOOT or CONFIG (R32), by the host side. With the barrier down the line side takes no part: it has done
its own at its declaration (R453; log 84). -/
def State.autoMode (new : Mode) (cause : Nat) (t : Tick) (s : State) : State :=
  let s := s.modeChange new cause t t
  if s.link.host.up && s.link.line.up && new != .safe then s.lineMode else s

/-- The entry into SAFE (Table 1.7): QUARANTINE stays, and an alarm latched in BOOT turns it into QUARANTINE (R30). -/
def State.enterSafe (cause : Nat) (t : Tick) (s : State) : State :=
  let s := { s with dev := { s.dev with bootDeadline := none } }
  match s.dev.mode with
  | .quarantine => s
  | .safe => s
  | .boot => if s.dev.alarmLatched ≠ 0 then s.autoMode .quarantine 0x17 t else s.autoMode .safe cause t
  | _ => s.autoMode .safe cause t

/-- The line side is ready while the barrier is up: BOOT ends in CONFIG, or in QUARANTINE after an alarm (R30, R480). SAFE, entered because the line
side was not ready in time, ends in BOOT first (Table 1.7). -/
def State.lineIsReady (s : State) : State :=
  let s := { s with dev := { s.dev with bootDeadline := none } }
  let t := s.host.follower
  let s := if s.dev.mode = .safe then s.autoMode .boot s.line.lastReset t else s
  if s.dev.mode ≠ .boot then s
  else if s.dev.alarmLatched ≠ 0 then s.autoMode .quarantine 0x17 t else s.autoMode .config 0x1A t

/-! ## The host side declares BARRIER_DOWN -/

/-- Whether an operation encrypts a transmit frame. -/
def CipherOp.isTx (o : CipherOp) : Bool := match o.origin with | .tx _ _ => true | _ => false

/-- A transmit operation is stopped: its record carries CSTAT OK and the work done, which is free (R424, R452; log 5). -/
def State.stopOp (e : Nat) (o : CipherOp) (s : State) : State :=
  let n := (Config.freeLong s.host.freeCtr).toNat % (o.len + 1)
  let s := s.spend 1
  { s with host := s.host.cipherRecord e o o.slot o.slotEpoch { plainRec 0 0 with bytesIn := n, bytesOut := n } }

/-- The transmit operation of an engine is stopped. -/
def State.stopEngine (s : State) (e : Nat) : State :=
  match (s.host.engine e).active with
  | some o => if o.isTx then ((s.onHost (HostSide.contextDone e)).stopOp e o).resumed e else s
  | none => s

/-- Every transmit operation is stopped, also one that no engine has taken up (R452, item 6). -/
def State.stopTx (s : State) : State :=
  let s := (List.range 16).foldl State.stopEngine s
  let waiting := s.host.cipherQ.filter CipherOp.isTx
  waiting.foldl (fun s o => s.stopOp 0 { o with slotEpoch := (s.host.key o.slot).epoch }) (s.onHost fun h => { h with cipherQ := h.cipherQ.filter fun o => !o.isTx })

/-- Whether the final record of a frame has crossed and waits for its engine or its turn. -/
def HostSide.hasFinal (c : CutFrame) (h : HostSide) : Bool :=
  let is (o : CipherOp) : Bool := o.origin == .rx c.chan c.rxId && o.final.isSome
  (h.engines.any fun g => (g.active.any is) || g.suspended.any is) || h.cipherQ.any is
    || h.rxOrder.any fun x => match x with | .ready u => u.chan == c.chan && u.rxId == c.rxId && u.kind != 3 | .pending _ _ => false

/-- The payload length of a secured frame, as its operation knows it. -/
def HostSide.frameLenOf (c : CutFrame) (h : HostSide) : Nat :=
  let ops := h.engines.flatMap (fun g => g.active.toList ++ g.suspended.toList) ++ h.cipherQ
  ((ops.find? fun o => o.origin == .rx c.chan c.rxId).map (·.len)).getD 0

/-- The retract record with status BARRIER of a frame of which segments have crossed and no final record has (R220). -/
def State.retractCut (t : Tick) (s : State) (c : CutFrame) : State :=
  let h := s.host
  if h.hasFinal c then s
  else if c.segments = 0 && (!c.sec || c.drop) then s.onHost (HostSide.dropCut c.chan c.rxId)
  else
    let r := h.stamp 0x8400 t
    let u : FrameUp :=
      { kind := 4, head := retractWords 3 0x8400 r.1 r.2.1 c, body := [], chan := c.chan, rxId := c.rxId, sec := c.sec, cut := true, status := 3,
        ofs := c.bytes, frameLen := h.frameLenOf c }
    { s with host := r.2.2 }.frameUp u

/-- A command that the loss leaves without its reply is answered BARRIER (R452, items 2 and 3). -/
def State.answerBarrier (s : State) (a : Accepted) : State :=
  if a.crossed || opcodeTable.lookup a.opcode == some true then s.answerH (infoOf a.opcode) a (s.unitRef a.opcode a.cmd) .barrier [] else s

/-- What the host side does once the line side is out of reach (R220, R452): commands without their reply are answered BARRIER, frames cut off are
retracted, and frames that wait are dropped. -/
def State.hostCut (t : Tick) (s : State) : State :=
  let s := s.modEnd .host BarrierEnd.fall
  let s := { s with host := { s.host with inSync := false, followerAhead := 0, followerBehind := 0, syncStep := none,
                                          downAt := some (s.host.downAt.getD t) } }
  let s := s.host.accepted.foldl State.answerBarrier s
  let s := s.host.cuts.foldl (State.retractCut t) s
  s.host.txq.foldl (fun s f => s.dropFrame f .barrier 0x0F) s.stopTx

/-- The host side declares BARRIER_DOWN (R452). -/
def State.hostDown (cause : Nat) (s : State) : State :=
  if !s.link.host.up then s
  else
    let s := s.drainInbox
    let t := s.host.follower
    let boot := s.link.host.bootHeard
    let s := s.enterSafe 0x18 t
    let s := s.onHost fun h => (h.eventAt t 0x300 0x8400 1 false s.dev.modeEpoch 0 [w cause, boot]).raise 30
    ((s.countLink 4 1).hostCut t).readInputs

/-! ## The line side declares BARRIER_DOWN -/

/-- LPnn_DRVEN falls once the ending on the port is over, at once where there is none (R453). -/
def Line.dropDrv (l : Line) : Line :=
  let now := l.clock.tb
  { l with ports := l.ports.zipIdx.map fun (q : Port × Nat) =>
      if l.fading q.2 then { q.1 with holders := [], fallAt := some (now + 750) } else q.1.cutDrv }

/-- A pending action at the loss (R243, R453): staged frames end with their records; those that have not arrived end too, and the host side records
them, as frames that wait there or by their notes. Any other action ends ABORTED. -/
def State.loseAction (s : State) (a : Action) : State :=
  match a.kind with
  | .frames _ =>
    let now := s.line.clock.tb
    let one (l : Line) (i : Nat) : Line :=
      match a.frames[i]? with
      | none => l
      | some f =>
        if f.launched || f.ended then l
        else if f.payload.isSome then l.dropFrame a i .barrier 0x0F now
        else { l with sched := { l.sched.endFrame a.id i with lost := l.sched.lost ++ [(a.id, i)] } }.settleSet f.desc.chan now
    { s with line := (List.range a.frames.length).foldl one s.line }
  | _ => s.actionDone a .aborted s.line.clock.tb

/-- Segments of a frame crossed before the barrier went down: it sends nothing more (R220). -/
def RxFrame.seal (f : RxFrame) : RxFrame := { f with closed := f.closed || decide (f.segs > 0) }

/-- Receive contexts are abandoned without a record, uncommitted ones counted (R207, R453). A committed frame is cut off there, and a frame past its
context sends nothing more of its segments (R220). -/
def Chan.loseContexts (t : Tick) (x : Chan) : Chan :=
  let one (f : RxFrame) : RxFrame := if x.committed.contains f.rxId then { f.truncate t with closed := true } else f.seal
  { x.abandon t with frames := x.frames.map one, ended := [] }.freeBoth t

/-- Every receive context is abandoned; the codewords of the committed frames go to the decoder array, for only a reset discards them (R194). -/
def Line.loseContexts (l : Line) : Line :=
  let open_ := l.chans.zipIdx.flatMap fun (x : Chan × Nat) => x.1.committed.map fun r => (x.2, r)
  let l := { l.keepAllHeaders with chans := l.chans.map (Chan.loseContexts l.clock.tb) }
  let l := l.modRelay fun r => { r with inbox := r.inbox.map fun (g : GoodFrame) => { g with frame := g.frame.seal } }
  open_.foldl (fun l x => l.queueFrame x.1 x.2) l

/-- The line side declares BARRIER_DOWN (R453, R454). ISLAND, an update and the part of a cox end with it, as at the entry into SAFE. -/
def State.lineDown (s : State) : State :=
  if !s.link.line.up then s
  else
    let now := s.line.clock.tb
    let sent := s.link.line.flight.map (·.msg)
    let s := s.modEnd .line BarrierEnd.fall
    let l := (sent.foldl (fun l m => l.holdMsg m) s.line).dropDrv.endAll now 0x0F
    let s := { s with line := l }
    let s := s.line.sched.actions.foldl State.loseAction s
    let s := s.endUpdate
    let l := (s.line.dropCopies (fun _ => true) 0x0E).dropPlanned fun _ => false
    let l := ((l.retargetPorts .safe).modTime fun x => { x with isCox := false }).loseContexts
    { s with line := { l with down := true, clock := { l.clock with ref10m := false } } }.flush

/-- A die declares BARRIER_DOWN. -/
def State.declareDown (die : Die) (cause : Nat) (s : State) : State := match die with | .host => s.hostDown cause | .line => s.lineDown

/-! ## Closing of notes -/

/-- A note still open is closed with a record of the host side (R455); the line side counts that of a frame (Table 8.5; log 84). -/
def State.closeOne (t : Tick) (s : State) (n : Note) : State :=
  let epoch := s.epochOf n.kind n.unit
  if n.frame then
    (s.onHost fun h => h.completion t n.via epoch n.unit n.tag n.index n.seq (dropped .barrier 0x0F n.slipped n.planned n.level)).tellLine
      (.frameGone n.action n.index n.unit 0x0F)
  else
    s.onHost fun h => h.eventAt t 0x020 (0x8010 + cpOf n.via) n.kind false epoch n.unit
      ([n.tag, w n.cls, w (statusCode .barrier), w n.slipped] ++ tickWords n.planned ++ tickWords t)

/-- Every note still open is closed, and kept so that a record that crosses later is discarded. -/
def State.closeNotes (t : Tick) (s : State) : State :=
  (s.host.notes.filter fun n => !n.closed).foldl (State.closeOne t)
    { s with host := { s.host with notes := s.host.notes.map fun n => { n with closed := true } } }

/-- BARRIER_NOTE_CLOSE: 1 s after the declaration of the host side (R455). -/
def State.noteClose (s : State) : State :=
  match s.host.downAt with
  | some t => if s.host.follower - t ≥ 1500000000 then s.closeNotes t else s
  | none => s

/-- BARRIER_NOTE_CLOSE (R455). -/
def execBarrierNoteClose (dt : Nat) (s : State) : Out := .next (s.advance dt).noteClose

/-! ## Alarms -/

/-- ALARM for the line side: sent, or owed until the barrier returns (R460, R461). -/
def State.sendAlarm (die : Die) (s : State) : State :=
  s.modEnd die fun e => if e.up then e.send (s.clockOf die) .alarm else { e with owed := e.owed ++ [.alarm] }

/-- The entry into QUARANTINE (R30, R460): in BOOT the alarm is latched only. -/
def State.enterQuarantine (t : Tick) (s : State) : State :=
  if s.dev.mode = .boot ∨ s.dev.mode = .quarantine then s else s.autoMode .quarantine 0x17 t

/-- A source becomes active (R460, R463): latched with its instant, every slot erased, QUARANTINE, ALARM to the line side, ALARM_RAISED. A source that is
active already raises nothing. -/
def State.raiseAlarm (source : Nat) (s : State) : State :=
  let bit : W16 := 1 <<< source
  if s.dev.alarmActive &&& bit ≠ 0 then s
  else
    let t := s.host.follower
    let s := { s with dev := { s.dev with alarmActive := s.dev.alarmActive ||| bit, alarmLatched := s.dev.alarmLatched ||| bit, alarmAt := t,
                                          alarmLast := source } }
    let s := s.countLink (7 + source) 1
    let r := s.erase true fun _ => true
    let s := r.2.enterQuarantine t
    let s := s.host.txq.foldl (fun s f => s.dropFrame f .aborted 0x0E) s
    let s := s.sendAlarm .host
    (s.onHost fun h => (h.eventAt t 0x303 0x8600 1 false s.dev.modeEpoch 0 [w source, s.dev.alarmActive, w r.1]).raise 31).flush

/-! ## The return -/

/-- The mode after the return (Table 1.7, R30, R457): SAFE ends in CONFIG, or in BOOT when the line die was reset; BOOT goes on
until the line side is ready. -/
def State.modeAtReturn (changed : Bool) (s : State) : State :=
  let t := s.host.follower
  match s.dev.mode with
  | .safe =>
    if !changed then s.autoMode .config 0x19 t
    else
      let s := s.autoMode .boot s.line.lastReset t
      let s := { s with dev := { s.dev with bootDeadline := some (t + 750000000) } }
      if s.line.ready then s.lineIsReady else s
  | .boot => if s.line.ready then s.lineIsReady else s
  | _ => if s.line.ready then { s with dev := { s.dev with bootDeadline := none } } else s

/-- RESET_DONE for the resets whose event is still owed (R489, Table 19.9). -/
def State.resetDone (which : Nat → Bool) (s : State) : State :=
  let one (s : State) (code : Nat) : State :=
    s.onHost fun h => h.event 0x005 0x8000 1 false s.dev.modeEpoch 0 [w code, s.host.bootId, s.link.host.bootHeard]
  (s.dev.owedDone.filter which).foldl one { s with dev := { s.dev with owedDone := s.dev.owedDone.filter fun c => !which c } }

/-- The messages of the barrier hold cross in their order (R454). -/
def State.crossHold (s : State) : State :=
  s.line.hold.foldl (fun s m => s.takeCrossed m) { s with line := { s.line with hold := [] } }

/-- BARRIER_UP with the boot IDs and the counts of Table 18.4. -/
def State.barrierUp (s : State) : State :=
  let l := s.line
  let fields := [l.bootId, s.host.bootId] ++ wordsOf 2 l.holdDiscarded ++ wordsOf 2 l.holdLost ++ wordsOf 2 s.host.discarded
  let s := s.onHost fun h => { h.event 0x301 0x8400 1 false s.dev.modeEpoch 0 fields with discarded := 0 }
  { s with line := { s.line with holdLost := 0, holdDiscarded := 0 } }.countLink 6 l.holdLost

/-- What an end owed is sent. -/
def BarrierEnd.sendOwed (t : Tick) (e : BarrierEnd) : BarrierEnd := e.owed.foldl (fun e m => e.send t m) { e with owed := [] }

/-- A line side that was reset has nothing of the frames and actions that it held: their notes are done with, and it counts none of them. -/
def State.forget (s : State) : State :=
  let h := s.link.host
  { s with host := { s.host with notes := [] },
           link := { s.link with host := { h with owed := h.owed.filter fun m => !m.internal,
                                                  flight := h.flight.filter fun m => !m.msg.internal } } }

/-- Both sides are up (R457, R461, R472): a reset request that waited goes first; then the block of SEQ values, the first TIME_SYNC, alarms, the
hold, the notes, BARRIER_UP, the mode, the check of region 1 and RESET_DONE. -/
def State.returned (s : State) : State :=
  match s.link.host.owed.findSome? fun m => match m with | .lineReset c => some c | _ => none with
  | some code =>
    (s.modEnd .host fun e => { e with owed := e.owed.filter fun m => match m with | .lineReset _ => false | _ => true }).lineResetNow code
  | none =>
    let e := s.link.host
    let changed := e.bootHeard != e.bootAtDown
    let t := s.host.downAt
    let s := { s with line := { s.line with seqs := [] } }.grantSeq
    let err : Int := (((Config.freeError s.host.freeCtr).toNat % 5 : Nat) : Int) - 2
    let s := (s.spend 1).follow (s.line.clock.tb + err) none
    let s := if s.link.line.owed.contains .alarm then (s.modEnd .line fun e => { e with owed := [] }).raiseAlarm 6 else s
    let s := s.modEnd .host (BarrierEnd.sendOwed s.host.follower)
    let s := s.crossHold
    let s := match t with | some d => s.closeNotes d | none => s
    let s := if changed then s.forget else s
    let s := if e.firstUp then s else s.barrierUp
    let s := { s with host := { s.host with downAt := none } }
    let s := s.modeAtReturn changed
    let s := if s.line.running then s else s.checkRegion 1
    let s := s.resetDone fun _ => true
    (s.modEnd .host fun e => { e with firstUp := false }).modEnd .line fun e => { e with firstUp := false }

/-- The hold of a line side that hears a host side reset since (R457, item 5). -/
def Line.discardHold (l : Line) : Line := { l with hold := [], holdDiscarded := l.holdDiscarded + l.hold.length }

/-- A die declares the barrier up (R456). -/
def State.declareUp (die : Die) (s : State) : State :=
  let e := s.link.endOf die
  let s := s.modEnd die BarrierEnd.rise
  let s := match die with
    | .host => s.onHost (HostSide.raise 30)
    | .line =>
      let l := if e.bootHeard ≠ e.bootAtDown ∧ e.firstUp = false then s.line.discardHold else s.line
      { s with line := { l with down := false } }
  if s.link.host.up && s.link.line.up then s.returned else s

/-! ## Heartbeats -/

/-- HEARTBEAT_SEND: a HEARTBEAT is on its way (R456). -/
def execHeartbeatSend (dt : Nat) (die : Die) (s : State) : Out :=
  .next (let s := s.advance dt
    if s.alive die && !s.link.suspended then s.modEnd die fun e => { e with beat := true } else s)

/-- The boot ID that a die's HEARTBEAT carries. -/
def State.bootOf (die : Die) (s : State) : W16 := match die with | .host => s.host.bootId | .line => s.line.bootId

/-- A valid HEARTBEAT of the other die (R456). One with another boot ID ends the link that was up. -/
def State.heard (die : Die) (s : State) : State :=
  let s := if die = .host then s.countMissed else s
  let boot := s.bootOf (otherDie die)
  let e := s.link.endOf die
  let s := if e.up && e.bootHeard != boot then s.declareDown die 0 else s
  let now := s.clockOf die
  let s := s.modEnd die fun e => { e with heard := min 16 (e.heard + 1), lastValid := now, missedFrom := 0, bootHeard := boot }
  let e := s.link.endOf die
  let o := s.link.endOf (otherDie die)
  if !e.up && decide (16 ≤ e.heard) && (o.up || decide (16 ≤ o.heard)) then s.declareUp die else s

/-- HEARTBEAT_RECEIVE (R456): a HEARTBEAT under way, on a lane that is up; one whose check fails is counted and breaks the run. -/
def State.heartbeatReceive (die : Die) (valid : Bool) (s : State) : State :=
  if !(s.alive die && (s.link.endOf (otherDie die)).beat && (s.link.endOf die).lanes.any id) || s.link.suspended then s
  else
    let s := s.modEnd (otherDie die) fun e => { e with beat := false }
    if valid then s.heard die
    else (s.modEnd die fun e => { e with heard := 0 }).countLink (match die with | .line => 0 | .host => 1) 1

/-- HEARTBEAT_RECEIVE (R456). -/
def execHeartbeatReceive (dt : Nat) (die : Die) (valid : Bool) (s : State) : Out := .next ((s.advance dt).heartbeatReceive die valid).flush

/-- HEARTBEAT_TIMEOUT: 30 µs of silence (R451). -/
def execHeartbeatTimeout (dt : Nat) (die : Die) (s : State) : Out :=
  .next (let s := s.advance dt
    if s.link.suspended || decide (s.clockOf die - (s.link.endOf die).lastValid < 45000) then s
    else ((if die = .host then s.countMissed else s).declareDown die 0).flush)

/-! ## Messages and lanes -/

/-- RETRY_TIMEOUT: 2 µs without an acknowledgement the message is repeated, and after its seventh retry BARRIER_DOWN follows (R448). -/
def State.retry (die : Die) (seq : W16) (s : State) : State :=
  let e := s.link.endOf die
  let i := (seq - e.seq).toNat
  match e.flight[i]? with
  | none => s
  | some m =>
    if m.received || !e.up || s.link.suspended || decide (s.clockOf die - m.sent < 3000) then s
    else if m.retries ≥ 7 then s.declareDown die 1
    else (s.modEnd die fun e => { e with flight := e.flight.modify i fun m => { m with sent := s.clockOf die, retries := m.retries + 1 } }).countLink 2 1

/-- RETRY_TIMEOUT (R448). -/
def execRetryTimeout (dt : Nat) (die : Die) (seq : W16) (s : State) : Out := .next ((s.advance dt).retry die seq).flush

/-- LANE_STATE (Table 18.4), by the host side while its firmware runs. -/
def State.laneState (dir lane up : Nat) (s : State) : State :=
  let s := if up = 0 then s.countLink 5 1 else s
  if s.host.running then s.onHost fun h => h.event 0x302 0x8400 1 false s.dev.modeEpoch 0 [w dir, w lane, w up] else s

/-- The direction code of the lanes that a die receives on (Table 18.4). -/
def laneDir : Die → Nat
  | .line => 0 | .host => 1

/-- A message whose check failed on a lane: counted, and the sixteenth in a row takes the lane down (R448, R449, R451). -/
def State.laneFailure (die : Die) (lane : Nat) (s : State) : State :=
  let s := s.countLink (laneDir die) 1
  let n := nth (s.link.endOf die).fails lane 0 + 1
  if n < 16 then s.modEnd die fun e => { e with fails := e.fails.set lane n }
  else
    let s := (s.modEnd die fun e => { e with fails := e.fails.set lane 0, lanes := e.lanes.set lane false }).laneState (laneDir die) lane 0
    if (s.link.endOf die).lanes.any id then s else (s.declareDown .host 2).declareDown .line 2

/-- The messages received in sequence, and those that still wait. -/
def inSequence : List InFlight → List Msg × List InFlight
  | [] => ([], [])
  | m :: t => if m.received then let r := inSequence t; (m.msg :: r.1, r.2) else ([], m :: t)

/-- A frame that the host side has dropped or closed ends, and counts as that record says (Table 8.5); not one that has ended on the line side, which has
counted it. -/
def Line.frameGone (a i c cause : Nat) (l : Line) : Line :=
  let waits := ((l.action? a).bind fun x => x.frames[i]?).any fun f => !f.launched && !f.ended
  if waits || l.sched.lost.contains (a, i) then
    ({ l with sched := { l.sched.endFrame a i with lost := l.sched.lost.erase (a, i) } }.settleSet c l.clock.tb).countTx c (statusCounter (causeStatus cause)) 1
  else l

/-- An internal message at the line side (log 84): a frame that the host side has dropped ends, a retract record that the host side has placed counts
(Table 7.11). -/
def State.actInternal (m : Msg) (s : State) : State :=
  match m with
  | .frameGone a i c cause => s.onLine (Line.frameGone a i c cause)
  | .retracted c => s.onLine fun l => l.modChan c fun x => x.countRx 16 1
  | .cmdLine _ => s | .frameDown .. => s | .frameUp _ => s | .lineReset _ => s | .replyLine _ => s | .event .. => s | .timeSync .. => s | .alarm => s

/-- A valid message: acknowledged, and delivered once every earlier one is (R447). A reset request acts on receipt (R472). -/
def State.arrive (die : Die) (seq : W16) (s : State) : State :=
  let o := s.link.endOf (otherDie die)
  let i := (seq - o.seq).toNat
  let r := inSequence (o.flight.modify i fun m => { m with received := true })
  let n := o.flight.length - r.2.length
  let s := s.modEnd (otherDie die) fun e => { e with flight := r.2, seq := e.seq + BitVec.ofNat 16 n }
  match die, r.1.findSome? fun m => match m with | .lineReset c => some c | _ => none with
  | .line, some code => s.lineResetNow code
  | _, _ => (r.1.filter Msg.internal).foldl (fun s m => s.actInternal m) (s.modEnd die fun e => { e with inbox := e.inbox ++ r.1.filter fun m => !m.internal })

/-- BARRIER_MESSAGE_RECEIVE (R447 to R449). -/
def State.messageReceive (die : Die) (lane : Nat) (seq : W16) (crcOk : Bool) (s : State) : State :=
  let e := s.link.endOf die
  if !s.alive die || s.link.suspended || !nth e.lanes lane false then s
  else if !crcOk then s.laneFailure die lane
  else
    let s := s.modEnd die fun e => { e with fails := e.fails.set lane 0 }
    if e.up && (s.link.endOf (otherDie die)).up then s.arrive die seq else s

/-- BARRIER_MESSAGE_RECEIVE (R447). -/
def execBarrierMessageReceive (dt : Nat) (die : Die) (lane : Nat) (seq : W16) (crcOk : Bool) (s : State) : Out :=
  .next ((s.advance dt).messageReceive die lane seq crcOk).flush

/-- LANE_RETRAIN: a lane that is down returns after 16 good messages (R449). -/
def execLaneRetrain (dt : Nat) (die : Die) (lane good : Nat) (s : State) : Out :=
  .next (let s := s.advance dt
    if nth (s.link.endOf die).lanes lane true || good < 16 || !s.alive die then s
    else (s.modEnd die fun e => { e with lanes := e.lanes.set lane true, fails := e.fails.set lane 0 }).laneState (laneDir die) lane 1)

/-- TIMING_LANE_FAIL (R450): no pulse and no 10 MHz reference reach the line side any more. -/
def execTimingLaneFail (dt : Nat) (s : State) : Out :=
  .next (let s := s.advance dt
    if !s.link.timingUp then s
    else { s with link := { s.link with timingUp := false },
                  line := { s.line with clock := { s.line.clock with ref10m := false } } }.laneState 0 4 0)

/-- TIMING_LANE_MEASURE (R360): the loopback succeeds, so a timing lane that had failed is up again (log 61). -/
def execTimingLaneMeasure (dt : Nat) (delay : Nat) (s : State) : Out :=
  .next (let s := s.advance dt
    if !(s.link.host.up && s.link.line.up) then s
    else
      let s := if s.link.timingUp then s else { s with link := { s.link with timingUp := true } }.laneState 0 4 1
      { s with line := s.line.modTime fun x => { x with laneDelay := delay } })

end Sys2Proof.Machine
end

