-- ==== Sys2Proof/Machine/CheckUnits.lean ====
section
/-! DEFINITION. The check units CU0 to CU7 (R437 to R446). -/

namespace Sys2Proof.Machine

/-- Check unit `u`. -/
def HostSide.cu (h : HostSide) (u : Nat) : CheckUnit := nth h.cus u CheckUnit.reset

/-- Check unit `u` changed. -/
def HostSide.modCu (u : Nat) (f : CheckUnit → CheckUnit) (h : HostSide) : HostSide := { h with cus := h.cus.modify u f }

/-- The check that POLY selects (Table 17.1): its value over bytes and its width. -/
def checkOf (poly : Nat) (bs : List Byte) : Nat × Nat :=
  match poly with
  | 0 => (crc16 bs, 16)
  | 1 => (crc24 bs, 24)
  | 2 => (crc32 bs, 32)
  | _ => (crc32c bs, 32)

/-- The fold bytes A ‖ S of a run (R438). -/
def foldBytes (r : CuRun) : List Byte :=
  let a := min 4 (bitsOf r.fold.toNat 4 3)
  let q := min 2 (bitsOf r.fold.toNat 0 2)
  (beBytes 4 r.addr.toNat).drop (4 - a) ++ (beBytes 2 (bitsOf r.fold.toNat 16 16)).drop (2 - q)

/-- A write of 1 to GO (R439): an idle unit latches its settings and clears its status bits. GO with ABORT acts on ABORT alone. -/
def CheckUnit.go (v : W32) (c : CheckUnit) : CheckUnit :=
  let c := { c with ctrl := v &&& 0x3FFFFFFF }
  if v.getLsbD 30 then
    if c.run.isSome then { c with run := none, status := c.status ||| 16 } else c
  else if !v.getLsbD 31 || c.run.isSome then c
  else { c with status := 0, run := some { ctrl := c.ctrl, src := bitsOf c.src.toNat 0 23, len := bitsOf c.len.toNat 0 24,
                                           addr := c.addr, fold := c.fold, expect := c.expect } }

/-- CU_GO (R439). -/
def execCuGo (dt : Nat) (unit : Nat) (value : W32) (s : State) : Out :=
  .next ((s.advance dt).bar0H (HostSide.modCu unit (CheckUnit.go value)))

/-- CU_ABORT: a running check stops after the row in progress (R442). -/
def execCuAbort (dt : Nat) (unit : Nat) (s : State) : Out :=
  .next ((s.advance dt).bar0H (HostSide.modCu unit fun c =>
    if c.run.isSome then { c with run := none, status := c.status ||| 16 } else c))

/-- A cause bit of H_CUu_STATUS with its enable (R446). -/
def HostSide.cuRaise (on : Bool) (h : HostSide) : HostSide := h.raiseIf on 15

/-- Whether a run has a reserved value in FOLD, a host error that leaves its result unpredictable (R6, R496, Table 17.8). -/
def CuRun.reserved (r : CuRun) : Bool := decide (4 < bitsOf r.fold.toNat 4 3) || decide (2 < bitsOf r.fold.toNat 0 2)

/-- The completion of a run (R440, R441, R445), once no handover of a bank that it reads is pending (R394). -/
def State.cuDone (u : Nat) (s : State) : State :=
  match (s.host.cu u).run with
  | none => s
  | some r =>
    if s.blocked (0x40 + u) r.src r.len false then s
    else
      let d := s.readHb (0x40 + u) r.src r.len
      let s := d.2.2
      let poly := bitsOf r.ctrl.toNat 0 2
      let c := checkOf poly (foldBytes r ++ d.1)
      let v := if r.reserved then ((Config.freeLong s.host.freeCtr).toNat % 2 ^ c.2, c.2) else c
      let s := if r.reserved then s.spend 1 else s
      let cmp := r.ctrl.getLsbD 12
      let same := decide (v.1 = r.expect.toNat % 2 ^ v.2)
      let fault := !d.2.1
      let st : BitVec 5 := BitVec.ofNat 5 (1 + b2n (cmp && !same) * 2 + b2n (cmp && same) * 4 + b2n fault * 8)
      let h := s.host.modCu u fun c =>
        { c with run := none, result := BitVec.ofNat 32 v.1, status := c.status ||| st,
                 misCount := satAdd 15 (b2n (cmp && !same)) c.misCount }
      let c := h.cu u
      let h := h.cuRaise (c.ctrl.getLsbD 14 || (cmp && !same && c.ctrl.getLsbD 13))
      let fields := [w u, w poly] ++ wordsOf 2 v.1 ++ wordsOf 2 r.expect.toNat ++ wordsOf 2 r.src ++ wordsOf 2 r.len ++ [w (b2n fault)]
      { s with host := if cmp && !same && r.ctrl.getLsbD 15 then h.event 0x210 (0x8200 + u) 1 false s.dev.modeEpoch 0 fields else h }

/-- CU_RUN_DONE (R441). -/
def execCuRunDone (dt : Nat) (unit : Nat) (s : State) : Out := .next ((s.advance dt).cuDone unit)

/-- H_CUu_STATUS as a read returns it (Table 17.11). -/
def CheckUnit.statusWord (c : CheckUnit) : W32 :=
  BitVec.ofNat 32 (c.status.toNat + b2n c.run.isSome * 32 + c.misCount.val * 65536 + b2n c.misCount.ovf * 2 ^ 31)

/-- CU_STATUS_READ: MISCOUNT and OVF clear as part of the read (R15, R446). -/
def execCuStatusRead (dt : Nat) (unit : Nat) (s : State) : Out :=
  .next ((s.advance dt).bar0H fun h =>
    (h.modCu unit fun c => { c with misCount := Ctr.zero }).returned (h.cu unit).statusWord)

end Sys2Proof.Machine
end

