-- ==== Sys2Proof/Machine/Power.lean ====
section
/-! DEFINITION. Alarms (R458 to R462), supplies, resets (R466 to R474) and boot (R475 to R482). The power ladder stands in Rungs. -/

namespace Sys2Proof.Machine

/-! ## Alarms -/

/-- Whether a source may become active now (Table 18.3): a TAMPER input that is enabled, KEY_PROBE with 64 writes within 1 ms to one slot. -/
def State.sourceFires (source : Nat) (s : State) : Bool :=
  if source < 4 then s.dev.tamperEnable.getLsbD source
  else if source = 7 then
    s.host.keys.any fun k => decide (64 ≤ (k.writes.filter fun t => decide (s.host.follower - t ≤ 1500000)).length)
  else decide (source < 6)

/-- ALARM_RAISED (R460): LINE_ALARM comes as an ALARM message from the line side. -/
def State.alarmEvent (source : Nat) (s : State) : State :=
  if !s.hostOn then s
  else if source = 6 then
    match takeInbox s.link.host with
    | some (.alarm, e) => { s with link := { s.link with host := e } }.raiseAlarm 6
    | _ => s
  else if s.sourceFires source then s.raiseAlarm source else s

/-- ALARM_RAISED (R460). -/
def execAlarmRaised (dt : Nat) (source : Nat) (s : State) : Out := .next ((s.advance dt).alarmEvent source)

/-- A source is active no more (R462). -/
def State.alarmOver (source : Nat) (s : State) : State :=
  if 8 ≤ source then s
  else { s with dev := { s.dev with alarmActive := s.dev.alarmActive &&& ~~~((1 : W16) <<< source), lineAlarm := s.dev.lineAlarm && source != 6 } }

/-- ALARM_SOURCE_INACTIVE (R462). -/
def execAlarmSourceInactive (dt : Nat) (source : Nat) (s : State) : Out := .next ((s.advance dt).alarmOver source)

/-- LINE_ALARM_DETECTED: the line side latches it and sends ALARM, or keeps it until the barrier returns (R458, R461). -/
def execLineAlarmDetected (dt : Nat) (s : State) : Out :=
  .next (let s := s.advance dt
    if s.dev.lineAlarm || !s.alive .line then s else { s with dev := { s.dev with lineAlarm := true } }.sendAlarm .line)

/-- ALARM at the line side (R32, R284, R460): frames on air and pending frames end with cause ALARM, copies and the device's own
frames are dropped. -/
def State.alarmMessage (s : State) : State :=
  match takeInbox s.link.line with
  | some (.alarm, e) =>
    let s := { s with link := { s.link with line := e } }
    let now := s.line.clock.tb
    let l := s.line.endAll now 0x0E
    let l := (l.sched.actions.filter fun a => !a.frames.isEmpty).foldl (fun l a => (l.dropFrames a .aborted 0x0E now).removeAction a.id) l
    { s with line := (l.dropCopies (fun _ => true) 0x0F).dropPlanned fun _ => false }
  | _ => s

/-- ALARM_MESSAGE_RECEIVE (R460). -/
def execAlarmMessageReceive (dt : Nat) (s : State) : Out := .next (s.advance dt).alarmMessage.flush

/-! ## Host-side reset -/

/-- What KEY_STATE will tell of the slots whose epoch a reset raises: slot, state before, new epoch (R434, R435). -/
def keysOwed (keys : List KeySlot) : List (Nat × Nat × W16) := keys.zipIdx.map fun (k : KeySlot × Nat) => (k.2, slotCode k.1.state, k.1.epoch + 1)

/-- Always-on domain and device control over a host-side reset (R471, R484, R520, Tables 19.2, 19.3): the mode becomes BOOT, which is a change of
mode that owes its event; sources still active latch again. Power-up keeps nothing but what the part fixes and what the pins and the line side show. -/
def Dev.hostReset (code : Nat) (keys : List KeySlot) (d : Dev) : Dev :=
  let power := decide (code = 0)
  let active := if power then d.alarmActive &&& 0xF0 else d.alarmActive
  { d with mode := .boot, modeEpoch := if power then 1 else d.modeEpoch + 1, held := .boot, islandAuto := false,
           owedBoot := if power then [(.boot, 1, 0)] else d.owedBoot ++ [(d.mode, d.modeEpoch + 1, code)],
           owedDone := (if power then d.owedDone.filter (fun c => c = 1 ∨ c = 5 ∨ c = 9) else d.owedDone) ++ [code],
           owedKeys := if power then [] else d.owedKeys ++ keysOwed keys,
           bootDigest := if power then [] else d.bootDigest, bootGen := if power then 0 else d.bootGen,
           rung := .row, wakeMask := 0, exit := none, i2cPointer := if power then 0 else d.i2cPointer, linePwrLow := false, bootDeadline := none,
           alarmActive := active, alarmLatched := active, alarmAt := 0, tamperEnable := if power then 0 else d.tamperEnable,
           tamperHigh := if power then 0 else d.tamperHigh, debounce := if power then 1 else d.debounce }

/-- A slot over a host-side reset: EMPTY, its epoch kept and incremented, or 0 at power-up (R434). -/
def KeySlot.hostReset (power : Bool) (k : KeySlot) : KeySlot := { KeySlot.reset with epoch := if power then 0 else k.epoch + 1 }

/-- A port over a host-side reset: its input balls stay as they are. -/
def Serial.hostReset (p : Serial × Nat) : Serial := { Serial.reset p.2 with cts := p.1.cts, rxd := p.1.rxd || irMode p.1.ctrl != 0 }

/-- The flash over a host-side reset: a slot whose programming was cut off holds no header, which is written last (R479). -/
def Flash.cutOff (f : Flash) : Flash :=
  let slots := match f.job with
    | some j => if j.ok then f.slots.set (2 * j.region + f.target j.region) { header := [], body := [] } else f.slots
    | none => f.slots
  { f with slots := slots, readMode := .x111, clock := 25, issued := [], inUse := [none, none, none], job := none }

/-- The host side over a host-side reset (R407, R434, R443, R471): the boot ID counts, the key epochs are kept, the flash and what has left the
device lie outside. The node ID that IDENTIFY reports is the line side's (R318). -/
def HostSide.hostReset (power : Bool) (h : HostSide) : HostSide :=
  let r := HostSide.reset
  { r with bootId := h.bootId + 1, firstSync := h.firstSync, keys := h.keys.map (KeySlot.hostReset power), flash := h.flash.cutOff,
           serials := h.serials.zipIdx.map Serial.hostReset, eth := { r.eth with sent := h.eth.sent, answers := h.eth.answers },
           ints := { r.ints with sent := h.ints.sent }, sp0Sent := h.sp0Sent, nodeIdSeen := h.nodeIdSeen, freeCtr := h.freeCtr,
           jtag := if power then r.jtag else h.jtag, tdo := if power then r.tdo else h.tdo, readsDone := h.readsDone }

/-- The host end of the barrier over a host-side reset: down, with the line boot ID it heard last. -/
def BarrierEnd.hostReset (power : Bool) (e : BarrierEnd) : BarrierEnd :=
  let r := BarrierEnd.reset
  if power then { r with lanes := e.lanes }
  else { r with lanes := e.lanes, bootHeard := e.bootHeard, bootAtDown := e.bootHeard, firstUp := e.firstUp }

/-- A host-side reset with a source of Table 19.2. The banks keep their contents but at power-up (R407; log 8). The change of mode frees uncommitted
receive contexts (R207). -/
def State.hostReset (code : Nat) (s : State) : State :=
  let power := decide (code = 0)
  let s := if s.link.line.up then { s with line := s.line.abandonLocks } else s
  { s with dev := s.dev.hostReset code s.host.keys, host := s.host.hostReset power, hbMem := if power then [] else s.hbMem,
           link := { s.link with host := s.link.host.hostReset power, suspended := false, ctrs := List.replicate 15 Ctr.zero } }

/-! ## RESET -/

/-- Opcode 0x009 (Table 11.6). -/
def infoReset : CmdInfo := ⟨0x009, true, false, setAny⟩

/-- The line die is asked to reset: by a message, or by the first message after the next bring-up (R472). -/
def State.askLineReset (code : Nat) (s : State) : State :=
  s.modEnd .host fun e => if e.up then e.send s.host.follower (.lineReset code) else { e with owed := e.owed ++ [.lineReset code] }

/-- The reset of a reach (Tables 11.6, 19.2). -/
def State.resetReach (reach : Nat) (s : State) : State :=
  match reach with
  | 0 => s.hostReset 4
  | 1 => s.askLineReset 5
  | 2 => (s.hostReset 6).askLineReset 6
  | _ => s

/-- RESET, answered: a reach past 2 is a host error. -/
def State.resetAnswer (cmd : Cmd) (s : State) : Answer := if cmd.word 3 > 2 then s.hostError 0 else ⟨.ok, [], s⟩

/-- Whether a command of side H on the device that has been taken up is carried out now: in its turn, allowed in the mode, its expected epoch met (R299,
R303, R311). -/
def State.actsNow (info : CmdInfo) (cmd : Cmd) (s : State) : Bool :=
  s.serves info.opcode && s.host.holds info.opcode cmd && s.inTurn false (s.host.acceptedFor info.opcode cmd) (s.modeRef cmd) && (s.judge info).isNone
    && !epochDiffers cmd s.dev.modeEpoch

/-- RESET: the reply is placed 100 µs before the reset acts (R471, Table 11.6). -/
def State.resetCommand (cmd : Cmd) (s : State) : State :=
  let s := s.takeCmd infoReset cmd (State.modeRef cmd)
  let acts := s.actsNow infoReset cmd
  let s := s.runHeld infoReset cmd (State.modeRef cmd) (State.resetAnswer cmd)
  if acts then (s.advance 150000).resetReach (cmd.word 3) else s

/-- RESET (R471). -/
def execReset (dt : Nat) (cmd : Cmd) (s : State) : Out := .next ((s.advance dt).resetCommand cmd)

/-! ## Pins, rails and watchdogs -/

/-- RESET_N (R472): the host side resets and is held, the barrier transmitter sends the reset pattern. -/
def State.resetPinLow (s : State) : State :=
  let s := if s.dev.hostRails && s.dev.resetPin then s.hostReset 2 else s
  { s with dev := { s.dev with resetPin := false, pattern := if s.dev.hostRails then some 2 else s.dev.pattern } }

/-- RESET_N (R472). -/
def execResetN (dt : Nat) (s : State) : Out := .next (s.advance dt).resetPinLow

/-- RESET_N_RELEASE (R472, R480): the follower starts at 0, the pattern ends, the line die is released. -/
def State.resetPinHigh (s : State) : State :=
  if s.dev.resetPin then s
  else
    let s := { s with dev := { s.dev with resetPin := true, pattern := none }, host := { s.host with follower := 0, followerCoarse := 0, followerFree := 0 } }
    if s.dev.lineReset && s.dev.lineRails then s.lineRelease 2 else s

/-- RESET_N_RELEASE (R472). -/
def execResetNRelease (dt : Nat) (s : State) : Out := .next (s.advance dt).resetPinHigh

/-- I2C RESET_REQ (R362, R471). -/
def State.resetRequest (s : State) : State :=
  if !s.hostOn then s
  else let s := s.hostReset 7; { s with dev := { s.dev with pattern := some 7 } }

/-- RESET_PATTERN: the barrier receiver of the line die detects it on any one lane (R472). After a RESET_REQ it lasts 10 µs, and the line die is
released in the same step. -/
def State.patternSeen (s : State) : State :=
  if !s.dev.lineRails || !s.link.line.lanes.any id then s
  else match s.dev.pattern with
    | some 7 => let s := s.lineOff.lineRelease 7; { s with dev := { s.dev with pattern := none } }
    | some _ => let s := s.lineOff; { s with dev := { s.dev with lineReset := true } }
    | none => s

/-- RESET_PATTERN (R472). -/
def execResetPattern (dt : Nat) (s : State) : Out := .next (s.advance dt).patternSeen

/-- PERST_N: the reach PCIE of Table 19.3. -/
def HostSide.perst (h : HostSide) : HostSide := 
  { h with ints := { Ints.reset with sent := h.ints.sent }, pci := PciConfig.reset, rings := List.replicate 6 Ring.reset }

/-- PERST_N (R471). -/
def execPerstN (dt : Nat) (s : State) : Out := .next (let s := s.advance dt; if s.hostOn then s.onHost HostSide.perst else s)

/-- HOST_WATCHDOG (R471). -/
def execHostWatchdog (dt : Nat) (s : State) : Out :=
  .next (let s := s.advance dt; if s.hostOn && s.host.running then s.hostReset 8 else s)

/-- LINE_WATCHDOG (R471). -/
def execLineWatchdog (dt : Nat) (s : State) : Out :=
  .next (let s := s.advance dt; if s.alive .line && s.line.running then s.lineResetNow 9 else s)

/-- A die whose rails stand in range is released (R466). The line die stays in reset while the pattern of RESET_N lasts (R472). -/
def State.powered (die : Die) (s : State) : State :=
  match die with
  | .host => if s.dev.hostRails then s else { s with dev := { s.dev with hostRails := true } }
  | .line =>
    if s.dev.lineRails then s
    else
      let s := { s with dev := { s.dev with lineRails := true } }
      if s.dev.pattern.isSome then { s with dev := { s.dev with lineReset := true } } else s.lineRelease 1

/-- DIE_POWERED (R466). -/
def execDiePowered (dt : Nat) (die : Die) (s : State) : Out := .next ((s.advance dt).powered die)

/-- A rail leaves its range: the die enters reset, and its banks lose their contents (R407, R466; log 8). -/
def State.railLost (die : Die) (s : State) : State :=
  match die with
  | .host => if s.dev.hostRails then let s := s.hostReset 0; { s with dev := { s.dev with hostRails := false } } else s
  | .line =>
    if s.dev.lineRails then
      let s := s.lineOff
      { s with dev := { s.dev with lineRails := false, lineReset := false }, lbMem := [] }
    else s

/-- RAIL_OUT_OF_RANGE (R466). -/
def execRailOutOfRange (dt : Nat) (die : Die) (s : State) : Out := .next ((s.advance dt).railLost die)

/-! ## Boot -/

/-- The mode-change events that host-side resets owe, with the modes held before them (R482, R520): their instant is the follower's restart. -/
def State.bootEvent (s : State) : State :=
  let one (h : HostSide) (b : Mode × W16 × Nat) : HostSide :=
    (h.eventAt 0 0x001 0x8000 1 true b.2.1 0 ([w (modeCode b.1), 0, b.2.1, w b.2.2] ++ tickWords 0)).raise 29
  { s with dev := { s.dev with owedBoot := [] }, host := s.dev.owedBoot.foldl one s.host }

/-- KEY_STATE with a cause for slots whose epoch has risen already (R434, R435). -/
def HostSide.keyEvents (cause : Nat) (owed : List (Nat × Nat × W16)) (h : HostSide) : HostSide :=
  owed.foldl (fun h o => (h.event 0x200 0x8600 7 true o.2.2 o.1 [w o.1, w o.2.1, 0, w cause, 0, 0]).ceRaise 5) h

/-- The copy of DIGEST and GEN that the always-on domain keeps of the slot in use (R488). -/
def State.copyHeader (s : State) : State :=
  let f := s.host.flash
  match f.used 0 with
  | none => s
  | some i => { s with dev := { s.dev with bootDigest := ((f.slot 0 i).header.drop 16).take 32, bootGen := (f.slot 0 i).gen } }

/-- Host firmware starts (R480, R482, R489, R522): the events that the reset owes, FW_SLOT for regions 0 and 2, and the deadline for the line side. -/
def State.hostStarts (s : State) : State :=
  let now := s.host.follower
  let s := { s with host := { s.host with running := true, seqNext := Config.freeWord s.host.freeCtr } }.spend 1
  let s := (s.bootEvent.checkRegion 0).checkRegion 2
  let s := { s with host := s.host.keyEvents 4 s.dev.owedKeys, dev := { s.dev with owedKeys := [], bootDeadline := some (now + 750000000) } }
  let s := s.modEnd .host fun e => { e with lastValid := now, missedFrom := 0 }
  (s.resetDone fun c => c = 0 ∨ c = 4 ∨ c = 8).copyHeader

/-- HOST_FIRMWARE_CHECK: the flash interface starts and region 0 is checked; when it fails the device stays in BOOT (R361, R477, R480). -/
def State.firmwareCheck (s : State) : State :=
  if !s.hostOn || s.host.running then s
  else
    let s := s.onHost fun h => { h with flash := h.flash.start }
    if (s.host.flash.choose 0).isSome then s.hostStarts else s

/-- HOST_FIRMWARE_CHECK (R480). -/
def execHostFirmwareCheck (dt : Nat) (s : State) : Out := .next (s.advance dt).firmwareCheck

/-- LINE_IMAGE_LOADED: the line ROM checks the image that crossed, places it in LB62 and LB63 and starts line firmware (R475, R480). -/
def State.imageLoaded (s : State) : State :=
  if !(s.link.host.up && s.link.line.up && s.alive .line) || s.line.running then s
  else match s.host.flash.used 1 with
    | none => s
    | some i =>
      let x := s.host.flash.slot 1 i
      if x.passes 1 then
        { s with line := { s.line with running := true, release := x.release }, lbMem := s.lbMem.writeN (lineBankAt 62) (x.body.take x.length) }
      else s

/-- LINE_IMAGE_LOADED (R480). -/
def execLineImageLoaded (dt : Nat) (s : State) : Out := .next (s.advance dt).imageLoaded

/-- LINE_READY (R480). -/
def State.lineReadyEvent (s : State) : State :=
  if !s.line.running || s.line.ready then s
  else
    let s := { s with line := { s.line with ready := true } }
    if s.link.host.up then s.lineIsReady else s

/-- LINE_READY (R480). -/
def execLineReady (dt : Nat) (s : State) : Out := .next (s.advance dt).lineReadyEvent.flush

/-- LINE_NOT_READY: at the deadline the device enters SAFE, or QUARANTINE after an alarm in BOOT (R30, R480, R481, R488). -/
def State.lineNotReadyEvent (s : State) : State :=
  match s.dev.bootDeadline with
  | none => s
  | some d =>
    if s.host.follower < d || !s.host.running then s
    else if s.linePresent then { s with dev := { s.dev with bootDeadline := none } }
    else s.enterSafe 0x1B s.host.follower

/-- LINE_NOT_READY (R480). -/
def execLineNotReady (dt : Nat) (s : State) : Out := .next (s.advance dt).lineNotReadyEvent.flush

end Sys2Proof.Machine
end

