-- ==== Sys2Proof/Machine/Ether.lean ====
section
/-! DEFINITION. The Ethernet port (R354 to R356), the I2C target (R362) and the test port (R363). -/

namespace Sys2Proof.Machine

/-! ## Ethernet -/

/-- The MAC address: the one stored in the configuration slot in use, else 0x02 and the low 40 bits of the serial number (R354, R478). -/
def State.macAddress (s : State) : List Byte :=
  let stored := match s.host.flash.used 2 with
    | some i => (s.host.flash.slot 2 i).body.take 6
    | none => []
  if stored.length = 6 ∧ stored.any (· ≠ 0) then stored else 0x02 :: beBytes 5 s.dev.serial.toNat

/-- The MTU (R354). -/
def Eth.mtu (e : Eth) : Nat := if e.ctrl.getLsbD 30 then 9000 else 1500

/-- UDP_PORT (Table 13.12). -/
def Eth.udpPort (e : Eth) : W16 := w e.ctrl.toNat

/-- Whether a frame is taken at all (R354). -/
def Eth.takes (f : EthFrame) (e : Eth) : Bool := !f.tagged && decide (f.length ≤ e.mtu)

/-- The records of queues 0 and 1 leave once their destination is resolved (R355). -/
def HostSide.deliverUdp (h : HostSide) : HostSide := ((h.deliver 0).drainHold 0 |>.deliver 1).drainHold 1

/-- An address is resolved by the reply of its station (R355). -/
def HostSide.resolve (addr : W32) (h : HostSide) : HostSide :=
  if h.eth.arp.contains addr then h else { h with eth := { h.eth with arp := h.eth.arp ++ [addr] } }.deliverUdp

/-- A frame acts (R355, R356, Table 13.13): while ADDR is 0 the device answers nothing and takes no datagram. PTP messages have rows of their own. -/
def State.ethAct (f : EthFrame) (s : State) : State :=
  let addr := s.host.eth.ipv4
  if addr = 0 then s
  else match f.payload with
    | .arpRequest target sender => if target = addr then s.onHost (HostSide.ethAnswer (.arpReply sender)) else s
    | .arpReply sender => s.onHost (HostSide.resolve sender)
    | .echoRequest dest src data => if dest = addr then s.onHost (HostSide.ethAnswer (.echoReply src data)) else s
    | .udp dest src destPort srcPort fragment options data =>
      if dest = addr ∧ destPort = s.host.eth.udpPort ∧ fragment = false ∧ options = false then s.udpCommand src srcPort data else s
    | .other => s

/-- Whether a frame is a datagram to UDP_PORT. -/
def Eth.isCommand (f : EthFrame) (e : Eth) : Bool :=
  match f.payload with
  | .udp dest _ destPort _ fragment options _ => dest == e.ipv4 && destPort == e.udpPort && !fragment && !options
  | _ => false

/-- Whether a frame is addressed to the device's MAC address: all but the broadcast of an ARP request (R486; log 70). -/
def frameToStation : EthPayload → Bool
  | .arpRequest _ _ => false
  | .arpReply _ => true | .echoRequest _ _ _ => true | .udp _ _ _ _ _ _ _ => true | .other => true

/-- A frame waits in the receive buffer of 262,144 bytes, or is discarded and counted (R356). -/
def HostSide.bufferFrame (f : EthFrame) (h : HostSide) : HostSide :=
  if h.eth.used + f.length ≤ 262144 then { h with eth := { h.eth with buffered := h.eth.buffered ++ [f] } } else h.countTransport 0

/-- The buffered frames act in their order (R356, Table 19.8). -/
def State.serveBuffered (s : State) : State :=
  s.host.eth.buffered.foldl (fun s f => s.ethAct f) (s.onHost fun h => { h with eth := { h.eth with buffered := [] } })

/-- A frame arrives. In DRIFT frames are buffered, but a command datagram is accepted and wakes the device (R356, R486; log 70). -/
def State.ethFrame (f : EthFrame) (s : State) : State :=
  if !s.etherOn || !s.host.eth.takes f then s
  else if s.dev.rung = .drift then
    let s := if s.dev.wakeMask.getLsbD 9 && frameToStation f.payload then s.wakeFor 9 else s
    if s.host.eth.isCommand f then s.ethAct f else s.onHost (HostSide.bufferFrame f)
  else s.serveBuffered.ethAct f

/-- ETH_FRAME_RECEIVE (R355). -/
def execEthFrameReceive (dt : Nat) (frame : EthFrame) (s : State) : Out := .next ((s.advance dt).ethFrame frame)

/-- ARP_RETRY (R355): while ADDR is 0 nothing is sent. -/
def execArpRetry (dt : Nat) (s : State) : Out :=
  .next (let s := s.advance dt
    if s.etherOn then s.onHost fun h => (h.arpAsk 0).arpAsk 1 else s)

/-- LINK of H_ETH_CTRL changes (R354, Table 13.3). -/
def HostSide.linkChange (up : Bool) (h : HostSide) : HostSide :=
  if h.eth.link = up then h else { h with eth := { h.eth with link := up } }.raise 28

/-- ETH_LINK_CHANGE (R354). -/
def execEthLinkChange (dt : Nat) (up : Bool) (s : State) : Out :=
  .next (let s := s.advance dt; if s.hostOn && !s.linksStopped then s.onHost (HostSide.linkChange up) else s)

/-! ## I2C -/

/-- The 7-bit address that the target answers at (R362). -/
def Dev.i2cAddress (d : Dev) : Nat := 0x4C + d.strap % 4

/-- The 16 bits of a die temperature as sampled (Table 13.16): a value of the device that the specification leaves to the part. -/
def tempWord (k : Nat) : W16 := Config.freeWord k

/-- What a read at an offset returns, for temperatures sampled as free values from `k` on (Table 13.16). -/
def State.i2cByte (k ofs : Nat) (s : State) : Byte :=
  let hi (x : W16) : Byte := BitVec.ofNat 8 (x.toNat / 256)
  let lo (x : W16) : Byte := BitVec.ofNat 8 x.toNat
  let line : W16 := if s.linePresent then tempWord (k + 1) else 0x8000
  match ofs with
  | 0x00 => 0x96
  | 0x01 => 0x25
  | 0x02 => 0xB0
  | 0x03 => BitVec.ofNat 8 (modeCode s.dev.mode * 16 + rungCode s.dev.rung)
  | 0x04 => hi (tempWord k)
  | 0x05 => lo (tempWord k)
  | 0x06 => hi line
  | 0x07 => lo line
  | 0x08 => BitVec.ofNat 8 (s.dev.alarmLatched.toNat % 16 + b2n (s.dev.alarmLatched != 0) * 128)
  | 0x09 => BitVec.ofNat 8 (b2n s.linePresent + b2n s.link.host.up * 2 + b2n s.host.running * 4)
  | _ => 0

/-- Whether a write transfer is the sequence of RESET_REQ (Table 13.16). -/
def isResetReq (bytes : List Byte) : Bool := bytes == [0x0A, 0xA5, 0x5A]

/-- The pointer after a write transfer: set by the first byte, advanced by each data byte (R362). -/
def i2cPointerAfter (bytes : List Byte) (p : Byte) : Byte :=
  match bytes with
  | [] => p
  | b :: data => b + BitVec.ofNat 8 data.length

/-- The bytes that a read of `n` bytes from a pointer returns (R362): each temperature byte sampled as it is read, but T_HOST and T_LINE at one instant for a
read that starts at 0x04. -/
def State.i2cBytes (p : Byte) (n : Nat) (s : State) : List Byte :=
  let k := s.host.freeCtr
  (List.range n).map fun i => s.i2cByte (if p = 4 ∧ i < 4 then k else k + 2 * i) (p + BitVec.ofNat 8 i).toNat

/-- A transfer (R362): the bytes written set the pointer and are discarded, for no register but RESET_REQ takes data; then bytes are read from the pointer,
which advances by one after each. The target stands still with the host links (R363). -/
def State.i2cTransfer (t : I2cTransfer) (s : State) : State :=
  if !s.dev.hostRails || s.linksStopped then s
  else
    let p := i2cPointerAfter t.bytes s.dev.i2cPointer
    let s := { s with dev := { s.dev with i2cPointer := p + BitVec.ofNat 8 t.read, i2cRead := s.i2cBytes p t.read } }.spend (2 * t.read)
    if isResetReq t.bytes then s.resetRequest else s

/-- I2C_WRITE (R362). -/
def execI2cWrite (dt : Nat) (transfer : I2cTransfer) (s : State) : Out := .next ((s.advance dt).i2cTransfer transfer)

/-- I2C_RESET_REQ: the transfer that resets host and line (R362, R471). -/
def execI2cResetReq (dt : Nat) (s : State) : Out := .next ((s.advance dt).i2cTransfer { bytes := [0x0A, 0xA5, 0x5A], read := 0 })

/-! ## Test port -/

/-- IDCODE (R363). -/
def idcode : W32 := 0x296259A7

/-- What the data register that an instruction selects shifts out first to last (R363, IEEE 1149.1): a 0 of the bypass register, IDCODE from bit 0 on; the cells
of the boundary-scan register stand in the BSDL description, which the specification leaves out. -/
def jtagData (i : JtagInstr) : List Bool :=
  match i with
  | .bypass => [false] | .clamp => [false] | .highz => [false]
  | .idcode => (List.range 32).map (bitOf idcode.toNat)
  | .samplePreload => [] | .extest => []

/-- The host links run again: messages that were pending leave, queues deliver, the inputs are read (R363). -/
def State.linksResume (s : State) : State :=
  (s.onHost fun h =>
    ([0, 1, 4, 5].foldl (fun h n => (h.deliver n).drainHold n) (h.modInts fun link i => i.sendPending link)).sp0Load).readInputs

/-- JTAG_INSTRUCTION (R363): while EXTEST, CLAMP or HIGHZ is in force the host links stand still. -/
def execJtagInstruction (dt : Nat) (instr : JtagInstr) (s : State) : Out :=
  .next (let s := s.advance dt
    if !s.dev.hostRails then s
    else
      let t := s.onHost fun h => { h with jtag := instr, tdo := jtagData instr }
      if s.linksStopped && !t.linksStopped then t.linksResume else t)

end Sys2Proof.Machine
end

