-- ==== Sys2Proof/Machine/Registers.lean ====
section
/-! DEFINITION. The registers of BAR0 (R13, R343 to R358, R388, R410, R436, R446): what a read returns, and REGISTER_WRITE. -/

namespace Sys2Proof.Machine

/-! ## Reads -/

/-- A 32-bit value. -/
def word32 (n : Nat) : W32 := BitVec.ofNat 32 n

/-- FULL: the free space is less than the next packet (Table 12.6): the first held one, or of a reply queue the longest reply with its slot (R336;
log 133). -/
def Queue.full (n : Nat) (q : Queue) : Bool :=
  match q.hold with
  | p :: _ => !q.fits (lossReserve n) p
  | [] => decide (2 ≤ n ∧ q.depthF < q.level + 1088 + b2n q.framing)

/-- H_Qn_STATUS (Table 12.6). A reset is over within its own command, so RESETTING reads 0. -/
def Queue.statusWord (n : Nat) (q : Queue) : W32 :=
  word32 (q.pkts.length % 65536 * 65536 + q.prov * 256 + b2n q.access * 64 + b2n q.framing * 32 + b2n (!q.hold.isEmpty) * 16 +
    b2n q.loss * 8 + b2n q.underrun * 4 + b2n (q.full n) * 2 + b2n (q.level == 0))

/-- The registers of queues 0 to 6 (Tables 12.5 to 12.12): what a read returns before any effect of the read. -/
def HostSide.readQueue (n reg : Nat) (h : HostSide) : W32 :=
  let q := h.queue n
  if n < 6 then
    match reg with
    | 0 => match q.take with | some r => windowWord r.1 | none => windowEmpty q.lastWord q.lastMark
    | 4 => q.statusWord n
    | 8 => q.ctrl
    | 0xC => q.base
    | 0x10 => q.depth
    | 0x14 => word32 q.level
    | 0x18 => lostValue q.lost
    | 0x1C => word32 q.hwm
    | _ => 0
  else if n = 6 then
    match reg with
    | 0 => 0x40000
    | 4 => word32 (h.txq.length * 65536 + b2n (decide (8192 ≤ h.txq.length)) * 2 + b2n h.txq.isEmpty)
    | 8 => 0x2810
    | 0x10 => 8192
    | 0x14 => word32 h.txq.length
    | 0x1C => word32 h.txHwm
    | _ => 0
  else 0

/-- The registers of a ring (Tables 13.7 to 13.11). -/
def Ring.read (reg : Nat) (g : Ring) : W32 :=
  match reg with
  | 0 => g.baseLo &&& 0xFFFFFFC0
  | 4 => g.baseHi
  | 8 => g.ctrl
  | 0xC => g.prod
  | 0x10 => g.cons
  | _ => 0

/-- H_SPn_STATUS (Table 14.11). -/
def Serial.statusWord (n : Nat) (p : Serial) : W32 :=
  word32 (p.fifo.length * 65536 + b2n p.rxd * 32768 + lineCode p.lineState * 8192 +
    b2n (p.shifter.isSome || p.breakFrom.isSome) * 4096 + b2n (p.de && decide (n < 6)) * 2048 +
    b2n (p.rts && decide (6 ≤ n)) * 1024 + b2n (p.cts && decide (6 ≤ n)) * 512 + p.status.toNat)

/-- The registers of SPn (Tables 14.7 to 14.18); SP0 has no receive region (R386). -/
def Serial.read (n reg : Nat) (p : Serial) : W32 :=
  match reg with
  | 0 => p.ctrl
  | 4 => p.rate
  | 8 => p.line
  | 0xC => p.limits
  | 0x10 => p.statusWord n
  | 0x14 => p.ie
  | 0x18 => if n = 0 then 0 else p.rxbuf
  | 0x20 =>
    if n = 0 then 0x40000
    else match p.queue.head?.bind (fun q => q.entries.head?) with
      | some e => windowWord e
      | none => windowEmpty p.queueLast.1 p.queueLast.2
  | 0x24 => if n = 0 then 0 else (p.rxqCtrl &&& 0x1FFF) ||| word32 (p.queue.length * 2 ^ 22 + p.held * 2 ^ 13)
  | 0x2C => word32 (b2n p.drop * 2 ^ 31 + p.descs.length * 65536 + p.done.toNat)
  | _ => 0

/-- Whether an active or suspended operation holds a copy of a slot's key (Table 16.11). -/
def HostSide.keyBusy (n : Nat) (h : HostSide) : Bool :=
  let has (o : Option CipherOp) : Bool := match o with | some o => o.slot == n && !o.key.isEmpty | none => false
  h.engines.any fun e => has e.active || has e.suspended

/-- The readable registers of a key slot (Tables 16.8 to 16.12): no read returns a key byte (R417). -/
def HostSide.readKey (n reg : Nat) (h : HostSide) : W32 :=
  let k := h.key n
  match reg with
  | 0x20 => k.cfg
  | 0x28 => word32 (k.epoch.toNat * 65536 + slotCode k.state * 16384 + k.len * 4096 + b2n k.rxEn * 2048 + b2n k.rxStream * 1024 +
      b2n k.txEn * 512 + b2n (h.keyBusy n) * 256)
  | 0x2C => word32 k.keyId.toNat
  | _ => 0

/-- H_CEe_STAT (Table 16.13). -/
def Engine.statWord (e : Engine) : W32 :=
  word32 (b2n e.active.isSome * 2 ^ 31 + b2n e.suspended.isSome * 2 ^ 30 + (e.active.map CipherOp.cls).getD 0 * 2 ^ 28 +
    (e.suspended.map CipherOp.slot).getD 0 * 65536 + (e.active.map CipherOp.slot).getD 0)

/-- The registers of a check unit (Tables 17.4 to 17.11). -/
def CheckUnit.read (reg : Nat) (c : CheckUnit) : W32 :=
  match reg with
  | 0 => c.ctrl ||| word32 (b2n c.run.isSome * 2 ^ 31)
  | 4 => c.src
  | 8 => c.len
  | 0xC => c.addr
  | 0x10 => c.fold
  | 0x14 => c.expect
  | 0x18 => c.result
  | 0x1C => c.statusWord
  | _ => 0

/-- H_HBnn_OWN (Table 15.7); ACTIVE is the tester's group. -/
def HostBank.ownWord (b : HostBank) : W32 :=
  word32 (b2n b.handover.isSome * 2 ^ 31 + b2n b.failed * 2 ^ 30 + b.owner * 256 + b2n b.march * 4 + b2n b.vital * 2 + b2n b.shared)
    ||| b.reservedBits

/-- The configuration space (R344, R345), whose words reads and writes reach from 0x1_0000 on (log 11): the header with the IDs, Command and the BARs, and the
capabilities of power management, MSI-X, PCI Express and AER. -/
def HostSide.readPci (ofs : Nat) (h : HostSide) : W32 :=
  let p := h.pci
  match ofs with
  | 0x00 => 0x96251F3A
  | 0x04 => 0x100000 ||| word32 (p.command.toNat + b2n h.ints.busMaster * 4)
  | 0x08 => 0x078000B0
  | 0x10 => p.bar0
  | 0x18 => word32 p.bar2.toNat ||| 0xC
  | 0x1C => word32 (p.bar2.toNat / 2 ^ 32)
  | 0x34 => 0x40
  | 0x40 => 0x00035001
  | 0x44 => if h.ints.d3hot then 0xB else 8
  | 0x50 => 0xF6011 ||| word32 (0xF0000 + b2n h.ints.msixEnable * 2 ^ 31 + b2n h.ints.functionMask * 2 ^ 30)
  | 0x54 => 0x1000
  | 0x58 => 0x1800
  | 0x60 => 0x00020010
  | 0x64 => 2
  | 0x68 => word32 p.devCtl.toNat
  | 0x6C => 0x00000844
  | 0x70 => word32 p.linkCtl.toNat
  | 0x100 => 0x00020001
  | 0x104 => p.uncStatus
  | 0x108 => p.uncMask
  | 0x10C => p.uncSeverity
  | 0x110 => p.corStatus
  | 0x114 => p.corMask
  | 0x118 => p.aerCtl ||| 0xA0
  | _ => 0

/-- What a read of the register at a BAR0 offset returns; an offset that no block defines reads 0 (R347). -/
def State.regRead (ofs : Nat) (s : State) : W32 :=
  let h := s.host
  if ofs = 0x10 then h.ints.cause
  else if ofs = 0x14 then h.ints.mask
  else if ofs = 0x20 then word32 (tickNat h.follower)
  else if ofs = 0x24 then h.timeHi
  else if 0x100 ≤ ofs ∧ ofs < 0x1C0 then (h.ring ((ofs - 0x100) / 0x20)).read (ofs % 0x20)
  else if 0x1000 ≤ ofs ∧ ofs < 0x1100 then nth h.ints.msixTable ((ofs - 0x1000) / 4) 0
  else if ofs = 0x1800 then word32 h.ints.msixPending.toNat
  else if 0x2000 ≤ ofs ∧ ofs < 0x2100 then h.readQueue ((ofs - 0x2000) / 0x20) (ofs % 0x20)
  else if 0x3000 ≤ ofs ∧ ofs < 0x3800 then (h.sp ((ofs - 0x3000) / 0x100)).read ((ofs - 0x3000) / 0x100) (ofs % 0x100)
  else if 0x4000 ≤ ofs ∧ ofs < 0x4C00 then h.readKey ((ofs - 0x4000) / 0x30) ((ofs - 0x4000) % 0x30)
  else if 0x4C00 ≤ ofs ∧ ofs < 0x4D00 then if ofs % 16 = 0 then (h.engine ((ofs - 0x4C00) / 16)).statWord else 0
  else if ofs = 0x4F00 then word32 h.ceStatus.toNat
  else if ofs = 0x4F04 then h.ceIe
  else if ofs = 0x4F08 then word32 (s.dev.nid.toNat * 64)
  else if 0x5000 ≤ ofs ∧ ofs < 0x5100 then (h.cu ((ofs - 0x5000) / 0x20)).read (ofs % 0x20)
  else if 0x6000 ≤ ofs ∧ ofs < 0x6080 then (h.bank ((ofs - 0x6000) / 4)).ownWord
  else if ofs = 0x6080 then word32 h.mem.status.toNat
  else if ofs = 0x6084 then h.mem.ie
  else if ofs = 0x6088 then h.mem.csel
  else if ofs = 0x608C then word32 ((h.mem.selected.getD Ctr.zero).val)
  else if ofs = 0x7000 then (h.eth.ctrl &&& 0x7FFFFFFF) ||| word32 (b2n h.eth.link * 2 ^ 31)
  else if ofs = 0x7004 then h.eth.ipv4
  else if ofs = 0x7008 then h.ptp.ctrl
  else if 0x10000 ≤ ofs then h.readPci (ofs - 0x10000)
  else 0

/-! ## Writes -/

/-- A write of a ring register (Tables 13.7 to 13.11). BASE written while ENABLE reads 1 is a host error, which the model ignores
(R353; log 20). PROD of a command ring is the doorbell's row. -/
def Ring.writeReg (r reg : Nat) (v : W32) (g : Ring) : Ring :=
  match reg with
  | 0 => if g.enabled then g else { g with baseLo := v }
  | 4 => if g.enabled then g else { g with baseHi := v }
  | 8 => g.writeCtrl v
  | 0x10 => if 2 ≤ r then { g with cons := v } else g
  | _ => g

/-- A write of one word of the MSI-X table: an entry unmasked with its pending bit set sends its message (R348). -/
def Ints.writeTable (link : Bool) (i : Nat) (v : W32) (x : Ints) : Ints :=
  { x with msixTable := x.msixTable.modify i fun _ => v }.sendPending link

/-- A write to the configuration space where the interrupts and requests hang on it (log 11): Bus Master Enable, the power state, of which D0 and D3hot alone
are supported, and Message Control of MSI-X. What was pending leaves as soon as nothing withholds it (R346, R348). -/
def Ints.writeConfig (link : Bool) (ofs : Nat) (v : W32) (x : Ints) : Ints :=
  match ofs with
  | 4 => { x with busMaster := v.getLsbD 2 }.sendPending link
  | 0x44 => { x with d3hot := if bitsOf v.toNat 0 2 = 3 then true else if bitsOf v.toNat 0 2 = 0 then false else x.d3hot }.sendPending link
  | 0x50 => { x with msixEnable := v.getLsbD 31, functionMask := v.getLsbD 30 }.sendPending link
  | _ => x

/-- A write of the rest of the configuration space (R344, R345): the address bits of the BARs, the control bits, and the W1C bits of AER. -/
def PciConfig.write (ofs : Nat) (v : W32) (p : PciConfig) : PciConfig :=
  match ofs with
  | 0x04 => { p with command := w v.toNat &&& 0x142 }
  | 0x10 => { p with bar0 := v &&& 0xFFFF0000 }
  | 0x18 => { p with bar2 := (p.bar2 &&& 0xFFFFFFFF00000000) ||| (v &&& 0xFF800000).setWidth 64 }
  | 0x1C => { p with bar2 := (p.bar2 &&& 0xFFFFFFFF) ||| (v.setWidth 64 <<< 32) }
  | 0x68 => { p with devCtl := w v.toNat &&& 0x70EF }
  | 0x70 => { p with linkCtl := w v.toNat &&& 0xCA }
  | 0x104 => { p with uncStatus := p.uncStatus &&& ~~~v }
  | 0x108 => { p with uncMask := v }
  | 0x10C => { p with uncSeverity := v }
  | 0x110 => { p with corStatus := p.corStatus &&& ~~~v }
  | 0x114 => { p with corMask := v }
  | 0x118 => { p with aerCtl := v &&& 0x140 }
  | _ => p

/-- A write to the configuration space; a ring that Bus Master Enable or the power state held goes on (R346). -/
def State.writePci (ofs : Nat) (v : W32) (s : State) : State :=
  (s.onHost fun h => { h with pci := h.pci.write ofs v }.modInts fun link i => i.writeConfig link ofs v).readInputs

/-- A write of a register of SPn (Tables 14.7 to 14.18). -/
def State.writeSerial (n reg : Nat) (v : W32) (s : State) : State :=
  match reg with
  | 0 => s.writeSerialCtrl n v
  | 4 => s.onHost (HostSide.modSp n fun p => { p with rate := v })
  | 8 => s.onHost (HostSide.modSp n fun p => { p with line := v })
  | 0xC => s.onHost (HostSide.modSp n fun p => { p with limits := v }.flow n)
  | 0x10 => s.onHost (HostSide.modSp n fun p => { p with status := p.status &&& ~~~(v.setWidth 6) })
  | 0x14 => s.onHost (HostSide.modSp n fun p => { p with ie := v })
  | 0x18 => s.onHost (HostSide.modSp n fun p => if n = 0 then p else { p with rxbuf := v })
  | 0x1C => s.onHost (HostSide.modSp n fun p => if n = 0 then p else { p with held := p.held - bitsOf v.toNat 0 9 }.flow n)
  | 0x24 =>
    if n = 0 then s
    else
      let s := s.onHost (HostSide.modSp n fun p => { p with rxqCtrl := v &&& 0x1FFF })
      if v.getLsbD 31 then s.onHost (HostSide.rxqReset n) else s
  | 0x28 => s.txDescriptor n v
  | 0x2C => s.onHost (HostSide.modSp n fun p => { p with drop := p.drop && !v.getLsbD 31 })
  | _ => s

/-- A write of a staging word (R417): zeroed at once in QUARANTINE (R418). The instants of the writes since the last commit are kept
for KEY_PROBE (Table 18.3). -/
def State.stage (n i : Nat) (v : W32) (s : State) : State :=
  let now := s.host.follower
  s.onHost (HostSide.modKey n fun k =>
    { k with staging := if s.dev.mode == .quarantine then List.replicate 8 0 else k.staging.modify i fun _ => v,
             writes := now :: k.writes.filter (fun t => decide (now - t ≤ 1500000)) })

/-- KEY_STAGING_WRITE (R417, R418). -/
def execKeyStagingWrite (dt : Nat) (slot word : Nat) (value : W32) (s : State) : Out :=
  .next ((s.advance dt).bar0 (State.stage slot word value))

/-- A write of a key slot register (Tables 16.8 to 16.10). -/
def State.writeKey (n reg : Nat) (v : W32) (s : State) : State :=
  if reg < 0x20 then s.stage n (reg / 4) v
  else
    match reg with
    | 0x20 => s.onHost (HostSide.modKey n fun k => { k with cfg := v })
    | 0x24 => s.keyCommit n v
    | _ => s

/-- A write of a check unit register (Tables 17.4 to 17.11). -/
def CheckUnit.writeReg (reg : Nat) (v : W32) (c : CheckUnit) : CheckUnit :=
  match reg with
  | 0 => c.go v
  | 4 => { c with src := v }
  | 8 => { c with len := v }
  | 0xC => { c with addr := v }
  | 0x10 => { c with fold := v }
  | 0x14 => { c with expect := v }
  | 0x1C => { c with status := c.status &&& ~~~(v.setWidth 5) }
  | _ => c

/-- The fields of H_PTP_CTRL: all but its reserved bits (Table 13.14). -/
def ptpFields (v : W32) : W32 := v &&& 0xFFC0FFFF

/-- A write of H_PTP_CTRL: a change makes PTP qualify again at the next Sync message (R6, R358). -/
def Ptp.write (v : W32) (p : Ptp) : Ptp := { p with ctrl := v, requalify := p.requalify || ptpFields p.ctrl != ptpFields v }

/-- A write of H_IPV4_ADDR: with an address what waits for UDP leaves (R333, Table 13.13). -/
def HostSide.writeAddr (v : W32) (h : HostSide) : HostSide :=
  [0, 1, 4].foldl (fun h n => (h.deliver n).drainHold n) { h with eth := { h.eth with ipv4 := v } }

/-- A write of the register at an offset by its access codes (R13); no effect where no block defines it (R347). -/
def State.regWrite (ofs : Nat) (v : W32) (s : State) : State :=
  if ofs = 0x10 then s.onHost (HostSide.writeCause v)
  else if ofs = 0x14 then s.onHost (HostSide.writeMask v)
  else if 0x100 ≤ ofs ∧ ofs < 0x1C0 then
    s.onHost (HostSide.modRing ((ofs - 0x100) / 0x20) (Ring.writeReg ((ofs - 0x100) / 0x20) (ofs % 0x20) v))
  else if 0x1000 ≤ ofs ∧ ofs < 0x1100 then s.onHost (HostSide.modInts fun link i => i.writeTable link ((ofs - 0x1000) / 4) v)
  else if 0x2000 ≤ ofs ∧ ofs < 0x2100 then s.queueWrite ((ofs - 0x2000) / 0x20) (ofs % 0x20) v
  else if 0x3000 ≤ ofs ∧ ofs < 0x3800 then s.writeSerial ((ofs - 0x3000) / 0x100) (ofs % 0x100) v
  else if 0x4000 ≤ ofs ∧ ofs < 0x4C00 then s.writeKey ((ofs - 0x4000) / 0x30) ((ofs - 0x4000) % 0x30) v
  else if ofs = 0x4F00 then s.onHost fun h => { h with ceStatus := h.ceStatus &&& ~~~(v.setWidth 6) }
  else if ofs = 0x4F04 then s.onHost fun h => { h with ceIe := v }
  else if 0x5000 ≤ ofs ∧ ofs < 0x5100 then s.onHost (HostSide.modCu ((ofs - 0x5000) / 0x20) (CheckUnit.writeReg (ofs % 0x20) v))
  else if 0x6000 ≤ ofs ∧ ofs < 0x6080 then s.onHost fun h => h.modBank ((ofs - 0x6000) / 4) (HostBank.write h.follower v)
  else if ofs = 0x6080 then s.onHost fun h => { h with mem := { h.mem with status := h.mem.status &&& ~~~(v.setWidth 5) } }
  else if ofs = 0x6084 then s.onHost fun h => { h with mem := { h.mem with ie := v } }
  else if ofs = 0x6088 then
    s.onHost fun h => { h with mem := { h.mem with csel := (v &&& 0x7FFFFFFF) ||| (h.mem.csel &&& 0x80000000) } }
  else if ofs = 0x7000 then s.onHost fun h => { h with eth := { h.eth with ctrl := v &&& 0x7FFFFFFF } }
  else if ofs = 0x7004 then s.onHost (HostSide.writeAddr v)
  else if ofs = 0x7008 then s.onHost fun h => { h with ptp := h.ptp.write v }
  else if 0x10000 ≤ ofs then s.writePci (ofs - 0x10000) v
  else s

/-- REGISTER_WRITE (R13). A write of 1 to a W1C bit comes before a later event sets it again (R14); an offset that is no register's, a
misaligned one among them (R17), changes nothing. -/
def execRegisterWrite (dt : Nat) (offset : Nat) (value : W32) (s : State) : Out :=
  .next ((s.advance dt).bar0 (State.regWrite offset value))

end Sys2Proof.Machine
end

