-- ==== Sys2Proof/Machine/Rungs.lean ====
section
/-! DEFINITION. The power ladder (R483 to R488): RUNG_SET and the wake. -/

namespace Sys2Proof.Machine

/-! ## What a change of rung does -/

/-- The longest exit of a rung in ticks (Table 19.7). -/
def exitBound : Rung → Nat
  | .row => 0 | .paddle => 1500 | .drift => 15000 | .moored => 150000 | .ashore => 1500000

/-- RUNG_CHANGE (Table 19.9). -/
def State.rungChange (old new : Rung) (cause : Nat) (source : W16) (exit : Nat) (s : State) : State :=
  s.onHost fun h => h.event 0x004 0x8000 1 false s.dev.modeEpoch 0 ([w (rungCode old), w (rungCode new), w cause, source] ++ wordsOf 2 exit)

/-- An engine as the device leaves ROW: its operation is suspended at its block boundary. One whose second context is full stands still where it
is, and zeroing needs no key (R434). -/
def Engine.park (g : Engine) : Engine :=
  match g.active with
  | some o => if g.suspended.isSome || o.zeroing then g else { g with active := none, suspended := some o }
  | none => g

/-- The device leaves ROW: operations are suspended, and running checks complete (R434, R443). -/
def State.leaveRow (s : State) : State :=
  (List.range 8).foldl (fun s u => s.cuDone u) (s.onHost fun h => { h with engines := h.engines.map Engine.park })

/-- The device is in ROW again: suspended operations resume, unless an erase has ended them (R420, R434). -/
def State.resumeEngine (s : State) (e : Nat) : State :=
  let g := s.host.engine e
  if g.active.isSome then s
  else match g.suspended with
    | none => s
    | some _ => (s.onHost (HostSide.contextDone e)).resumed e

/-- The banks are at their operating voltage again: what waited meanwhile is served in its order (R406). -/
def State.serveHeld (s : State) : State :=
  s.host.mem.held.foldl (fun s a => s.serveAccess a) (s.onHost fun h => { h with mem := { h.mem with held := [] } })

/-- The device enters MOORED: every handover completes, and the barrier is suspended (R406, R483). -/
def State.enterMoored (s : State) : State :=
  let s := (List.range 32).foldl (fun s b => s.bankDrained b) s
  { s with link := { s.link with suspended := true } }

/-- The device enters ASHORE (R469, R483, Table 19.7): the host side loses the line side without SAFE, LINE_PWR_EN falls, and the line die and the
banks lose their supply (R406; log 8). -/
def State.enterAshore (s : State) : State :=
  let s := if s.link.host.up then (s.drainInbox.onHost (HostSide.raise 30)).hostCut s.host.follower else s
  let s := s.lineOff
  { s with dev := { s.dev with linePwrLow := true, lineRails := false, lineReset := false }, lbMem := [], hbMem := [],
           link := { s.link with suspended := false } }

/-- The device leaves MOORED: the link resumes, and each end has 100 µs from the start of the exit to hear a HEARTBEAT (R483). -/
def State.leaveMoored (began : Tick) (s : State) : State :=
  let now := s.line.clock.tb
  { s with link := { s.link with suspended := false,
                                 host := { s.link.host with lastValid := began + 105000, missedFrom := 0 },
                                 line := { s.link.line with lastValid := now + 105000, missedFrom := 0 } } }

/-- A port as ASHORE keeps it: H_SPn_CTRL, RATE, LINE, LIMITS and IE, the receive buffer with its timeout, and the receiver in the middle of the character
that woke the device (R373, R384, R488). -/
def Serial.afterAshore (p : Serial × Nat) : Serial :=
  let q := p.1
  { Serial.reset p.2 with ctrl := q.ctrl, rate := q.rate, line := q.line, limits := q.limits, ie := q.ie, rxFormat := (q.ctrl, q.rate),
                          txFormat := (q.ctrl, q.rate), fifo := q.fifo, lostPending := q.lostPending, lostSince := q.lostSince, rxd := q.rxd,
                          lineState := q.lineState, lowSince := q.lowSince, edge := q.edge, edgeFormat := q.edgeFormat, wakePending := q.wakePending, cts := q.cts,
                          timeout := q.timeout, stoppedTimeout := q.stoppedTimeout }

/-- The host memory registers after ASHORE: H_HBnn_OWN is kept (R406, R488). -/
def HostMem.afterAshore (m : HostMem) : HostMem :=
  { HostMem.reset with banks := m.banks.map fun (b : HostBank) => { b with handover := none, faults := Ctr.zero } }

/-- The host side after ASHORE (R434, R443, R488): every other register at its reset value. The commands that wait are those accepted since the wake;
the count of R522 and the timestamps go on (log 71). -/
def HostSide.afterAshore (h : HostSide) : HostSide :=
  let r := HostSide.reset
  { r with running := h.running, bootId := h.bootId, follower := h.follower, followerCoarse := h.followerCoarse, followerFree := h.followerFree, lastSync := h.lastSync, ppsOut := h.ppsOut,
           accepted := h.accepted, keys := h.keys.map (KeySlot.hostReset false), flash := h.flash, stamps := h.stamps, seqNext := h.seqNext,
           serials := h.serials.zipIdx.map Serial.afterAshore, mem := h.mem.afterAshore,
           eth := { r.eth with sent := h.eth.sent, answers := h.eth.answers }, ints := { r.ints with sent := h.ints.sent },
           sp0Sent := h.sp0Sent, jtag := h.jtag, tdo := h.tdo, readsDone := h.readsDone, freeCtr := h.freeCtr }

/-- The serial events that the always-on domain has produced since a wake from ASHORE began (R384, R387). -/
def HostSide.wakeRecords (began : Tick) (h : HostSide) : List Packet :=
  (((h.queue 0).pkts.map fun q => Packet.plain q.words) ++ (h.queue 0).hold).filter fun p =>
    ((nth p.words 0 0).toNat % 4096 == 0x240 || (nth p.words 0 0).toNat % 4096 == 0x241) && decide (began ≤ p.instant h.follower)

/-- A port counts again what such an event tells (Table 14.6). -/
def recount (p : Packet) (q : Serial) : Serial :=
  let field (i : Nat) : Nat := (nth p.words (10 + i) 0).toNat
  if (nth p.words 0 0).toNat % 4096 = 0x241 then (q.count 10 1).count 11 (field 2)
  else (q.count 8 (b2n (field 2 == 1))).count 9 (b2n (field 2 == 2))

/-- Such an event enters the event queue that the exit has reset, and the port shows it (log 136). -/
def HostSide.wakeAgain (h : HostSide) (p : Packet) : HostSide :=
  let n := p.source - 0x8300
  let bit := if (nth p.words 0 0).toNat % 4096 = 0x241 then 5 else 4
  ((h.modSp n (recount p)).place 0 { p with words := p.words.set 8 (h.sp n).queueEpoch }).spStatus n bit

/-- Whether the header of the host firmware's slot is still the one that the last boot chose (R488). -/
def State.headerKept (s : State) : Bool :=
  match s.host.flash.used 0 with
  | some i =>
    let x := s.host.flash.slot 0 i
    decide ((x.header.drop 16).take 32 = s.dev.bootDigest ∧ x.gen = s.dev.bootGen)
  | none => false

/-- The device leaves ASHORE with its header kept: the line side must be ready within 500 ms of the start of the exit (R488). -/
def State.leaveAshore (began : Tick) (s : State) : State :=
  { s with host := (s.host.wakeRecords began).foldl HostSide.wakeAgain (s.host.afterAshore.keyEvents 5 (keysOwed s.host.keys)),
           dev := { s.dev with linePwrLow := false, bootDeadline := some (began + 750000000) } }

/-- The rung itself. -/
def State.setRung (r : Rung) (s : State) : State := State.advance 0 { s with dev := { s.dev with rung := r } }

/-- What the device does as it leaves a rung. -/
def State.quitRung (old : Rung) (began : Tick) (s : State) : State :=
  match old with
  | .row => s.leaveRow
  | .moored => s.leaveMoored began |>.serveHeld
  | .ashore => s.leaveAshore began
  | .paddle => s
  | .drift => s

/-- What the device does as it enters a rung (Table 19.8). -/
def State.enterRung (new : Rung) (s : State) : State :=
  match new with
  | .row => ((List.range 16).foldl State.resumeEngine s).serveBuffered.readInputs
  | .paddle => s.serveBuffered.readInputs
  | .moored => s.enterMoored
  | .ashore => s.enterAshore
  | .drift => s

/-- The device goes from its rung to another; the exit or the entry began at an instant. -/
def State.moveRung (new : Rung) (began : Tick) (s : State) : State :=
  if s.dev.rung = new then s else ((s.quitRung s.dev.rung began).setRung new).enterRung new

/-- The reach HOST that R488 gives a header that differs; which of its codes RESET_DONE carries is open (log 72). -/
def State.headerReset (s : State) : State :=
  let code := if (Config.freeWord s.host.freeCtr).getLsbD 0 then 4 else 8
  (s.spend 1).hostReset code

/-! ## RUNG_SET -/

/-- Opcode 0x006 (Table 11.6). -/
def infoRungSet : CmdInfo := ⟨0x006, false, false, setAny⟩

/-- What RUNG_SET waits for when it leads down (R485). -/
def State.rungBusy (r : Rung) (s : State) : Bool :=
  decide (rungCode s.dev.rung < rungCode r)
    && (!s.line.sched.actions.isEmpty || !s.host.txq.isEmpty || !s.line.relay.copies.isEmpty
        || (r == .ashore && s.host.mem.banks.any fun b => b.handover.isSome))

/-- RUNG_SET, judged (R484, R485): a reserved rung is a host error. -/
def State.rungAnswer (cmd : Cmd) (s : State) : Answer :=
  match rungOf (bitsOf (cmd.word 3) 0 3) with
  | none => s.hostError 1
  | some r =>
    if !permits s.dev.mode r then ⟨.mode, [], s⟩
    else if s.rungBusy r then ⟨.busy, [], s⟩
    else ⟨.ok, [w (rungCode s.dev.rung)], s⟩

/-- The rung that a RUNG_SET moves the device to, if it is carried out. -/
def State.rungTarget (cmd : Cmd) (s : State) : Option Rung :=
  if s.actsNow infoRungSet cmd && (s.rungAnswer cmd).status == .ok then
    rungOf (bitsOf (cmd.word 3) 0 3)
  else none

/-- The wake-source mask is set; a wake under way is over once the device is in ROW (R486). -/
def Dev.armed (mask : W16) (r : Rung) (d : Dev) : Dev := { d with wakeMask := mask, exit := if r = .row then none else d.exit }

/-- The move of a RUNG_SET: up, the exit runs from the acceptance; down, the specification states no exit time (R483; log 5). -/
def State.rungMove (mask : W16) (r : Rung) (accepted : Tick) (s : State) : State :=
  let old := s.dev.rung
  let s := { s with dev := s.dev.armed mask r }
  if old = r then s
  else if old = .ashore ∧ s.headerKept = false then s.headerReset
  else
    let up := decide (rungCode r < rungCode old)
    let time := if up then (s.host.follower - accepted).toNat else (Config.freeLong (s.host.freeCtr + 1)).toNat
    let source := Config.freeWord s.host.freeCtr
    ((s.spend 2).moveRung r accepted).rungChange old r 0 source time

/-- RUNG_SET: answered before it acts (R484). -/
def State.rungSet (cmd : Cmd) (s : State) : State :=
  let s := s.takeCmd infoRungSet cmd (State.modeRef cmd)
  let target := s.rungTarget cmd
  let at_ := (s.host.acceptedFor 0x006 cmd).at_
  let s := s.runHeld infoRungSet cmd (State.modeRef cmd) (State.rungAnswer cmd)
  match target with
  | some r => (s.rungMove (w (cmd.word 4)) r at_).flush
  | none => s

/-- RUNG_SET (R484). -/
def execRungSet (dt : Nat) (cmd : Cmd) (s : State) : Out := .next ((s.advance dt).rungSet cmd)

/-! ## Wake -/

/-- Whether a source may wake the device now (R486, Table 19.8): named by the mask, a request to BAR0 or BAR2 while PCI Express is not off, or a
command other than RUNG_SET accepted. -/
def State.mayWake (source : Nat) (s : State) : Bool :=
  if source < 9 then s.dev.wakeMask.getLsbD source
  else if source = 9 then s.dev.wakeMask.getLsbD 9 && s.dev.rung == .drift
  else if source = 16 then s.dev.rung != .ashore && !s.linksStopped
  else source == 17 && s.host.accepted.any fun a => a.opcode != 0x006

/-- The exit to ROW (R483, R486): the earliest wake names it. Where the wake and the end of the exit are one step, the exit time is free within its
bound. -/
def State.wake (source : Nat) (s : State) : State :=
  let old := s.dev.rung
  if !s.hostOn || !s.host.running || old = .row || (s.dev.exit.isNone && !s.mayWake source) then s
  else
    let x := s.dev.exit.getD { began := s.host.follower, source := source }
    let time := if s.dev.exit.isSome then (s.host.follower - x.began).toNat
      else (Config.freeLong s.host.freeCtr).toNat % (exitBound old + 1)
    let s := ({ s with dev := { s.dev with exit := none } }).spend 1
    if old = .ashore ∧ s.headerKept = false then s.headerReset
    else (s.moveRung .row x.began).rungChange old .row 1 (w x.source) time

/-- RUNG_WAKE (R486). -/
def execRungWake (dt : Nat) (source : Nat) (s : State) : Out := .next ((s.advance dt).wake source).flush

end Sys2Proof.Machine
end

