-- ==== Sys2Proof/Machine/Dispatch.lean ====
section
/-! DEFINITION. exec: one arm per command. -/

namespace Sys2Proof.Machine

/-- The effect of a command on everything but the queue of waiting commands. -/
def exec (i : Instr) (s : State) : Host.Outcome State Fault Refusal :=
  match i with
  | .nop dt cmd => Sys2Proof.Machine.execNop dt cmd s
  | .identify dt cmd => Sys2Proof.Machine.execIdentify dt cmd s
  | .deviceStatus dt cmd => Sys2Proof.Machine.execDeviceStatus dt cmd s
  | .deviceConfigure dt cmd => Sys2Proof.Machine.execDeviceConfigure dt cmd s
  | .modeSet dt cmd => Sys2Proof.Machine.execModeSet dt cmd s
  | .quarantineRelease dt cmd => Sys2Proof.Machine.execQuarantineRelease dt cmd s
  | .rungSet dt cmd => Sys2Proof.Machine.execRungSet dt cmd s
  | .lineFirmwareUpdate dt cmd => Sys2Proof.Machine.execLineFirmwareUpdate dt cmd s
  | .flashProgram dt cmd => Sys2Proof.Machine.execFlashProgram dt cmd s
  | .reset dt cmd => Sys2Proof.Machine.execReset dt cmd s
  | .timeStatus dt cmd => Sys2Proof.Machine.execTimeStatus dt cmd s
  | .timeConfigure dt cmd => Sys2Proof.Machine.execTimeConfigure dt cmd s
  | .timeSet dt cmd => Sys2Proof.Machine.execTimeSet dt cmd s
  | .portTiming dt cmd => Sys2Proof.Machine.execPortTiming dt cmd s
  | .senseControl dt cmd => Sys2Proof.Machine.execSenseControl dt cmd s
  | .actionCancel dt cmd => Sys2Proof.Machine.execActionCancel dt cmd s
  | .scheduleStatus dt cmd => Sys2Proof.Machine.execScheduleStatus dt cmd s
  | .portConfigure dt cmd => Sys2Proof.Machine.execPortConfigure dt cmd s
  | .portMute dt cmd => Sys2Proof.Machine.execPortMute dt cmd s
  | .portUnmute dt cmd => Sys2Proof.Machine.execPortUnmute dt cmd s
  | .portRearm dt cmd => Sys2Proof.Machine.execPortRearm dt cmd s
  | .portMask dt cmd => Sys2Proof.Machine.execPortMask dt cmd s
  | .portStatus dt cmd => Sys2Proof.Machine.execPortStatus dt cmd s
  | .channelPlace dt cmd => Sys2Proof.Machine.execChannelPlace dt cmd s
  | .channelMode dt cmd => Sys2Proof.Machine.execChannelMode dt cmd s
  | .channelStatus dt cmd => Sys2Proof.Machine.execChannelStatus dt cmd s
  | .noiseMapConfigure dt cmd => Sys2Proof.Machine.execNoiseMapConfigure dt cmd s
  | .noiseMapRead dt cmd => Sys2Proof.Machine.execNoiseMapRead dt cmd s
  | .linkTableRead dt cmd => Sys2Proof.Machine.execLinkTableRead dt cmd s
  | .linkVerdict dt cmd => Sys2Proof.Machine.execLinkVerdict dt cmd s
  | .linkPin dt cmd => Sys2Proof.Machine.execLinkPin dt cmd s
  | .frameSubmit dt cmd => Sys2Proof.Machine.execFrameSubmit dt cmd s
  | .hamperSubmit dt cmd => Sys2Proof.Machine.execHamperSubmit dt cmd s
  | .transmitAbort dt cmd => Sys2Proof.Machine.execTransmitAbort dt cmd s
  | .relayConfigure dt cmd => Sys2Proof.Machine.execRelayConfigure dt cmd s
  | .floodGroupSet dt cmd => Sys2Proof.Machine.execFloodGroupSet dt cmd s
  | .floodGroupRead dt cmd => Sys2Proof.Machine.execFloodGroupRead dt cmd s
  | .relayTableWrite dt cmd => Sys2Proof.Machine.execRelayTableWrite dt cmd s
  | .relayTableRead dt cmd => Sys2Proof.Machine.execRelayTableRead dt cmd s
  | .relayStatus dt cmd => Sys2Proof.Machine.execRelayStatus dt cmd s
  | .lineMemoryStatus dt cmd => Sys2Proof.Machine.execLineMemoryStatus dt cmd s
  | .marchControl dt cmd => Sys2Proof.Machine.execMarchControl dt cmd s
  | .testLoopback dt cmd => Sys2Proof.Machine.execTestLoopback dt cmd s
  | .lineMemoryRead dt cmd => Sys2Proof.Machine.execLineMemoryRead dt cmd s
  | .keySlotStatus dt cmd => Sys2Proof.Machine.execKeySlotStatus dt cmd s
  | .keyErase dt cmd => Sys2Proof.Machine.execKeyErase dt cmd s
  | .cipherRun dt cmd => Sys2Proof.Machine.execCipherRun dt cmd s
  | .alarmConfigure dt cmd => Sys2Proof.Machine.execAlarmConfigure dt cmd s
  | .alarmStatus dt cmd => Sys2Proof.Machine.execAlarmStatus dt cmd s
  | .cipherStatus dt cmd => Sys2Proof.Machine.execCipherStatus dt cmd s
  | .serialRoute dt cmd => Sys2Proof.Machine.execSerialRoute dt cmd s
  | .serialStatus dt cmd => Sys2Proof.Machine.execSerialStatus dt cmd s
  | .diagStatus dt cmd => Sys2Proof.Machine.execDiagStatus dt cmd s
  | .barrierStatus dt cmd => Sys2Proof.Machine.execBarrierStatus dt cmd s
  | .routeSet dt cmd => Sys2Proof.Machine.execRouteSet dt cmd s
  | .commandRingDoorbell dt request prod => Sys2Proof.Machine.execCommandRingDoorbell dt request prod s
  | .udpDatagramReceive dt src port bytes => Sys2Proof.Machine.execUdpDatagramReceive dt src port bytes s
  | .sp0FrameReceive dt bytes => Sys2Proof.Machine.execSp0FrameReceive dt bytes s
  | .modeChangeAtLaunch dt action => Sys2Proof.Machine.execModeChangeAtLaunch dt action s
  | .enterMaintain dt action => Sys2Proof.Machine.execEnterMaintain dt action s
  | .lineFirmwareStarted dt => Sys2Proof.Machine.execLineFirmwareStarted dt s
  | .firmwareImageFailed dt => Sys2Proof.Machine.execFirmwareImageFailed dt s
  | .portMuteTakesEffect dt action => Sys2Proof.Machine.execPortMuteTakesEffect dt action s
  | .portUnmuteTakesEffect dt action => Sys2Proof.Machine.execPortUnmuteTakesEffect dt action s
  | .placementTakesEffect dt action => Sys2Proof.Machine.execPlacementTakesEffect dt action s
  | .channelModeTakesEffect dt action => Sys2Proof.Machine.execChannelModeTakesEffect dt action s
  | .deferredChannelAction dt action => Sys2Proof.Machine.execDeferredChannelAction dt action s
  | .fixPoint dt action => Sys2Proof.Machine.execFixPoint dt action s
  | .residencyCheck dt action index => Sys2Proof.Machine.execResidencyCheck dt action index s
  | .frameDownSend dt => Sys2Proof.Machine.execFrameDownSend dt s
  | .frameDownReceive dt => Sys2Proof.Machine.execFrameDownReceive dt s
  | .drvenRise dt port channel => Sys2Proof.Machine.execDrvenRise dt port channel s
  | .frameLaunch dt action index => Sys2Proof.Machine.execFrameLaunch dt action index s
  | .transmitFrameEnd dt ending => Sys2Proof.Machine.execTransmitFrameEnd dt ending s
  | .drvenFall dt port => Sys2Proof.Machine.execDrvenFall dt port s
  | .onAirEndingComplete dt port channel => Sys2Proof.Machine.execOnAirEndingComplete dt port channel s
  | .drvfltAssert dt port => Sys2Proof.Machine.execDrvfltAssert dt port s
  | .drvfltAccepted dt port => Sys2Proof.Machine.execDrvfltAccepted dt port s
  | .ilimWindow dt port window => Sys2Proof.Machine.execIlimWindow dt port window s
  | .impedanceBlock dt port channel block => Sys2Proof.Machine.execImpedanceBlock dt port channel block s
  | .cplSettleEnd dt port => Sys2Proof.Machine.execCplSettleEnd dt port s
  | .selfOverlapHoldEnd dt channel => Sys2Proof.Machine.execSelfOverlapHoldEnd dt channel s
  | .ppsEdge dt highNs => Sys2Proof.Machine.execPpsEdge dt highNs s
  | .ppsLossTimeout dt => Sys2Proof.Machine.execPpsLossTimeout dt s
  | .ptpMessage dt msg => Sys2Proof.Machine.execPtpMessage dt msg s
  | .ptpSyncTimeout dt => Sys2Proof.Machine.execPtpSyncTimeout dt s
  | .beaconSourceTimeout dt => Sys2Proof.Machine.execBeaconSourceTimeout dt s
  | .timebaseStep dt => Sys2Proof.Machine.execTimebaseStep dt s
  | .timeSyncSend dt => Sys2Proof.Machine.execTimeSyncSend dt s
  | .timeSyncReceive dt => Sys2Proof.Machine.execTimeSyncReceive dt s
  | .ppsOutEdge dt => Sys2Proof.Machine.execPpsOutEdge dt s
  | .timeSetTimeout dt => Sys2Proof.Machine.execTimeSetTimeout dt s
  | .ref10mChange dt inTolerance rate => Sys2Proof.Machine.execRef10mChange dt inTolerance rate s
  | .zeroCrossing dt input edge => Sys2Proof.Machine.execZeroCrossing dt input edge s
  | .senseLossTimeout dt input => Sys2Proof.Machine.execSenseLossTimeout dt input s
  | .strokeBoundary dt boundary => Sys2Proof.Machine.execStrokeBoundary dt boundary s
  | .gridStep dt => Sys2Proof.Machine.execGridStep dt s
  | .strokeSource dt port => Sys2Proof.Machine.execStrokeSource dt port s
  | .beaconOriginate dt => Sys2Proof.Machine.execBeaconOriginate dt s
  | .beaconReceived dt => Sys2Proof.Machine.execBeaconReceived dt s
  | .coxRankExpiry dt node => Sys2Proof.Machine.execCoxRankExpiry dt node s
  | .timeTransferRequest dt => Sys2Proof.Machine.execTimeTransferRequest dt s
  | .timeTransferRequestReceived dt => Sys2Proof.Machine.execTimeTransferRequestReceived dt s
  | .timeTransferReply dt => Sys2Proof.Machine.execTimeTransferReply dt s
  | .timeTransferReplyReceived dt => Sys2Proof.Machine.execTimeTransferReplyReceived dt s
  | .crewHold dt => Sys2Proof.Machine.execCrewHold dt s
  | .islandDelayExpiry dt => Sys2Proof.Machine.execIslandDelayExpiry dt s
  | .syncCandidate dt channel cand => Sys2Proof.Machine.execSyncCandidate dt channel cand s
  | .headerTest dt channel context test => Sys2Proof.Machine.execHeaderTest dt channel context test s
  | .wash dt channel context rx => Sys2Proof.Machine.execWash dt channel context rx s
  | .codewordEnd dt channel frame end_ => Sys2Proof.Machine.execCodewordEnd dt channel frame end_ s
  | .committedFrameEnd dt channel ending => Sys2Proof.Machine.execCommittedFrameEnd dt channel ending s
  | .noiseMapObservation dt port phaseBin passage => Sys2Proof.Machine.execNoiseMapObservation dt port phaseBin passage s
  | .relayEngineTakeUp dt => Sys2Proof.Machine.execRelayEngineTakeUp dt s
  | .relayStageCheck dt copy staged => Sys2Proof.Machine.execRelayStageCheck dt copy staged s
  | .relayFixCheck dt copy => Sys2Proof.Machine.execRelayFixCheck dt copy s
  | .relayResidencyCheck dt copy => Sys2Proof.Machine.execRelayResidencyCheck dt copy s
  | .relayLaunch dt copy => Sys2Proof.Machine.execRelayLaunch dt copy s
  | .unicastLegLaunch dt copy => Sys2Proof.Machine.execUnicastLegLaunch dt copy s
  | .linkReportSend dt channel => Sys2Proof.Machine.execLinkReportSend dt channel s
  | .linkReportReceived dt => Sys2Proof.Machine.execLinkReportReceived dt s
  | .linkAgeExpiry dt index => Sys2Proof.Machine.execLinkAgeExpiry dt index s
  | .linkRemoval dt index => Sys2Proof.Machine.execLinkRemoval dt index s
  | .verdictDecay dt index => Sys2Proof.Machine.execVerdictDecay dt index s
  | .hopAgeExpiry dt index => Sys2Proof.Machine.execHopAgeExpiry dt index s
  | .marginMeasure dt die margin => Sys2Proof.Machine.execMarginMeasure dt die margin s
  | .heartbeatSend dt die => Sys2Proof.Machine.execHeartbeatSend dt die s
  | .heartbeatReceive dt die valid => Sys2Proof.Machine.execHeartbeatReceive dt die valid s
  | .heartbeatTimeout dt die => Sys2Proof.Machine.execHeartbeatTimeout dt die s
  | .retryTimeout dt die seq => Sys2Proof.Machine.execRetryTimeout dt die seq s
  | .barrierMessageReceive dt die lane seq crcOk => Sys2Proof.Machine.execBarrierMessageReceive dt die lane seq crcOk s
  | .laneRetrain dt die lane good => Sys2Proof.Machine.execLaneRetrain dt die lane good s
  | .timingLaneFail dt => Sys2Proof.Machine.execTimingLaneFail dt s
  | .timingLaneMeasure dt delay => Sys2Proof.Machine.execTimingLaneMeasure dt delay s
  | .barrierNoteClose dt => Sys2Proof.Machine.execBarrierNoteClose dt s
  | .frameUpReceive dt => Sys2Proof.Machine.execFrameUpReceive dt s
  | .eventMessageReceive dt => Sys2Proof.Machine.execEventMessageReceive dt s
  | .replyLineReceive dt => Sys2Proof.Machine.execReplyLineReceive dt s
  | .alarmMessageReceive dt => Sys2Proof.Machine.execAlarmMessageReceive dt s
  | .alarmRaised dt source => Sys2Proof.Machine.execAlarmRaised dt source s
  | .diePowered dt die => Sys2Proof.Machine.execDiePowered dt die s
  | .railOutOfRange dt die => Sys2Proof.Machine.execRailOutOfRange dt die s
  | .resetN dt => Sys2Proof.Machine.execResetN dt s
  | .perstN dt => Sys2Proof.Machine.execPerstN dt s
  | .hostWatchdog dt => Sys2Proof.Machine.execHostWatchdog dt s
  | .lineWatchdog dt => Sys2Proof.Machine.execLineWatchdog dt s
  | .resetPattern dt => Sys2Proof.Machine.execResetPattern dt s
  | .hostFirmwareCheck dt => Sys2Proof.Machine.execHostFirmwareCheck dt s
  | .lineImageLoaded dt => Sys2Proof.Machine.execLineImageLoaded dt s
  | .lineReady dt => Sys2Proof.Machine.execLineReady dt s
  | .lineNotReady dt => Sys2Proof.Machine.execLineNotReady dt s
  | .rungWake dt source => Sys2Proof.Machine.execRungWake dt source s
  | .flashDone dt => Sys2Proof.Machine.execFlashDone dt s
  | .bankHandover dt bank value => Sys2Proof.Machine.execBankHandover dt bank value s
  | .marchFailedClear dt bank => Sys2Proof.Machine.execMarchFailedClear dt bank s
  | .bankOwner dt bank => Sys2Proof.Machine.execBankOwner dt bank s
  | .bar2Access dt offset access => Sys2Proof.Machine.execBar2Access dt offset access s
  | .bankAccess dt request => Sys2Proof.Machine.execBankAccess dt request s
  | .marchBorrow dt die fail => Sys2Proof.Machine.execMarchBorrow dt die fail s
  | .queueWindowRead dt queue => Sys2Proof.Machine.execQueueWindowRead dt queue s
  | .stalledReadComplete dt queue => Sys2Proof.Machine.execStalledReadComplete dt queue s
  | .stallLimitExpiry dt queue => Sys2Proof.Machine.execStallLimitExpiry dt queue s
  | .queueReset dt queue => Sys2Proof.Machine.execQueueReset dt queue s
  | .queueHoldDrain dt queue => Sys2Proof.Machine.execQueueHoldDrain dt queue s
  | .queueLostRead dt queue => Sys2Proof.Machine.execQueueLostRead dt queue s
  | .queueHwmRead dt queue => Sys2Proof.Machine.execQueueHwmRead dt queue s
  | .deviceRingWrite dt request => Sys2Proof.Machine.execDeviceRingWrite dt request s
  | .ringEnable dt ring value => Sys2Proof.Machine.execRingEnable dt ring value s
  | .ringHoldoffEnd dt ring => Sys2Proof.Machine.execRingHoldoffEnd dt ring s
  | .intCauseWrite dt value => Sys2Proof.Machine.execIntCauseWrite dt value s
  | .intMaskWrite dt value => Sys2Proof.Machine.execIntMaskWrite dt value s
  | .timeLoRead dt => Sys2Proof.Machine.execTimeLoRead dt s
  | .memCdataRead dt => Sys2Proof.Machine.execMemCdataRead dt s
  | .registerWrite dt offset value => Sys2Proof.Machine.execRegisterWrite dt offset value s
  | .serialStartEdge dt edge => Sys2Proof.Machine.execSerialStartEdge dt edge s
  | .serialCharacter dt port char => Sys2Proof.Machine.execSerialCharacter dt port char s
  | .serialRxDma dt port => Sys2Proof.Machine.execSerialRxDma dt port s
  | .serialRxTimeout dt port => Sys2Proof.Machine.execSerialRxTimeout dt port s
  | .serialBreak dt line => Sys2Proof.Machine.execSerialBreak dt line s
  | .serialStuck dt line => Sys2Proof.Machine.execSerialStuck dt line s
  | .serialIdle dt line => Sys2Proof.Machine.execSerialIdle dt line s
  | .serialRxRelease dt port value => Sys2Proof.Machine.execSerialRxRelease dt port value s
  | .serialTxDescriptor dt port value => Sys2Proof.Machine.execSerialTxDescriptor dt port value s
  | .serialTxCharacterEnd dt port => Sys2Proof.Machine.execSerialTxCharacterEnd dt port s
  | .serialTxBreakSet dt port => Sys2Proof.Machine.execSerialTxBreakSet dt port s
  | .serialTxBreakClear dt port => Sys2Proof.Machine.execSerialTxBreakClear dt port s
  | .serialBreakHoldEnd dt port => Sys2Proof.Machine.execSerialBreakHoldEnd dt port s
  | .serialTxDisable dt port => Sys2Proof.Machine.execSerialTxDisable dt port s
  | .serialRxDisable dt port => Sys2Proof.Machine.execSerialRxDisable dt port s
  | .serialFormatChange dt port rateReg value => Sys2Proof.Machine.execSerialFormatChange dt port rateReg value s
  | .serialDeTailEnd dt port => Sys2Proof.Machine.execSerialDeTailEnd dt port s
  | .serialCtsChange dt port high => Sys2Proof.Machine.execSerialCtsChange dt port high s
  | .serialRxqRead dt port => Sys2Proof.Machine.execSerialRxqRead dt port s
  | .serialRxqReset dt port => Sys2Proof.Machine.execSerialRxqReset dt port s
  | .cipherOpStart dt engine => Sys2Proof.Machine.execCipherOpStart dt engine s
  | .cipherSuspend dt engine => Sys2Proof.Machine.execCipherSuspend dt engine s
  | .cipherRelease dt engine => Sys2Proof.Machine.execCipherRelease dt engine s
  | .cipherOpEnd dt engine => Sys2Proof.Machine.execCipherOpEnd dt engine s
  | .cipherZeroingDone dt engine => Sys2Proof.Machine.execCipherZeroingDone dt engine s
  | .keyStagingWrite dt slot word value => Sys2Proof.Machine.execKeyStagingWrite dt slot word value s
  | .keyCommit dt slot value => Sys2Proof.Machine.execKeyCommit dt slot value s
  | .cuGo dt unit value => Sys2Proof.Machine.execCuGo dt unit value s
  | .cuAbort dt unit => Sys2Proof.Machine.execCuAbort dt unit s
  | .cuRunDone dt unit => Sys2Proof.Machine.execCuRunDone dt unit s
  | .cuStatusRead dt unit => Sys2Proof.Machine.execCuStatusRead dt unit s
  | .ethFrameReceive dt frame => Sys2Proof.Machine.execEthFrameReceive dt frame s
  | .arpRetry dt => Sys2Proof.Machine.execArpRetry dt s
  | .ethLinkChange dt up => Sys2Proof.Machine.execEthLinkChange dt up s
  | .i2cWrite dt transfer => Sys2Proof.Machine.execI2cWrite dt transfer s
  | .i2cResetReq dt => Sys2Proof.Machine.execI2cResetReq dt s
  | .jtagInstruction dt instr => Sys2Proof.Machine.execJtagInstruction dt instr s
  | .drvfltDeassert dt port => Sys2Proof.Machine.execDrvfltDeassert dt port s
  | .alarmSourceInactive dt source => Sys2Proof.Machine.execAlarmSourceInactive dt source s
  | .lineAlarmDetected dt => Sys2Proof.Machine.execLineAlarmDetected dt s
  | .serialFalseStart dt start => Sys2Proof.Machine.execSerialFalseStart dt start s
  | .resetNRelease dt => Sys2Proof.Machine.execResetNRelease dt s

end Sys2Proof.Machine
end

