-- ==== Sys2Proof/Safety.lean ====
section
/-! DEFINITION. What a safe run means for the claims, and the conditions under which the claims say that a command has its effect. -/

namespace Sys2Proof.Safety

open Sys2Proof.Machine

/-- A step that answers a next state. -/
def goesOn (s : State) : Prop := ∃ t, step s = .next t

/-- The three memories are in the canonical form. -/
abbrev canonical (s : State) : Prop := s.hbMem.wf = true ∧ s.lbMem.wf = true ∧ s.hostRam.wf = true

/-- The acceptance that a command row executes (R80, R308). -/
abbrev acceptance (info : CmdInfo) (cmd : Cmd) (s : State) : Accepted := s.host.acceptedFor info.opcode cmd

/-- A command of side H comes to its own rules (R303, R308, R311, R315, R486): it is served, has been accepted and waits, it is its turn, its mode set admits
it, and no expected epoch differs from that of its unit. -/
abbrev taken (info : CmdInfo) (cmd : Cmd) (r : EpochRef) (s : State) : Prop :=
  s.serves info.opcode = true ∧ s.host.holds info.opcode cmd = true ∧ s.inTurn false (acceptance info cmd s) r = true ∧ s.judge info = none ∧ epochDiffers cmd r.epoch = false

/-- A command of side L crosses to the line side (R22, R311, R452): it is served, has been accepted and not been sent, it is its turn, and its mode set and
side admit it. -/
abbrev crosses (info : CmdInfo) (cmd : Cmd) (r : EpochRef) (s : State) : Prop :=
  s.arrived info.opcode cmd = none ∧ s.serves info.opcode = true ∧ s.host.waits info.opcode cmd = false
    ∧ s.host.holds info.opcode cmd = true ∧ s.inTurn true (acceptance info cmd s) r = true ∧ s.judge info = none

/-- A command of side L comes to its own rules (R299, R311, R447): its CMD_LINE is the one that the line side takes up next, no scheduled action of its
unit is due, and no expected epoch differs from that of its unit. `got` is the acceptance, with the barrier end that the line side leaves. -/
abbrev takenL (info : CmdInfo) (cmd : Cmd) (r : EpochRef) (got : Accepted × BarrierEnd) (s : State) : Prop :=
  s.arrived info.opcode cmd = some got ∧ s.line.actionDue r.kind r.unit = false ∧ epochDiffers cmd r.epoch = false

/-- A reply with `n` result words fits the transport of its command (R301, R306). -/
abbrev fits (cmd : Cmd) (n : Nat) (s : State) : Prop := s.host.replyFits cmd.via (16 + n) = true

/-- A state once the line side has taken a CMD_LINE from the barrier (R447). -/
abbrev crossing (got : Accepted × BarrierEnd) (s : State) : State := { s with link := { s.link with line := got.2 } }

/-- A command of side H that began in a state `u` is answered OK with result words in a state `t`, and the command processors read on. -/
abbrev doneH (i : Instr) (info : CmdInfo) (cmd : Cmd) (unit : State → EpochRef) (s u t : State) (ws : List W16) : Prop :=
  exec i s = .next (t.answerSince info (acceptance info cmd u) (unit t) .ok ws u).readInputs

/-- A command of side L, executed in a state `c`, is answered OK with result words in a state `t`. -/
abbrev doneL (i : Instr) (info : CmdInfo) (got : Accepted × BarrierEnd) (unit : State → EpochRef) (s c t : State) (ws : List W16) : Prop :=
  exec i s = .next (t.answerL info got.1 (unit t) .ok ws c)

/-- The memories and key slots stay, and the mode with them. -/
abbrev keepsStores (s t : State) : Prop :=
  t.hbMem = s.hbMem ∧ t.lbMem = s.lbMem ∧ t.hostRam = s.hostRam ∧ t.host.keys = s.host.keys ∧ t.pending = s.pending

/-- The lists of the state have the sizes of the block: ports, channels, sense inputs, line bank marks, queues, rings, serial ports, key slots,
engines, check units, host banks and flash slots. -/
abbrev sized (s : State) : Prop :=
  s.line.ports.length = 96 ∧ s.line.chans.length = 256 ∧ s.line.time.sense.length = 6 ∧ s.line.mem.marked.length = 68
    ∧ s.line.mem.vital.length = 68 ∧ s.host.queues.length = 6 ∧ s.host.rings.length = 6 ∧ s.host.serials.length = 8
    ∧ s.host.keys.length = 64 ∧ s.host.engines.length = 16 ∧ s.host.cus.length = 8 ∧ s.host.mem.banks.length = 32
    ∧ s.host.flash.slots.length = 6

/-- The action that a scheduled command asks for, before it is judged (R76, R94). -/
abbrev draft (acc : Accepted) (spec : LaunchSpec) (kind : ActKind) (refPort : Nat) (s : State) : Action :=
  { id := s.line.sched.nextId, tag := acc.cmd.tag, via := acc.cmd.via, kind := kind, spec := spec, refPort := refPort, accepted := acc.at_,
    n0 := 0, slipped := 0, launch := 0, fixed := false, expEpoch := if acc.cmd.expect then acc.cmd.params.getLast? else none, deferred := none,
    late := false, frames := [] }

/-- An accepted action waits in the scheduler (R91). -/
abbrev queued (b : Action) (s : State) : State := { s with line := s.line.enqueue b }

/-- The action that a frame command asks for, before it is judged (R76, R230). -/
abbrev frameDraft (acc : Accepted) (spec : LaunchSpec) (hamper : Bool) (ds : List FrameDesc) (s : State) : Action :=
  { id := s.line.sched.nextId, tag := acc.cmd.tag, via := acc.cmd.via, kind := .frames hamper, spec := spec,
    refPort := (s.line.chan ((ds.head?.map (·.chan)).getD 0)).refPort, accepted := acc.at_, n0 := 0, slipped := 0, launch := 0, fixed := false,
    expEpoch := none, deferred := none, late := false,
    frames := ds.zipIdx.map fun d => { desc := d.1, payload := none, seed := 0, launched := false, ended := false, touched := acc.touched.contains d.2 } }

/-- The frames of an accepted command with their SEQ and SRC (R229). -/
abbrev numbered (s : State) (es : List FrameDesc) : List FrameDesc :=
  es.zipIdx.map fun d => { d.1 with seq := s.host.seqNext + BitVec.ofNat 16 d.2, src := s.line.nodeId }

/-- A scheduled command of the shape `row` that has crossed: once its operands are legal and its action is judged acceptable, the action waits and the
reply is ACCEPTED with its launch instant and its slips, and carries the action's note to the host side (R76, R80, R91, R455). `kind` reads the action
from the operands, `ref` its reference port. -/
abbrev schedules (row : Nat → Cmd → Instr) (info : CmdInfo) (kind : Cmd → Option ActKind) (ref : Cmd → State → Nat)
    (unit : Cmd → State → EpochRef) (legal : Cmd → State → Prop) : Prop :=
  ∀ (dt : Nat) (cmd : Cmd) (s : State) (got : Accepted × BarrierEnd) (spec : LaunchSpec) (k : ActKind) (b : Action),
    let u := s.advance dt
    let c := crossing got u
    u.arrived info.opcode cmd = some got → parseSpec cmd = some spec → kind cmd = some k → legal cmd s →
      u.line.judgeAction (draft got.1 spec k (ref cmd s) u) = (.accepted, some b) → fits cmd 5 c →
      exec (row dt cmd) s = .next ((queued b c).answerL info got.1 (unit cmd (queued b c)) .accepted (tickWords b.launch ++ [w b.slipped]) c)

/-- The host side is served through BAR0: its die runs, in ROW, its links not stopped (R345, R363, R486). -/
abbrev reachable (s : State) : Prop := s.hostOn = true ∧ s.dev.rung = .row ∧ s.linksStopped = false

/-- Of what the command processors read, nothing waits on the other command ring nor on UDP (R309, R351). -/
abbrev othersIdle (r : Nat) (s : State) : Prop := (s.host.ring (1 - r)).prod = (s.host.ring (1 - r)).cons ∧ s.host.eth.waiting = []

/-- Everything but the host side stays. -/
abbrev onlyHost (s t : State) : Prop :=
  t.dev = s.dev ∧ t.line = s.line ∧ t.link = s.link ∧ t.hbMem = s.hbMem ∧ t.lbMem = s.lbMem ∧ t.hostRam = s.hostRam ∧ t.pending = s.pending

/-- Everything but the line side, and the messages that leave it, stays. -/
abbrev onlyLine (s t : State) : Prop :=
  t.dev = s.dev ∧ t.host = s.host ∧ t.link.host = s.link.host ∧ t.link.timingUp = s.link.timingUp ∧ t.link.suspended = s.link.suspended
    ∧ t.link.ctrs = s.link.ctrs ∧ t.hbMem = s.hbMem ∧ t.lbMem = s.lbMem ∧ t.hostRam = s.hostRam ∧ t.pending = s.pending

/-- The plan without the frames of a type that a launch on a channel takes out. -/
abbrev ownPlan (o : OwnFrame) (l : Line) : List OwnFrame :=
  l.time.planned.filter fun p => !(p.chan == o.chan && p.type == o.type && decide (p.launch ≤ l.clock.tb))

/-- The header of a frame of the device's own that launches now: SEED from the channel's count, TXB at RELAY_LEVEL (R156, R235). -/
abbrev ownHeader (o : OwnFrame) (l : Line) : Nat :=
  makeHeader l.netId o.type o.mod o.rate o.lift (o.bytes.length - 1) ((l.chan o.chan).origin.toNat % 4096)
    (l.txbFor o.type o.chan ((l.chan o.chan).row 20)) false

/-- The end of that frame (R145). -/
abbrev ownEnd (o : OwnFrame) (l : Line) : Tick :=
  let h := ownHeader o l
  frameEnd l.clock.tb (l.chan o.chan).rateK (frameSymbols (hdrMod h) (hdrRate h) (hdrLift h) (hdrLen h))

/-- A frame of the device's own can go on air: its channel is free, no fixed report of the channel overlaps it, it lasts no more than 10 s, and a port of
the set transmits (R117, R156, R187, R262). -/
abbrev startsOwn (o : OwnFrame) (mode : Mode) (l : Line) : Prop :=
  o.chan < 256 ∧ (l.chan o.chan).onAir = none
    ∧ (∀ r ∈ ownPlan o l, r.chan = o.chan → r.type = 0 → ownEnd o l ≤ r.launch ∨ r.launch + l.ownTicks r ≤ l.clock.tb)
    ∧ tooLong (l.chan o.chan).rateK o.mod o.rate o.lift (o.bytes.length - 1) = false
    ∧ (l.airEntries mode o.chan ((l.chan o.chan).row 20) o.port).any (·.started) = true

/-- A frame of the device's own leaves the plan and goes on air with its header and frame check (R156, R170, R174, R262). -/
abbrev launchesOwn (o : OwnFrame) (mode : Mode) (l l' : Line) : Prop :=
  l'.time.planned = ownPlan o l ∧ (l'.chan o.chan).origin = (l.chan o.chan).origin + 1
    ∧ (l'.chan o.chan).ctrs9 = (if o.type = 0 then countAt 0 32 1 (l.chan o.chan).ctrs9 else (l.chan o.chan).ctrs9) ∧ (∀ c, c ≠ o.chan → (l'.chan c).onAir = (l.chan c).onAir)
    ∧ ∃ a, (l'.chan o.chan).onAir = some a ∧ a.kind = .own o.type ∧ a.bytes = withCheck (hopDest o.bytes) (hopSeq o.bytes) o.bytes
        ∧ a.hdr = ownHeader o l ∧ a.launch = l.clock.tb ∧ a.endAt = ownEnd o l ∧ a.entries = l.airEntries mode o.chan ((l.chan o.chan).row 20) o.port

/-- Only port SPn of the serial ports changes, and of the device nothing but its host side. -/
abbrev onlySp (n : Nat) (s t : State) : Prop :=
  onlyHost s t ∧ (∀ m, m ≠ n → t.host.sp m = s.host.sp m) ∧ t.host.keys = s.host.keys ∧ t.host.txq = s.host.txq ∧ t.host.accepted = s.host.accepted
    ∧ t.host.follower = s.host.follower

end Sys2Proof.Safety
end

