-- ==== Sys2Proof/Certificates/Slice0/Obligations.lean ====
section
/-! DEFINITION. The statements for the provers. Each formalises rules of the spec; its docstring names the log entries that a clause rests on. -/

open Sys2Proof Sys2Proof.Machine Sys2Proof.Safety

/-! ## The queue of commands, and commands in general -/

/-- A step runs the command at the front on the state with the rest of the queue; with none it idles (the model's choice). Where the specification leaves
a point open it rests on the model's choice in log 3. -/
def Obligations.StepRunsTheFrontCommand : Prop :=
  (∀ (c : Instr) (rest : List Instr) (s : State), step { s with pending := c :: rest } = exec c { s with pending := rest })
  ∧ ∀ s : State, s.pending = [] → step s = .next s

/-- No command stops the machine, and none touches the queue of waiting commands. Where the specification leaves a point open it rests on the model's
choice in logs 2 and 3. -/
def Obligations.EveryCommandGoesOnAndKeepsTheQueue : Prop :=
  ∀ (c : Instr) (s : State), ∃ t, exec c s = .next t ∧ t.pending = s.pending

/-- Every step from a state with canonical memories leaves them canonical. -/
def Obligations.StepKeepsMemoriesCanonical : Prop :=
  ∀ s t : State, canonical s → step s = .next t → canonical t

/-- A byte written is read back, every other address keeps its byte, and writing changes no canonical memory into another. Two canonical memories that
read alike everywhere are equal. It formalises parts of R389, R397. Where the specification leaves a point open it rests on the model's choice in log
8. -/
def Obligations.MemoriesReadBackAndAreDeterminedByTheirReads : Prop :=
  (∀ (m : Memory) (a b : Nat) (x : Byte), m.wf = true → (m.write a x).read b = if b = a then x else m.read b)
  ∧ ∀ (m : Memory) (a n : Nat) (bs : List Byte), m.wf = true → bs.length = n →
      (m.writeN a bs).readN a n = bs ∧ ∀ b, (b < a ∨ a + n ≤ b) → (m.writeN a bs).read b = m.read b
  ∧ (∀ m n : Memory, m.wf = true → n.wf = true → (∀ a, m.read a = n.read a) → m = n)

/-! ## Commands of the host side that only report -/

/-- NOP echoes its parameter words; IDENTIFY, DEVICE_STATUS and ALARM_STATUS report and change nothing but the reply's own traces. KEY_SLOT_STATUS gives
six words a slot; CIPHER_STATUS, SERIAL_STATUS, DIAG_STATUS and BARRIER_STATUS give the counters, and clear them when CLR is set. It formalises parts
of R26, R300. Where the specification leaves a point open it rests on the model's choice in logs 24, 68, 69 and 78. -/
def Obligations.HostStatusCommandsReport : Prop :=
  (∀ (dt : Nat) (cmd : Cmd) (s : State),
    let u := s.advance dt
    let ws := if cmd.expect then cmd.params.dropLast else cmd.params
    ws.length ≤ 64 → taken infoNop cmd (State.modeRef cmd u) u → fits cmd ws.length u →
      exec (.nop dt cmd) s = .next (u.answerH infoNop (acceptance infoNop cmd u) (u.modeRef cmd) .ok ws).readInputs)
  ∧ (∀ (dt : Nat) (cmd : Cmd) (s : State),
    let u := s.advance dt
    taken infoIdentify cmd (State.modeRef cmd u) u → fits cmd 13 u →
      exec (.identify dt cmd) s = .next (u.answerH infoIdentify (acceptance infoIdentify cmd u) (u.modeRef cmd) .ok
        ([0x9625, w (0xB000 + b2n s.dev.gradeE)] ++ releaseWords (s.host.flash.usedRelease 0)
          ++ releaseWords (if s.linePresent then s.line.release else 0) ++ wordsOf 4 s.dev.serial.toNat ++ wordsOf 2 s.host.nodeIdSeen.toNat
          ++ [w (if s.dev.gradeE then 64 else 96)])).readInputs)
  ∧ (∀ (dt : Nat) (cmd : Cmd) (s : State),
    let u := s.advance dt
    taken infoDeviceStatus cmd (State.modeRef cmd u) u → fits cmd 2 u →
      exec (.deviceStatus dt cmd) s = .next (u.answerH infoDeviceStatus (acceptance infoDeviceStatus cmd u) (u.modeRef cmd) .ok
        [w (modeCode s.dev.mode * 4096 + rungCode s.dev.rung * 512 + b2n s.linePresent * 256 + b2n s.link.host.up * 128
            + b2n (s.dev.alarmLatched != 0) * 64), s.dev.alarmActive]).readInputs)
  ∧ (∀ (dt : Nat) (cmd : Cmd) (s : State),
    let u := s.advance dt
    taken infoAlarmStatus cmd (State.modeRef cmd u) u → fits cmd 7 u →
      exec (.alarmStatus dt cmd) s = .next (u.answerH infoAlarmStatus (acceptance infoAlarmStatus cmd u) (u.modeRef cmd) .ok
        ([s.dev.alarmActive, s.dev.alarmLatched] ++ tickWords s.dev.alarmAt ++ [w s.dev.alarmLast])).readInputs)
  ∧ (∀ (dt : Nat) (cmd : Cmd) (s : State),
    let u := s.advance dt
    let words := ((s.host.keys.drop (cmd.word 3)).take (cmd.word 4)).flatMap fun k => [w (slotCode k.state), w k.len, k.epoch] ++ wordsOf 3 k.remaining
    1 ≤ cmd.word 4 → cmd.word 3 + cmd.word 4 ≤ 64 → taken infoKeySlotStatus cmd (State.keyRef cmd (cmd.word 3) u) u → fits cmd words.length u →
      exec (.keySlotStatus dt cmd) s = .next (u.answerH infoKeySlotStatus (acceptance infoKeySlotStatus cmd u) (u.keyRef cmd (cmd.word 3)) .ok words).readInputs)
  ∧ (∀ (dt : Nat) (cmd : Cmd) (s : State),
    let u := s.advance dt
    let words := counterWords (s.host.engines.flatMap fun g => g.ctrs)
    taken infoCipherStatus cmd (State.modeRef cmd u) u → fits cmd words.length u →
      let t : State := { u with host := { u.host with engines := s.host.engines.map fun (g : Engine) => { g with ctrs := clearAll cmd.clr g.ctrs } } }
      exec (.cipherStatus dt cmd) s = .next (t.answerH infoCipherStatus (acceptance infoCipherStatus cmd u) (t.modeRef cmd) .ok words).readInputs)
  ∧ (∀ (dt : Nat) (cmd : Cmd) (s : State),
    let u := s.advance dt
    let words := counterWords (wrapCtr (s.host.sp (cmd.word 3)).queueEpoch.toNat :: (s.host.sp (cmd.word 3)).ctrs)
    cmd.word 3 < 8 → taken infoSerialStatus cmd (State.rxqRef cmd (cmd.word 3) u) u → fits cmd words.length u →
      let t : State := { u with host := { u.host with serials := s.host.serials.modify (cmd.word 3) fun p => { p with ctrs := clearAll cmd.clr p.ctrs } } }
      exec (.serialStatus dt cmd) s = .next (t.answerH infoSerialStatus (acceptance infoSerialStatus cmd u) (t.rxqRef cmd (cmd.word 3)) .ok words).readInputs)
  ∧ (∀ (dt : Nat) (cmd : Cmd) (s : State),
    let u := s.advance dt
    taken infoDiagStatus cmd (State.modeRef cmd u) u → fits cmd (4 + (counterWords s.host.transport).length) u →
      let t : State := { u with host := { u.host with transport := clearAll cmd.clr s.host.transport, freeCtr := s.host.freeCtr + 4 } }
      let lowest (now : Tick) (xs : List (Tick × W16)) (m : W16) : Prop :=
        (∀ x ∈ xs, now - x.1 < 15000000 → m.toNat ≤ x.2.toNat) ∧ ((∃ x ∈ xs, now - x.1 < 15000000) → ∃ x ∈ xs, now - x.1 < 15000000 ∧ m = x.2)
      ∃ m0 m1 t0 t1 : W16,
        exec (.diagStatus dt cmd) s = .next (t.answerH infoDiagStatus (acceptance infoDiagStatus cmd u) (t.modeRef cmd) .ok
          ([m0, m1, t0, t1] ++ counterWords s.host.transport)).readInputs
        ∧ (s.linePresent = false → m0 = 0)
        ∧ (s.linePresent = true → lowest u.line.clock.tb s.line.margins m0) ∧ lowest u.host.follower s.host.margins m1)
  ∧ (∀ (dt : Nat) (cmd : Cmd) (s : State),
    let u := (s.advance dt).countMissed
    let words := [w (b2n (!s.link.host.up)), w s.link.laneBits] ++ counterWords u.link.ctrs
    taken infoBarrierStatus cmd (State.modeRef cmd (s.advance dt)) (s.advance dt) → fits cmd words.length (s.advance dt) →
      let t : State := { u with link := { u.link with ctrs := clearAll cmd.clr u.link.ctrs } }
      exec (.barrierStatus dt cmd) s = .next (t.answerH infoBarrierStatus (acceptance infoBarrierStatus cmd (s.advance dt)) (t.modeRef cmd) .ok words).readInputs)

/-! ## Commands of the host side that act -/

/-- QUARANTINE_RELEASE leaves QUARANTINE; RUNG_SET moves to the rung and sets the wake mask; FLASH_PROGRAM begins a job; RESET acts on its reach.
KEY_ERASE empties the named slots and no other; CIPHER_RUN queues its operation; ALARM_CONFIGURE writes its settings. SERIAL_ROUTE and ROUTE_SET write
their routes; a change raises the queue epoch by one, and nothing else of the other queues changes. It formalises parts of R319, R374, R394, R420,
R429, R459, R462, R471, R479, R484. Where the specification leaves a point open it rests on the model's choice in logs 20, 21, 24, 63, 65, 76 and 88. -/
def Obligations.HostCommandsAct : Prop :=
  (∀ (dt : Nat) (cmd : Cmd) (s : State),
    let u := s.advance dt
    taken infoQuarantineRelease cmd (State.modeRef cmd u) u → s.dev.alarmActive &&& s.dev.enabledSources = 0 → fits cmd 1 u →
      ∃ t, exec (.quarantineRelease dt cmd) s = .next t
        ∧ t.dev = { s.dev with mode := if s.linePresent then .config else .safe, modeEpoch := s.dev.modeEpoch + 1,
                               alarmLatched := s.dev.alarmLatched &&& s.dev.alarmActive }
        ∧ t.host.keys = s.host.keys ∧ t.hbMem = s.hbMem ∧ t.lbMem = s.lbMem ∧ t.hostRam = s.hostRam)
  ∧ (∀ (dt : Nat) (cmd : Cmd) (s : State) (r : Rung),
    let u := s.advance dt
    taken infoRungSet cmd (State.modeRef cmd u) u → rungOf (bitsOf (cmd.word 3) 0 3) = some r → permits s.dev.mode r = true →
      u.rungBusy r = false → fits cmd 1 u → (s.dev.rung ≠ .ashore ∨ s.headerKept = true) →
      ∃ t, exec (.rungSet dt cmd) s = .next t ∧ t.dev.rung = r ∧ t.dev.wakeMask = w (cmd.word 4) ∧ t.dev.mode = s.dev.mode)
  ∧ (∀ (dt : Nat) (cmd : Cmd) (s : State),
    let u := s.advance dt
    taken infoFlashProgram cmd (State.modeRef cmd u) u → cmd.word 3 ≤ 2 → s.host.flash.job = none → fits cmd 0 u →
      u.blocked (cpMaster cmd.via) (cmd.value 4 2) (cmd.value 6 2) false = false →
      ∃ t j, exec (.flashProgram dt cmd) s = .next t ∧ t.host.flash = { s.host.flash with job := some j }
        ∧ j.tag = cmd.tag ∧ j.via = cmd.via ∧ j.region = cmd.word 3
        ∧ t.dev = s.dev ∧ t.line = u.line ∧ t.hbMem = s.hbMem ∧ t.lbMem = s.lbMem ∧ t.hostRam = s.hostRam)
  ∧ (∀ (dt : Nat) (cmd : Cmd) (s : State),
    let u := s.advance dt
    taken infoReset cmd (State.modeRef cmd u) u → cmd.word 3 ≤ 2 → fits cmd 0 u →
      ∃ t, exec (.reset dt cmd) s = .next t
        ∧ (cmd.word 3 = 1 → t.dev = s.dev ∧ t.host.keys = s.host.keys ∧
            (s.link.host.up = true → t.link.host.flight = s.link.host.flight ++ [⟨.lineReset 5, (u.advance 150000).host.follower, 0, false⟩])
            ∧ (s.link.host.up = false → t.link.host.owed = s.link.host.owed ++ [.lineReset 5]))
        ∧ (cmd.word 3 ≠ 1 → t.dev.mode = .boot ∧ t.dev.modeEpoch = s.dev.modeEpoch + 1 ∧ t.dev.rung = .row ∧ t.host.running = false
            ∧ t.host.accepted = [] ∧ (∀ k ∈ t.host.keys, k.state = .empty ∧ k.key = [])
            ∧ t.dev.owedBoot = s.dev.owedBoot ++ [(s.dev.mode, s.dev.modeEpoch + 1, if cmd.word 3 = 0 then 4 else 6)]
            ∧ (cmd.word 3 = 2 → t.link.host.owed = [.lineReset 6]))
        ∧ t.hbMem = s.hbMem ∧ t.lbMem = s.lbMem ∧ t.hostRam = s.hostRam)
  ∧ (∀ (dt : Nat) (cmd : Cmd) (s : State),
    let u := s.advance dt
    taken infoKeyErase cmd (State.keyRef cmd (firstNamed cmd) u) u → fits cmd 1 u →
      ∃ t, exec (.keyErase dt cmd) s = .next t
        ∧ (∀ n, n < 64 → bitOf (cmd.value 3 4) n = true → (t.host.key n).state = .empty ∧ (t.host.key n).key = []
            ∧ (t.host.key n).epoch = (s.host.key n).epoch + (if (s.host.key n).state = .empty then 0 else 1))
        ∧ (∀ n, n < 64 → bitOf (cmd.value 3 4) n = false → t.host.key n = s.host.key n)
        ∧ t.dev = s.dev ∧ t.hbMem = s.hbMem ∧ t.lbMem = s.lbMem ∧ t.hostRam = s.hostRam)
  ∧ (∀ (dt : Nat) (cmd : Cmd) (s : State) (mode : CMode),
    let u := s.advance dt
    let a := acceptance infoCipherRun cmd u
    let o : CipherOp := { runOp cmd mode a.at_ with touched := !a.touched.isEmpty }
    taken infoCipherRun cmd (State.keyRef cmd (cmd.word 3) u) u → cmodeOf (bitsOf (cmd.word 4) 12 4) = some mode → cmd.word 3 < 64 →
      (tagLengths mode).contains (bitsOf (cmd.word 4) 0 8) = true → (s.host.key (cmd.word 3)).state = .loaded →
      cmd.word 11 ≤ cmd.value 9 2 →
      (bitOf (cmd.word 4) 11 = true → cmd.word 11 + bitsOf (cmd.word 4) 0 8 ≤ cmd.value 9 2) → fits cmd 0 u →
      let t : State := { u with host := { u.host with cipherQ := s.host.cipherQ ++ [o] } }
      exec (.cipherRun dt cmd) s = .next (t.answerH infoCipherRun a (t.keyRef cmd (cmd.word 3)) .accepted []).readInputs
        ∧ o.slot = cmd.word 3 ∧ o.src = cmd.value 5 2 ∧ o.dst = cmd.value 7 2 ∧ o.len = cmd.value 9 2 ∧ o.aadLen = cmd.word 11)
  ∧ (∀ (dt : Nat) (cmd : Cmd) (s : State),
    let u := s.advance dt
    taken infoAlarmConfigure cmd (State.modeRef cmd u) u → 1 ≤ cmd.word 5 → cmd.word 5 ≤ 10000 → fits cmd 0 u →
      ∃ t d, exec (.alarmConfigure dt cmd) s = .next t
        ∧ d = { s.dev with tamperEnable := BitVec.ofNat 4 (cmd.word 3), tamperHigh := BitVec.ofNat 4 (cmd.word 4), debounce := cmd.word 5,
                           alarmActive := s.dev.alarmActive &&& w (0xFFF0 + (BitVec.ofNat 4 (cmd.word 3)).toNat) }
        ∧ t.dev = (if d = s.dev then s.dev else { d with modeEpoch := s.dev.modeEpoch + 1 })
        ∧ t.line = u.line ∧ t.link = s.link ∧ t.host.keys = s.host.keys ∧ t.hbMem = s.hbMem ∧ t.lbMem = s.lbMem ∧ t.hostRam = s.hostRam)
  ∧ (∀ (dt : Nat) (cmd : Cmd) (s : State),
    let u := s.advance dt
    taken infoSerialRoute cmd (State.rxqRef cmd (cmd.word 3) u) u → 1 ≤ cmd.word 3 → cmd.word 3 ≤ 7 → cmd.word 4 ≤ 1 → sized s → fits cmd 0 u →
      ∃ t, exec (.serialRoute dt cmd) s = .next t
        ∧ t.host.sp (cmd.word 3) = (if (s.host.sp (cmd.word 3)).route = decide (cmd.word 4 = 1) then s.host.sp (cmd.word 3)
            else { s.host.sp (cmd.word 3) with route := decide (cmd.word 4 = 1), queueEpoch := (s.host.sp (cmd.word 3)).queueEpoch + 1 })
        ∧ (∀ m, m ≠ 0 → m ≠ cmd.word 3 → t.host.sp m = s.host.sp m)
        ∧ onlyHost u t)
  ∧ (∀ (dt : Nat) (cmd : Cmd) (s : State) (d : Dest),
    let u := s.advance dt
    taken infoRouteSet cmd (State.queueRef cmd (cmd.word 3) u) u → cmd.word 3 ≤ 1 → destOf (cmd.word 4) = some d →
      ¬(cmd.word 3 = 1 ∧ d = .sp0) → s.host.queues.length = 6 → fits cmd 0 u →
      ∃ t, exec (.routeSet dt cmd) s = .next t
        ∧ (t.host.queue (cmd.word 3)).dest = d
        ∧ (d = .udp → (t.host.queue (cmd.word 3)).destAddr = BitVec.ofNat 32 (cmd.value 5 2) ∧ (t.host.queue (cmd.word 3)).destPort = w (cmd.word 7))
        ∧ ((s.host.queue (cmd.word 3)).dest ≠ d → (t.host.queue (cmd.word 3)).epoch = (s.host.queue (cmd.word 3)).epoch + 1)
        ∧ (t.host.queue (1 - cmd.word 3)).dest = (s.host.queue (1 - cmd.word 3)).dest
        ∧ (t.host.queue (1 - cmd.word 3)).epoch = (s.host.queue (1 - cmd.word 3)).epoch
        ∧ onlyHost u t)

/-! ## Scheduled commands -/

/-- MODE_SET, LINE_FIRMWARE_UPDATE, PORT_MUTE and PORT_UNMUTE put their action into the scheduler. CHANNEL_PLACE and CHANNEL_MODE put their action into
the scheduler once their conditions hold. When an action is judged acceptable: a queue with room, an instant within 60 s, a lead of 200 µs but for the
form NEXT; the launch is the form's instant, fixed at once unless the form counts strokes and the instant lies more than 1 ms ahead. It formalises
parts of R31, R120, R133, R320, R479. Where the specification leaves a point open it rests on the model's choice in logs 19, 24, 26, 82, 88 and 117. -/
def Obligations.ActionsAreScheduled : Prop :=
  (schedules .modeSet infoModeSet (fun c => (modeOf (c.word 8 % 16)).map .modeSet) (fun _ _ => 0) State.modeRefL
    (fun c s => ∀ m, modeOf (c.word 8 % 16) = some m → s.mayEnter m = true ∧ (needsNode m = false ∨ s.line.nodeId ≠ 0))
  ∧ schedules .lineFirmwareUpdate infoLineFirmwareUpdate (fun c => some (.lineFirmware (c.value 8 2) (c.value 10 2))) (fun _ _ => 0) State.modeRefL
      (fun _ _ => True)
  ∧ schedules .portMute infoPortMute (fun c => some (.mute (c.word 8) (c.word 9))) (fun c _ => c.word 8) (fun c => State.portRefL (c.word 8))
      (fun c _ => c.word 8 < 96 ∧ c.word 9 ≤ 2)
  ∧ schedules .portUnmute infoPortUnmute (fun c => some (.unmute (c.word 8))) (fun c _ => c.word 8) (fun c => State.portRefL (c.word 8))
      (fun c _ => c.word 8 < 96))
  ∧ (schedules .channelPlace infoChannelPlace (fun c => some (.place (c.word 8) (parsePlace c)))
      (fun c s => match (s.line.chan (c.word 8)).place with
        | some p => p.refPort
        | none => ((parsePlace c).map Placement.refPort).getD 0)
      (fun c => State.chanRefL (c.word 8))
      (fun c s => c.word 8 < 256 ∧ ∀ p, parsePlace c = some p → p.legal = true ∧ s.line.placementOk (c.word 8) p = true)
  ∧ schedules .channelMode infoChannelMode (fun c => some (.chanMode (c.word 8) (c.value 9 3) (c.params.drop 9)))
      (fun c s => (s.line.chan (c.word 8)).refPort) (fun c => State.chanRefL (c.word 8))
      (fun c s => c.word 8 < 256 ∧ c.value 9 3 < 2 ^ 33
        ∧ inRanges chanRanges (applySettings (c.value 9 3) 0 (c.params.drop 9) (s.line.chan (c.word 8)).cfg) = true
        ∧ nth (applySettings (c.value 9 3) 0 (c.params.drop 9) (s.line.chan (c.word 8)).cfg) 23 0
            ≤ nth (applySettings (c.value 9 3) 0 (c.params.drop 9) (s.line.chan (c.word 8)).cfg) 24 0))
  ∧ (∀ (l : Line) (a : Action) (t : Tick),
    l.launchOf a.kind.device a.spec a.refPort a.accepted (a.frames.map (·.desc)) = some t → l.sched.actions.length < 8192 →
      t ≤ a.accepted + 90000000000 → (a.spec.form = .next ∨ a.accepted + 300000 ≤ t) →
      ∃ b, l.judgeAction a = (.accepted, some b) ∧ b.launch = t ∧ b.slipped = a.slipped ∧ b.id = a.id ∧ b.kind = a.kind ∧ b.spec = a.spec
        ∧ (b.fixed = true ↔ a.spec.onStrokes = false ∨ t - 1500000 ≤ a.accepted))
  ∧ (∀ (l : Line) (a : Action) (t : Tick),
    l.launchOf a.kind.device a.spec a.refPort a.accepted (a.frames.map (·.desc)) = some t → l.sched.actions.length < 8192 →
      t < a.accepted + 300000 → a.spec.form ≠ .next → a.spec.slip = false → l.judgeAction a = (.late, none))
  ∧ (∀ (l : Line) (a : Action), 8192 ≤ l.sched.actions.length → l.judgeAction a = (.noResource, none))

/-! ## Settings of the line side -/

/-- DEVICE_CONFIGURE, TIME_CONFIGURE, PORT_TIMING and SENSE_CONTROL write the settings that their masks name. It formalises parts of R54, R68, R318. Where
the specification leaves a point open it rests on the model's choice in logs 19, 24 and 33. -/
def Obligations.DeviceTimeAndSenseSettingsAreWritten : Prop :=
  (∀ (dt : Nat) (cmd : Cmd) (s : State) (got : Accepted × BarrierEnd),
    let u := s.advance dt
    let m := cmd.word 3
    takenL infoDeviceConfigure cmd (State.modeRefL cmd u) got u → deviceRanges cmd = true → fits cmd 0 (crossing got u) →
      ∃ t, doneL (.deviceConfigure dt cmd) infoDeviceConfigure got (State.modeRefL cmd) s (crossing got u) t []
        ∧ t.line.nodeId = (if bitOf m 0 then BitVec.ofNat 32 (cmd.value 4 2) else s.line.nodeId)
        ∧ t.line.netId = (if bitOf m 1 then w (cmd.word 6) else s.line.netId)
        ∧ t.line.stageAhead = (if bitOf m 2 then cmd.word 7 else s.line.stageAhead)
        ∧ t.line.linkAge = (if bitOf m 3 then cmd.word 8 else s.line.linkAge)
        ∧ t.line.reportLog = (if bitOf m 4 then cmd.word 9 else s.line.reportLog)
        ∧ t.line.ports = s.line.ports ∧ t.line.chans = s.line.chans ∧ t.dev.mode = s.dev.mode
        ∧ (t.dev.modeEpoch = s.dev.modeEpoch + 1 ∨ (t.dev = s.dev ∧ t.line = u.line)) ∧ keepsStores s t)
  ∧ (∀ (dt : Nat) (cmd : Cmd) (s : State) (got : Accepted × BarrierEnd),
    let u := s.advance dt
    let m := cmd.word 3
    takenL infoTimeConfigure cmd (State.timeRefL u) got u → (s.dev.mode = .config ∨ [2, 3, 4, 5, 8].any (bitOf m) = false) →
      (∀ i, i < 16 → bitOf m i = true → timeRowOk i (nth (timeRows cmd) i 0) = true) → fits cmd 0 (crossing got u) →
      ∃ t, doneL (.timeConfigure dt cmd) infoTimeConfigure got State.timeRefL s (crossing got u) t []
        ∧ (∀ i, i < 16 → t.line.time.row i = if bitOf m i then nth (timeRows cmd) i 0 else s.line.time.row i) ∧ keepsStores s t)
  ∧ (∀ (dt : Nat) (cmd : Cmd) (s : State) (got : Accepted × BarrierEnd),
    let u := s.advance dt
    let m := cmd.word 4
    let p := cmd.word 3
    takenL infoPortTiming cmd (State.portRefL (cmd.word 3) u) got u → p < 96 → timingOk cmd = true → sized s → fits cmd 0 (crossing got u) →
      ∃ t, doneL (.portTiming dt cmd) infoPortTiming got (State.portRefL p) s (crossing got u) t []
        ∧ (t.line.port p).src = (if bitOf m 0 then cmd.word 5 else (s.line.port p).src)
        ∧ (t.line.port p).input = (if bitOf m 1 then cmd.word 6 else (s.line.port p).input)
        ∧ (t.line.port p).sofs = (if bitOf m 2 then cmd.word 7 else (s.line.port p).sofs)
        ∧ (∀ q, q ≠ p → (t.line.port q).src = (s.line.port q).src ∧ (t.line.port q).input = (s.line.port q).input
            ∧ (t.line.port q).sofs = (s.line.port q).sofs ∧ (t.line.port q).epoch = (s.line.port q).epoch)
        ∧ t.dev = s.dev ∧ keepsStores s t)
  ∧ (∀ (dt : Nat) (cmd : Cmd) (s : State) (got : Accepted × BarrierEnd),
    let u := s.advance dt
    takenL infoSenseControl cmd (State.timeRefL u) got u → sized s → fits cmd 1 (crossing got u) →
      ∃ t ws, doneL (.senseControl dt cmd) infoSenseControl got State.timeRefL s (crossing got u) t ws ∧ ws.length = 1
        ∧ (∀ i, i < 6 → (t.line.time.input i).state =
            (if bitOf (cmd.word 3) i = false then (s.line.time.input i).state
             else if bitOf (cmd.word 4) 0 = false then .off
             else if (s.line.time.input i).state = .off then .lost else (s.line.time.input i).state))
        ∧ t.line.time.cfg = s.line.time.cfg ∧ t.dev = s.dev ∧ keepsStores s t)

/-- PORT_CONFIGURE, PORT_REARM and PORT_MASK write their port and leave every other port as it is. It formalises parts of R115, R121, R136. Where the
specification leaves a point open it rests on the model's choice in logs 19, 24 and 41. -/
def Obligations.PortSettingsAreWritten : Prop :=
  (∀ (dt : Nat) (cmd : Cmd) (s : State) (got : Accepted × BarrierEnd),
    let u := s.advance dt
    let p := cmd.word 3
    let old := (s.line.port p).cfg
    let new := maskedRows (bitsOf (cmd.word 4) 0 14) 5 cmd old
    let info := infoPortConfigure (decide (changedRows old new % 2 ^ 11 ≠ 0))
    takenL info cmd (State.portRefL (cmd.word 3) u) got u → p < 96 → inRanges portRanges new = true →
      ¬(nth old 0 0 = 0 ∧ nth new 0 0 = 1 ∧ s.dev.allowance ≤ s.line.enabled) →
      ¬(nth old 0 0 = 1 ∧ nth new 0 0 = 0 ∧ s.line.chans.any (Chan.uses p) = true) → sized s → fits cmd 0 (crossing got u) →
      ∃ t, doneL (.portConfigure dt cmd) info got (State.portRefL p) s (crossing got u) t []
        ∧ (t.line.port p).cfg = new ∧ (t.line.port p).muted = (s.line.port p).muted ∧ (t.line.port p).fault = (s.line.port p).fault
        ∧ (new = old → (t.line.port p).epoch = (s.line.port p).epoch)
        ∧ (nth old 0 0 = 1 → nth new 0 0 = 0 → (t.line.port p).drven = false ∧ (t.line.port p).holders = [])
        ∧ (∀ q, q ≠ p → t.line.port q = s.line.port q) ∧ t.line.chans = s.line.chans ∧ t.dev = s.dev ∧ keepsStores s t)
  ∧ (∀ (dt : Nat) (cmd : Cmd) (s : State) (got : Accepted × BarrierEnd),
    let u := s.advance dt
    let p := cmd.word 3
    takenL infoPortRearm cmd (State.portRefL (cmd.word 3) u) got u → p < 96 → (s.line.port p).fltSince = none → (s.line.port p).overLimit = false → sized s →
      fits cmd 0 (crossing got u) →
      ∃ t, doneL (.portRearm dt cmd) infoPortRearm got (State.portRefL p) s (crossing got u) t []
        ∧ t.line.port p = { s.line.port p with fault := false, cause := 0, epoch := (t.line.port p).epoch }
        ∧ ((s.line.port p).fault = true → (t.line.port p).epoch = (s.line.port p).epoch + 1)
        ∧ ((s.line.port p).fault = false → (s.line.port p).cause = 0 → (t.line.port p).epoch = (s.line.port p).epoch)
        ∧ (∀ q, q ≠ p → t.line.port q = s.line.port q) ∧ t.line.chans = s.line.chans ∧ t.dev = s.dev ∧ keepsStores s t)
  ∧ (∀ (dt : Nat) (cmd : Cmd) (s : State) (got : Accepted × BarrierEnd),
    let u := s.advance dt
    let p := cmd.word 3
    let bands := edgePairs cmd 5 (cmd.word 4 % 16)
    let notches := edgePairs cmd (5 + 4 * (cmd.word 4 % 16)) (bitsOf (cmd.word 4) 8 5)
    takenL infoPortMask cmd (State.portRefL (cmd.word 3) u) got u → p < 96 → cmd.word 4 % 16 ≤ 8 → bitsOf (cmd.word 4) 8 5 ≤ 16 →
      (∀ x ∈ s.line.chans, x.failsMask p { s.line.port p with bands := bands, notches := notches } = false) → sized s →
      fits cmd 1 (crossing got u) →
      ∃ t, doneL (.portMask dt cmd) infoPortMask got (State.portRefL p) s (crossing got u) t [0xFFFF]
        ∧ t.line.port p = { s.line.port p with bands := bands, notches := notches, epoch := (s.line.port p).epoch + 1 }
        ∧ (∀ q, q ≠ p → t.line.port q = s.line.port q) ∧ t.line.chans = s.line.chans ∧ t.dev = s.dev ∧ keepsStores s t)

/-- NOISE_MAP_CONFIGURE, TEST_LOOPBACK and MARCH_CONTROL write what they name and nothing else of the ports and banks. It formalises parts of R255, R403.
Where the specification leaves a point open it rests on the model's choice in logs 19 and 24. -/
def Obligations.MapLoopbackAndMarchSettingsAreWritten : Prop :=
  (∀ (dt : Nat) (cmd : Cmd) (s : State) (got : Accepted × BarrierEnd),
    let u := s.advance dt
    let p := cmd.word 3
    let new := s.line.newMapRows cmd
    takenL infoNoiseMapConfigure cmd (State.portRefL (cmd.word 3) u) got u → p < 96 → (nth new 0 0 < 32 ∨ nth new 0 0 = 0xFF) → nth new 1 0 ≤ 599980000 →
      nth new 1 0 % 1000 = 0 → nth new 2 0 ≤ 7 → nth new 3 0 ≤ 8 →
      (nth new 0 0 = 0xFF ∨ ∀ q, q < 96 → q ≠ p → (s.line.port q).mapSlot ≠ nth new 0 0) → sized s →
      fits cmd 0 (crossing got u) →
      ∃ t, doneL (.noiseMapConfigure dt cmd) infoNoiseMapConfigure got (State.portRefL p) s (crossing got u) t []
        ∧ (t.line.port p).mapSlot = nth new 0 0 ∧ (t.line.port p).mapF0 = nth new 1 0 ∧ (t.line.port p).mapBinw = nth new 2 0
        ∧ (t.line.port p).mapAvg = nth new 3 0 ∧ (t.line.port p).cfg = (s.line.port p).cfg
        ∧ (∀ q, q ≠ p → t.line.port q = s.line.port q) ∧ t.line.chans = s.line.chans ∧ t.dev = s.dev ∧ keepsStores s t)
  ∧ (∀ (dt : Nat) (cmd : Cmd) (s : State) (got : Accepted × BarrierEnd),
    let u := s.advance dt
    let p := cmd.word 3
    takenL infoTestLoopback cmd (State.portRefL (cmd.word 3) u) got u → p < 96 → (cmd.word 4 < 96 ∨ cmd.word 4 = 0xFF) → sized s →
      fits cmd 0 (crossing got u) →
      ∃ t, doneL (.testLoopback dt cmd) infoTestLoopback got (State.portRefL p) s (crossing got u) t []
        ∧ t.line.port p = { s.line.port p with loop := if cmd.word 4 = 0xFF then none else some (cmd.word 4) }
        ∧ (∀ q, q ≠ p → t.line.port q = s.line.port q) ∧ t.line.chans = s.line.chans ∧ t.dev = s.dev ∧ keepsStores s t)
  ∧ (∀ (dt : Nat) (cmd : Cmd) (s : State) (got : Accepted × BarrierEnd),
    let u := s.advance dt
    let op := cmd.word 8
    takenL infoMarchControl cmd (State.modeRefL cmd u) got u → op ≤ 3 →
      ((op = 0 ∨ op = 2) ∨ ((marchBanks cmd).contains 62 = false ∧ (marchBanks cmd).contains 63 = false)) → sized s →
      fits cmd 0 (crossing got u) →
      ∃ t, doneL (.marchControl dt cmd) infoMarchControl got (State.modeRefL cmd) s (crossing got u) t []
        ∧ (∀ b, b < 68 → nth t.line.mem.marked b false =
            if op < 2 ∧ (marchBanks cmd).contains b = true then decide (op = 1) else nth s.line.mem.marked b false)
        ∧ (∀ b, b < 68 → nth t.line.mem.vital b false =
            if 2 ≤ op ∧ (marchBanks cmd).contains b = true then decide (op = 2) else nth s.line.mem.vital b false)
        ∧ t.line.ports = s.line.ports ∧ t.line.chans = s.line.chans ∧ t.dev = s.dev ∧ keepsStores s t)

/-- RELAY_CONFIGURE, FLOOD_GROUP_SET and RELAY_TABLE_WRITE write the relay engine's settings and tables. It formalises parts of R276, R278, R299. Where
the specification leaves a point open it rests on the model's choice in logs 19, 24, 45 and 49. -/
def Obligations.RelaySettingsAndTablesAreWritten : Prop :=
  (∀ (dt : Nat) (cmd : Cmd) (s : State) (got : Accepted × BarrierEnd),
    let u := s.advance dt
    let m := cmd.word 3
    takenL infoRelayConfigure cmd (State.modeRefL cmd u) got u → relayRanges cmd = true → sized s → fits cmd 0 (crossing got u) →
      ∃ t, doneL (.relayConfigure dt cmd) infoRelayConfigure got (State.viaRef cmd (crossing got u)) s (crossing got u) t []
        ∧ t.line.relay.ucRelay = (if bitOf m 0 then decide (cmd.word 4 = 1) else s.line.relay.ucRelay)
        ∧ t.line.relay.ucFloor = (if bitOf m 1 then signedWord (cmd.word 5) else s.line.relay.ucFloor)
        ∧ t.line.relay.hopAge = (if bitOf m 2 then cmd.value 6 2 else s.line.relay.hopAge)
        ∧ t.line.relay.report = (if bitOf m 3 then cmd.word 8 else s.line.relay.report)
        ∧ (bitOf m 4 = true → (t.line.chan (cmd.word 9)).via = cmd.word 10)
        ∧ (∀ c, c ≠ cmd.word 9 → t.line.chan c = s.line.chan c)
        ∧ t.line.relay.hops = s.line.relay.hops ∧ t.line.relay.groups = s.line.relay.groups ∧ t.line.ports = s.line.ports
        ∧ t.dev.mode = s.dev.mode ∧ keepsStores s t)
  ∧ (∀ (dt : Nat) (cmd : Cmd) (s : State) (got : Accepted × BarrierEnd),
    let u := s.advance dt
    let id := w (cmd.word 3)
    let remove := bitOf (cmd.word 4) 15
    let g : FloodGroup := ⟨id, bitOf (cmd.word 4) 0, bitOf (cmd.word 4) 1, signedWord (cmd.word 5), cmd.word 6⟩
    takenL infoFloodGroupSet cmd (State.modeRefL cmd u) got u → id ≠ 0 → (remove = true ∨ (floorOk (cmd.word 5) = true ∧ cmd.word 6 ≤ 40000)) →
      (remove = true ∨ s.line.relay.groups.any (fun x => x.id == id) = true ∨ s.line.relay.groups.length < 64) →
      fits cmd 1 (crossing got u) →
      ∃ t, doneL (.floodGroupSet dt cmd) infoFloodGroupSet got (State.modeRefL cmd) s (crossing got u) t [w t.line.relay.groups.length]
        ∧ t.line.relay.groups.find? (fun x => x.id == id) = (if remove then none else some g)
        ∧ (∀ x : FloodGroup, x.id ≠ id → (x ∈ t.line.relay.groups ↔ x ∈ s.line.relay.groups))
        ∧ t.line.relay.hops = s.line.relay.hops ∧ t.line.ports = s.line.ports ∧ t.line.chans = s.line.chans ∧ t.dev.mode = s.dev.mode
        ∧ keepsStores s t)
  ∧ (∀ (dt : Nat) (cmd : Cmd) (s : State) (got : Accepted × BarrierEnd),
    let u := s.advance dt
    let node := BitVec.ofNat 32 (cmd.value 3 2)
    let op := cmd.word 6
    takenL infoRelayTableWrite cmd (State.relayRef cmd (s.line.writeIndex cmd) u) got u → op ≤ 2 → (op = 0 → cmd.word 5 ≤ 254) →
      (op = 0 → s.line.hop? node = none → s.line.hopIndex ≠ none) → fits cmd 1 (crossing got u) →
      ∃ t ws, doneL (.relayTableWrite dt cmd) infoRelayTableWrite got (State.relayRef cmd (s.line.writeIndex cmd)) s (crossing got u) t ws
        ∧ (op = 0 → ∃ e, t.line.hop? node = some e ∧ e.hops = cmd.word 5 ∧ e.static = true)
        ∧ (op = 1 → ∀ e, t.line.hop? node = some e → e.static = false)
        ∧ (op = 2 → ∀ e, s.line.hop? node = some e → ∀ x ∈ t.line.relay.hops, x.index ≠ e.index)
        ∧ (∀ x : HopEntry, x.index ≠ s.line.writeIndex cmd → (x ∈ t.line.relay.hops ↔ x ∈ s.line.relay.hops))
        ∧ t.line.relay.groups = s.line.relay.groups ∧ t.line.ports = s.line.ports ∧ t.line.chans = s.line.chans ∧ t.dev = s.dev ∧ keepsStores s t)

/-- LINK_VERDICT raises the verdict offset of the entry named, LINK_PIN sets its pin; TIME_SET waits for its pulse; ACTION_CANCEL ends the actions of its
tag that have 200 µs of lead. It formalises parts of R46, R93, R270, R271. Where the specification leaves a point open it rests on the model's choice
in logs 19, 24, 33 and 82. -/
def Obligations.LinkCommandsTimeSetAndCancelAct : Prop :=
  (∀ (dt : Nat) (cmd : Cmd) (s : State) (got : Accepted × BarrierEnd) (e : LinkEntry),
    let u := s.advance dt
    let node := BitVec.ofNat 32 (cmd.value 4 2)
    takenL infoLinkVerdict cmd (State.linkNamedRef cmd u) got u → s.line.entry? (cmd.word 3) node = some e → 1 ≤ cmd.word 6 → cmd.word 6 ≤ 12 →
      fits cmd 1 (crossing got u) →
      ∃ t e', doneL (.linkVerdict dt cmd) infoLinkVerdict got (State.linkNamedRef cmd) s (crossing got u) t [w (min 12 (e.offset + cmd.word 6))]
        ∧ t.line.entry? (cmd.word 3) node = some e' ∧ e'.offset = min 12 (e.offset + cmd.word 6) ∧ e'.pin = e.pin
        ∧ (∀ x : LinkEntry, x.index ≠ e.index → (x ∈ t.line.links.entries ↔ x ∈ s.line.links.entries))
        ∧ t.line.ports = s.line.ports ∧ t.dev = s.dev ∧ keepsStores s t)
  ∧ (∀ (dt : Nat) (cmd : Cmd) (s : State) (got : Accepted × BarrierEnd) (e : LinkEntry),
    let u := s.advance dt
    let node := BitVec.ofNat 32 (cmd.value 4 2)
    takenL infoLinkPin cmd (State.linkNamedRef cmd u) got u → s.line.entry? (cmd.word 3) node = some e → (cmd.word 6 ≤ 12 ∨ cmd.word 6 = 0xFF) →
      fits cmd 1 (crossing got u) →
      ∃ t e', doneL (.linkPin dt cmd) infoLinkPin got (State.linkNamedRef cmd) s (crossing got u) t [w e'.held]
        ∧ t.line.entry? (cmd.word 3) node = some e' ∧ e'.pin = (if cmd.word 6 = 0xFF then none else some (cmd.word 6)) ∧ e'.offset = e.offset
        ∧ (∀ x : LinkEntry, x.index ≠ e.index → (x ∈ t.line.links.entries ↔ x ∈ s.line.links.entries))
        ∧ t.line.ports = s.line.ports ∧ t.dev = s.dev ∧ keepsStores s t)
  ∧ (∀ (dt : Nat) (cmd : Cmd) (s : State) (got : Accepted × BarrierEnd),
    let u := s.advance dt
    u.arrived infoTimeSet.opcode cmd = some got → epochDiffers cmd s.line.time.epoch = false →
      ∃ t y, exec (.timeSet dt cmd) s = .next t ∧ t.line.time.timeSet = some y ∧ y.cmd = got.1
        ∧ y.second = cmd.value 3 4 ∧ y.reached = u.line.clock.tb ∧ t.line.clock = u.line.clock ∧ t.dev = s.dev ∧ keepsStores s t)
  ∧ (∀ (dt : Nat) (cmd : Cmd) (s : State) (got : Accepted × BarrierEnd),
    let u := s.advance dt
    let at_ := got.1.at_
    let tagged := s.line.sched.actions.filter fun a => a.tag == w (cmd.word 3)
    let early := tagged.filter fun a => !a.frames.any (·.launched) && a.deferred.isNone && decide (at_ + 300000 ≤ a.launch)
    takenL infoActionCancel cmd (State.modeRefL cmd u) got u → (early ≠ [] ∨ tagged = []) → fits cmd 2 (crossing got u) →
      ∃ t, doneL (.actionCancel dt cmd) infoActionCancel got (State.modeRefL cmd) s (crossing got u) t [w early.length, w (tagged.length - early.length)]
        ∧ t.line.sched.actions = s.line.sched.actions.filter (fun a => early.all fun b => a.id != b.id)
        ∧ t.dev = s.dev ∧ keepsStores s t)

/-! ## Reports of the line side -/

/-- NOISE_MAP_READ, LINK_TABLE_READ, FLOOD_GROUP_READ, RELAY_TABLE_READ and LINE_MEMORY_READ report what is there and change nothing. It formalises parts
of R256, R260, R295, R392. Where the specification leaves a point open it rests on the model's choice in logs 19, 24, 48 and 102. -/
def Obligations.TableAndMemoryReadsReport : Prop :=
  (∀ (dt : Nat) (cmd : Cmd) (s : State) (got : Accepted × BarrierEnd),
    let u := s.advance dt
    let c := crossing got u
    let words := wordsOf 2 (s.line.port (cmd.word 3)).mapF0 ++ wordsOf 2 (nth binWidths (s.line.port (cmd.word 3)).mapBinw 5000000)
      ++ (List.range (cmd.word 5)).flatMap (fun i => (List.range (cmd.word 7)).map fun j =>
           w (u.line.cellValue (cmd.word 3) (cmd.word 4 + i) (cmd.word 6 + j)))
    takenL infoNoiseMapRead cmd (State.portRefL (cmd.word 3) u) got u → cmd.word 3 < 96 → 1 ≤ cmd.word 5 * cmd.word 7 →
      cmd.word 5 * cmd.word 7 ≤ 1024 → cmd.word 4 + cmd.word 5 ≤ 256 → cmd.word 6 + cmd.word 7 ≤ 128 → fits cmd words.length c →
      doneL (.noiseMapRead dt cmd) infoNoiseMapRead got (State.portRefL (cmd.word 3)) s c c words)
  ∧ (∀ (dt : Nat) (cmd : Cmd) (s : State) (got : Accepted × BarrierEnd),
    let u := s.advance dt
    let c := crossing got u
    let es := s.line.linkSlice cmd
    let words := w es.length :: es.flatMap (fun e => w e.index :: e.words u.line)
    takenL infoLinkTableRead cmd (State.linkReadRef cmd u) got u → 1 ≤ cmd.word 4 → cmd.word 4 ≤ 46 → fits cmd words.length c →
      doneL (.linkTableRead dt cmd) infoLinkTableRead got (State.linkReadRef cmd) s c c words
        ∧ es.length ≤ cmd.word 4 ∧ ∀ e ∈ es, cmd.word 3 ≤ e.index ∧ e ∈ s.line.links.entries)
  ∧ (∀ (dt : Nat) (cmd : Cmd) (s : State) (got : Accepted × BarrierEnd),
    let u := s.advance dt
    let c := crossing got u
    let words := w s.line.relay.groups.length :: s.line.relay.groups.flatMap FloodGroup.words
    takenL infoFloodGroupRead cmd (State.modeRefL cmd u) got u → fits cmd words.length c →
      doneL (.floodGroupRead dt cmd) infoFloodGroupRead got (State.modeRefL cmd) s c c words)
  ∧ (∀ (dt : Nat) (cmd : Cmd) (s : State) (got : Accepted × BarrierEnd),
    let u := s.advance dt
    let c := crossing got u
    let es := s.line.hopSlice cmd
    let words := w es.length :: es.flatMap fun e => w e.index :: e.words s.line.relay.epochs
    takenL infoRelayTableRead cmd (State.relayReadRef cmd u) got u → 1 ≤ cmd.word 4 → cmd.word 4 ≤ 118 → fits cmd words.length c →
      doneL (.relayTableRead dt cmd) infoRelayTableRead got (State.relayReadRef cmd) s c c words
        ∧ es.length ≤ cmd.word 4 ∧ ∀ e ∈ es, cmd.word 3 ≤ e.index ∧ e ∈ s.line.relay.hops)
  ∧ (∀ (dt : Nat) (cmd : Cmd) (s : State) (got : Accepted × BarrierEnd),
    let u := s.advance dt
    let c := crossing got u
    let words := byteWords (u.lbRead (lineBankAt (cmd.word 3) + cmd.value 4 2) (2 * cmd.word 6))
    takenL infoLineMemoryRead cmd (State.modeRefL cmd u) got u → cmd.word 3 < 68 → cmd.value 4 2 % 2 = 0 → 1 ≤ cmd.word 6 → cmd.word 6 ≤ 1024 →
      cmd.value 4 2 + 2 * cmd.word 6 ≤ lineBankSize (cmd.word 3) → fits cmd words.length c →
      doneL (.lineMemoryRead dt cmd) infoLineMemoryRead got (State.modeRefL cmd) s c c words ∧ words.length = cmd.word 6)

/-- TIME_STATUS, SCHEDULE_STATUS, RELAY_STATUS and LINE_MEMORY_STATUS report their counters, and clear them when CLR is set. PORT_STATUS and
CHANNEL_STATUS report one unit and clear its counters when CLR is set; a read of a port starts its peak current afresh. It formalises parts of R296,
R409. Where the specification leaves a point open it rests on the model's choice in logs 19, 24 and 69. -/
def Obligations.LineStatusesReport : Prop :=
  (∀ (dt : Nat) (cmd : Cmd) (s : State) (got : Accepted × BarrierEnd),
    let u := s.advance dt
    let c := crossing got u
    let x := s.line.time
    let words := [w x.source, w x.stratumNow, w (u.line.errorBound s.dev.mode)] ++ wordsOf 2 x.mainsFreq ++ [w x.ref, w x.senseBits]
      ++ wordsOf 2 ((x.cox.map fun c => c.1.toNat).getD 0) ++ [w ((x.cox.map (·.2)).getD 15)] ++ wordsOf 2 ((x.parent.map (·.toNat)).getD 0)
      ++ wordsOf 2 (((x.gridStroke u.line.clock.tb).map (·.toNat)).getD 0) ++ x.offsetWords ++ counterWords x.ctrs
    let t : State := { c with line := u.line.modTime fun x => { x with ctrs := clearAll cmd.clr x.ctrs } }
    takenL infoTimeStatus cmd (State.timeRefL u) got u → fits cmd words.length c →
      doneL (.timeStatus dt cmd) infoTimeStatus got State.timeRefL s c t words)
  ∧ (∀ (dt : Nat) (cmd : Cmd) (s : State) (got : Accepted × BarrierEnd),
    let u := s.advance dt
    let c := crossing got u
    let n := satAdd 32 s.host.adjusted.val s.line.adjusted
    let cs := s.line.sched.ctrs.take 4 ++ [⟨n.val, n.ovf || s.host.adjusted.ovf⟩] ++ s.line.sched.ctrs.drop 4
    let words := [w s.line.sched.actions.length, w s.line.relay.copies.length] ++ counterWords cs
    takenL infoScheduleStatus cmd (State.modeRefL cmd u) got u → fits cmd words.length c →
      ∃ t, doneL (.scheduleStatus dt cmd) infoScheduleStatus got (State.modeRefL cmd) s c t words
        ∧ t.line.sched.ctrs = clearAll cmd.clr s.line.sched.ctrs ∧ t.line.adjusted = (if cmd.clr then Ctr.zero else s.line.adjusted)
        ∧ t.host.adjusted = (if cmd.clr then Ctr.zero else s.host.adjusted) ∧ t.line.sched.actions = s.line.sched.actions
        ∧ t.line.ports = s.line.ports ∧ t.line.chans = s.line.chans ∧ t.line.clock = u.line.clock ∧ t.dev = s.dev ∧ keepsStores s t)
  ∧ (∀ (dt : Nat) (cmd : Cmd) (s : State) (got : Accepted × BarrierEnd),
    let u := s.advance dt
    let c := crossing got u
    let r := s.line.relay
    let words := counterWords (r.ctrs ++ r.drops ++ [r.hwm])
    let t : State := { c with line := u.line.modRelay fun r =>
      { r with ctrs := clearAll cmd.clr r.ctrs, drops := clearAll cmd.clr r.drops, hwm := if cmd.clr then Ctr.zero else r.hwm } }
    takenL infoRelayStatus cmd (State.modeRefL cmd u) got u → fits cmd words.length c →
      doneL (.relayStatus dt cmd) infoRelayStatus got (State.modeRefL cmd) s c t words)
  ∧ (∀ (dt : Nat) (cmd : Cmd) (s : State) (got : Accepted × BarrierEnd),
    let u := s.advance dt
    let c := crossing got u
    let x := s.line.mem
    let words := (List.range 68).map (fun b => w (lineOwner b * 256 + b2n (nth x.vital b false) * 2 + b2n (nth x.marked b false)))
      ++ counterWords (x.conflicts ++ x.writeLost ++ x.faults ++ [x.marchFails])
    takenL infoLineMemoryStatus cmd (State.modeRefL cmd u) got u → fits cmd words.length c →
      ∃ t, doneL (.lineMemoryStatus dt cmd) infoLineMemoryStatus got (State.modeRefL cmd) s c t words
        ∧ t.line.mem.conflicts = clearAll cmd.clr x.conflicts ∧ t.line.mem.writeLost = clearAll cmd.clr x.writeLost
        ∧ t.line.mem.faults = clearAll cmd.clr x.faults ∧ t.line.mem.marchFails = (if cmd.clr then Ctr.zero else x.marchFails)
        ∧ t.line.mem.vital = x.vital ∧ t.line.mem.marked = x.marked ∧ t.line.mem.march = x.march ∧ t.line.ports = s.line.ports
        ∧ t.line.chans = s.line.chans ∧ t.dev = s.dev ∧ keepsStores s t)
  ∧ (∀ (dt : Nat) (cmd : Cmd) (s : State) (got : Accepted × BarrierEnd),
    let u := s.advance dt
    let p := cmd.word 3
    let words := u.line.portStatusWords p
    takenL infoPortStatus cmd (State.portRefL (cmd.word 3) u) got u → p < 96 → sized s → fits cmd words.length (crossing got u) →
      ∃ t, doneL (.portStatus dt cmd) infoPortStatus got (State.portRefL p) s (crossing got u) t words
        ∧ words.take (s.line.port p).cfg.length = (s.line.port p).cfg.map w
        ∧ t.line.port p = { s.line.port p with peak := 0, ctrs := clearAll cmd.clr (s.line.port p).ctrs }
        ∧ (∀ q, q ≠ p → t.line.port q = s.line.port q) ∧ t.line.chans = s.line.chans ∧ t.dev = s.dev ∧ keepsStores s t)
  ∧ (∀ (dt : Nat) (cmd : Cmd) (s : State) (got : Accepted × BarrierEnd),
    let u := s.advance dt
    let x := s.line.chan (cmd.word 3)
    let words := placeWords x.place ++ x.cfg.map w ++ [w x.via] ++ counterWords x.counters
    takenL infoChannelStatus cmd (State.chanRefL (cmd.word 3) u) got u → cmd.word 3 < 256 → sized s → fits cmd words.length (crossing got u) →
      ∃ t, doneL (.channelStatus dt cmd) infoChannelStatus got (State.chanRefL (cmd.word 3)) s (crossing got u) t words
        ∧ t.line.chan (cmd.word 3) = x.clearCounters cmd.clr
        ∧ (∀ c, c ≠ cmd.word 3 → t.line.chan c = s.line.chan c) ∧ t.line.ports = s.line.ports ∧ t.dev = s.dev ∧ keepsStores s t)

/-! ## Queues, rings and registers -/

/-- A read of a queue window takes the head word, a free value or 0 where the queue master does not own its bank (log 130); on an empty queue it returns
at once with UNDERRUN, or stalls; a stalled read takes the next word, or gives up at its STALL_LIMIT; behind a stalled read every access to the queue
waits. Reads of H_Qn_LOST and H_Qn_HWM return the count and clear it. QUEUE_RESET empties its queue, completes the read that stalls, applies the
pending settings and raises its epoch by one; QUEUE_HOLD_DRAIN moves the first held packet into its queue once it fits. It formalises parts of R13,
R15, R330, R334, R337, R339, R343, R374. Where the specification leaves a point open it rests on the model's choice in logs 14, 17, 77, 86, 129, 130,
131 and 133. -/
def Obligations.QueuesFollowTheirWindow : Prop :=
  (∀ (dt n : Nat) (s : State) (p : QPacket) (r : List QPacket) (e : W16 × BitVec 2) (es : List (W16 × BitVec 2)),
    let u := s.advance dt
    let q := s.host.queue n
    let q' : Queue := { q with pkts := (if es.isEmpty then r else { p with entries := es, slot := false, begun := true } :: r), lastWord := e.1, lastMark := e.2 }
    let f := (u.host.modQueue n fun _ => q').fetched n [e.1]
    let h := f.2.returned (windowWord (f.1.headD 0, e.2))
    reachable s → sized s → n < 6 → q.waiting = [] → q.pkts = p :: r → p.entries = e :: es →
      exec (.queueWindowRead dt n) s = .next ((({ u with host := h } : State).queueReport n u.host).drained n)
        ∧ h.queue n = q' ∧ (∀ m, m ≠ n → h.queue m = s.host.queue m)
        ∧ (u.host.foreign n = [] → h.readData = windowWord e ∧ h.ints = s.host.ints ∧ h.mem = s.host.mem)
        ∧ (u.host.foreign n ≠ [] → (u.host.foreign n).length = (q.banks).length → h.readData = windowWord (0, e.2)))
  ∧ (∀ (dt n : Nat) (s : State),
    let u := s.advance dt
    let q := s.host.queue n
    reachable s → sized s → n < 6 → q.waiting = [] → q.pkts = [] →
      ∃ h, exec (.queueWindowRead dt n) s = .next (({ u with host := h } : State).drained n)
        ∧ (q.ctrl.getLsbD 2 = false → h.readData = windowEmpty q.lastWord q.lastMark ∧ h.queue n = { q with underrun := true })
        ∧ (q.ctrl.getLsbD 2 = true → h.readData = s.host.readData ∧ h.queue n = { q with waiting := [.read], stallEnd := u.host.follower + q.stallLimit })
        ∧ (∀ m, m ≠ n → h.queue m = s.host.queue m))
  ∧ (∀ (dt n : Nat) (s : State) (a : QAccess) (rest : List QAccess) (p : QPacket) (r : List QPacket) (e : W16 × BitVec 2) (es : List (W16 × BitVec 2)),
    let u := s.advance dt
    let q := s.host.queue n
    reachable s → sized s → n < 6 → q.waiting = a :: rest → q.pkts = p :: r → p.entries = e :: es → u.host.foreign n = [] →
      ∃ h : HostSide, exec (.stalledReadComplete dt n) s = .next ((({ u with host := h.headDone n rest } : State).queueReport n u.host).drained n)
        ∧ h.readData = windowWord e ∧ (∀ m, m ≠ n → h.queue m = s.host.queue m)
        ∧ h.queue n = { q with pkts := (if es.isEmpty then r else { p with entries := es, slot := false, begun := true } :: r), waiting := [], lastWord := e.1, lastMark := e.2 }
        ∧ (rest = [] → (h.headDone n rest).readsDone = s.host.readsDone ++ [windowWord e]))
  ∧ (∀ (dt n : Nat) (s : State) (a : QAccess) (rest : List QAccess),
    let u := s.advance dt
    let q := s.host.queue n
    reachable s → sized s → n < 6 → q.waiting = a :: rest →
      (q.stallEnd ≤ u.host.follower →
        ∃ h : HostSide, exec (.stallLimitExpiry dt n) s = .next (({ u with host := h.headDone n rest } : State).drained n)
          ∧ h.readData = windowEmpty q.lastWord q.lastMark ∧ h.queue n = { q with waiting := [], underrun := true }
          ∧ (∀ m, m ≠ n → h.queue m = s.host.queue m)
          ∧ (rest = [] → (h.headDone n rest).readsDone = s.host.readsDone ++ [windowEmpty q.lastWord q.lastMark]))
      ∧ (u.host.follower < q.stallEnd → exec (.stallLimitExpiry dt n) s = .next (u.drained n))
      ∧ exec (.queueWindowRead dt n) s =
          .next (({ u with host := u.host.modQueue n fun q => { q with waiting := q.waiting ++ [.read] } } : State).drained n)
      ∧ exec (.queueLostRead dt n) s = .next { u with host := u.host.modQueue n fun q => { q with waiting := q.waiting ++ [.lost] } }
      ∧ exec (.queueHwmRead dt n) s = .next { u with host := u.host.modQueue n fun q => { q with waiting := q.waiting ++ [.hwm] } })
  ∧ (∀ (dt n : Nat) (s : State),
    let u := s.advance dt
    let q := s.host.queue n
    reachable s → sized s → n < 6 → q.waiting = [] →
      (∃ t, exec (.queueLostRead dt n) s = .next t ∧ t.host.readData = lostValue q.lost ∧ t.host.queue n = { q with lost := Ctr.zero }
        ∧ (∀ m, m ≠ n → t.host.queue m = s.host.queue m) ∧ onlyHost u t)
      ∧ ∃ t, exec (.queueHwmRead dt n) s = .next t ∧ t.host.readData = BitVec.ofNat 32 q.hwm ∧ t.host.queue n = { q with hwm := 0 }
        ∧ (∀ m, m ≠ n → t.host.queue m = s.host.queue m) ∧ onlyHost u t)
  ∧ (∀ (dt n : Nat) (s : State),
    let u := s.advance dt
    let q := s.host.queue n
    reachable s → sized s → n < 6 → q.waiting.length ≤ 1 →
      ∃ h, exec (.queueReset dt n) s = .next (({ u with host := h } : State).drained n)
        ∧ (h.queue n).epoch = q.epoch + 1 ∧ (h.queue n).access = q.ctrl.getLsbD 4 ∧ (h.queue n).framing = q.ctrl.getLsbD 3
        ∧ (h.queue n).baseF = q.base ∧ (h.queue n).depthF = bitsOf q.depth.toNat 0 19 ∧ (h.queue n).waiting = []
        ∧ (q.waiting ≠ [] → h.readsDone = s.host.readsDone ++ [windowEmpty 0 0] ∧ h.readData = windowEmpty 0 0)
        ∧ (n ≠ 0 → (h.queue n).pkts = [] ∧ (h.queue n).loss = false ∧ (h.queue n).underrun = false
            ∧ (h.queue n).lastWord = 0 ∧ (h.queue n).lastMark = 0)
        ∧ (∀ m, m ≠ n → m ≠ 0 → h.queue m = s.host.queue m)
        ∧ (∀ c ∈ h.cuts, n = 1 → c.segments > 0 → c.closed = true))
  ∧ (∀ (dt n : Nat) (s : State) (p : Packet) (r : List Packet),
    let u := s.advance dt
    let q := s.host.queue n
    sized s → n < 2 → q.hold = p :: r → q.fits (if n = 0 then 64 else 0) p = true → u.host.lossFits n = true → q.dest = .pcie →
      u.host.foreign 0 = [] → u.host.foreign n = [] →
      ∃ t, exec (.queueHoldDrain dt n) s = .next t ∧ (t.host.queue n).hold.length = r.length
        ∧ (n = 1 ∨ q.lostSince = 0 ∨ (∀ x ∈ r, x.source ≠ 0x8500) → (t.host.queue n).hold = r)
        ∧ (∃ loss p', (t.host.queue n).pkts = q.pkts ++ loss ++ [q.entry p'] ∧ (n = 1 ∨ q.lostSince = 0 ∨ p.source ≠ 0x8500 → p' = p)
            ∧ (n = 1 ∨ q.lostSince = 0 → loss = []) ∧ loss.length ≤ 1)
        ∧ (t.host.queue n).lostSince = 0
        ∧ (∀ m, 2 ≤ m → t.host.queue m = s.host.queue m) ∧ onlyHost u t)

/-- The command rings and the device rings: a doorbell writes PROD and takes the packet behind CONS as a command; a device ring takes a whole packet once
its slots are free; a request that ends in an error sets ERR and stops its ring; ENABLE rising puts PROD and CONS to 0; an advance owed within HOLDOFF
sets its cause bit at the end. It formalises parts of R351, R352, R353. Where the specification leaves a point open it rests on the model's choice in
logs 20, 21, 77, 131 and 135. -/
def Obligations.RingsMoveWholePackets : Prop :=
  (∀ (dt r : Nat) (prod : W32) (s : State),
    let u := s.advance dt
    let g : Ring := { s.host.ring r with prod := prod }
    let len := (nth (readSlots g s.hostRam 1 g.cons.toNat) 2 0).toNat
    let ws := (readSlots g s.hostRam (slotsOf len) g.cons.toNat).take len
    reachable s → sized s → r < 2 → s.host.running = true → g.enabled = true → s.mayRequest = true → s.host.reads r = true →
      3 ≤ len → len ≤ 1024 → (prod - g.cons).toNat = slotsOf len → slotsOf len ≤ g.size → (opcodeTable.lookup (opcodeOf ws)).isSome = true →
      othersIdle r s →
      ∃ t, exec (.commandRingDoorbell dt ⟨r, none⟩ prod) s = .next t ∧ (t.host.ring r).prod = prod ∧ (t.host.ring r).cons = prod
        ∧ t.host.accepted = s.host.accepted ++
            [{ cmd := parseCmd (ringVia r) ws, opcode := opcodeOf ws, at_ := u.host.follower, crossed := false, src := (0, 0) }]
        ∧ (∀ m, m ≠ r → t.host.ring m = s.host.ring m) ∧ t.host.queues = s.host.queues ∧ onlyHost u t)
  ∧ (∀ (dt r : Nat) (prod : W32) (s : State),
    let u := s.advance dt
    reachable s → sized s → r < 2 → ((s.host.ring r).enabled = false ∨ s.mayRequest = false ∨ (prod - (s.host.ring r).cons).toNat > (s.host.ring r).size) →
      othersIdle r s →
      ∃ t, exec (.commandRingDoorbell dt ⟨r, none⟩ prod) s = .next t ∧ t.host.ring r = { s.host.ring r with prod := prod }
        ∧ t.host.accepted = s.host.accepted ∧ (∀ m, m ≠ r → t.host.ring m = s.host.ring m) ∧ onlyHost u t)
  ∧ (∀ (dt r bit : Nat) (prod : W32) (s : State),
    let u := s.advance dt
    reachable s → sized s → r < 2 → s.mayRequest = true → (s.host.ring r).enabled = true →
      ∃ t, exec (.commandRingDoorbell dt ⟨r, some bit⟩ prod) s = .next t ∧ (t.host.ring r).prod = prod ∧ (t.host.ring r).cons = (s.host.ring r).cons
        ∧ (t.host.ring r).ctrl.getLsbD 30 = true ∧ (t.host.ring r).enabled = false ∧ t.host.pci.uncStatus = s.host.pci.uncStatus ||| (1 <<< bit)
        ∧ t.host.accepted = s.host.accepted ∧ (∀ m, m ≠ r → t.host.ring m = s.host.ring m) ∧ t.host.queues = s.host.queues ∧ onlyHost u t)
  ∧ (∀ (dt r : Nat) (s : State) (p : QPacket) (rest : List QPacket),
    let u := s.advance dt
    let g := s.host.ring r
    let n := ringQueue r
    let k := slotsOf p.words.length
    let f := (u.host.modQueue n (Queue.takeWhole p)).fetched n p.words
    2 ≤ r → r < 6 → sized s → s.mayRequest = true → (s.host.queue n).dest = .pcie → (s.host.queue n).access = false → g.enabled = true →
      (s.host.queue n).whole = p :: rest → (g.prod - g.cons).toNat + k ≤ g.size →
      (∃ h, exec (.deviceRingWrite dt ⟨r, none⟩) s =
            .next ((({ u with host := h, hostRam := writeSlots g k g.prod.toNat f.1 s.hostRam } : State).queueReport n u.host).drained n)
        ∧ (h.ring r).prod = g.prod + BitVec.ofNat 32 k ∧ (h.ring r).cons = g.cons ∧ (u.host.foreign n = [] → f.1 = p.words)
        ∧ (h.queue n).pkts = (s.host.queue n).pkts.erase p ∧ (∀ m, m ≠ n → h.queue m = s.host.queue m) ∧ ∀ m, m ≠ r → h.ring m = s.host.ring m)
      ∧ ∀ bit : Nat, ∃ t, exec (.deviceRingWrite dt ⟨r, some bit⟩) s = .next t ∧ (t.host.ring r).ctrl.getLsbD 30 = true
          ∧ (t.host.ring r).enabled = false ∧ t.host.queues = s.host.queues ∧ (∀ m, m ≠ r → t.host.ring m = s.host.ring m) ∧ onlyHost u t)
  ∧ (∀ (dt r : Nat) (v : W32) (s : State),
    let u := s.advance dt
    let g := s.host.ring r
    reachable s → sized s → r < 6 →
      ∃ t, exec (.ringEnable dt r v) s = .next t ∧ (t.host.ring r).enabled = v.getLsbD 31
        ∧ (v.getLsbD 31 = true → g.enabled = false → (t.host.ring r).prod = 0 ∧ (t.host.ring r).cons = 0)
        ∧ (v.getLsbD 31 = false ∨ g.enabled = true → (t.host.ring r).prod = g.prod ∧ (t.host.ring r).cons = g.cons)
        ∧ ((t.host.ring r).ctrl.getLsbD 30 = (g.ctrl.getLsbD 30 && !v.getLsbD 30))
        ∧ (t.host.ring r).baseLo = g.baseLo ∧ (t.host.ring r).baseHi = g.baseHi
        ∧ (∀ m, m ≠ r → t.host.ring m = s.host.ring m) ∧ t.host.queues = s.host.queues ∧ onlyHost u t)
  ∧ (∀ (dt r : Nat) (s : State),
    let u := s.advance dt
    let g := s.host.ring r
    sized s → r < 6 → g.owedCause = true → g.holdoffEnd ≤ u.host.follower →
      ∃ t, exec (.ringHoldoffEnd dt r) s = .next t ∧ t.host.ints = s.host.ints.raise (!s.linksStopped) (7 + r)
        ∧ t.host.ring r = { g with holdoffEnd := u.host.follower + g.holdoff, owedCause := false }
        ∧ (∀ m, m ≠ r → t.host.ring m = s.host.ring m) ∧ t.host.queues = s.host.queues ∧ onlyHost u t)

/-- H_INT_CAUSE, H_INT_MASK, H_TIME_LO and H_MEM_CDATA act as their accesses say, and a plain register takes the value written. It formalises parts of
R13, R14, R17, R348, R349, R410. Where the specification leaves a point open it rests on the model's choice in logs 11, 14, 20, 131 and 134. -/
def Obligations.HostRegistersActByTheirAccess : Prop :=
  (∀ (dt : Nat) (v : W32) (s : State),
    let u := s.advance dt
    reachable s →
      ∃ t, exec (.intCauseWrite dt v) s = .next t ∧ t.host.ints.cause = s.host.ints.cause &&& ~~~v ∧ t.host.ints.mask = s.host.ints.mask
        ∧ (∀ x, t.host.ints.sent.count x = s.host.ints.sent.count x + (if x < 14 ∧ ({ s.host.ints with cause := s.host.ints.cause &&& ~~~v } : Ints).group x = true
              ∧ s.host.ints.msixEnable = true ∧ s.host.ints.functionMask = false ∧ (s.host.ints.msixTable.getD (4 * x + 3) 1).getLsbD 0 = false
              ∧ s.host.ints.busMaster = true ∧ s.host.ints.d3hot = false then 1 else 0))
        ∧ (∀ x, x < 14 → t.host.ints.msixPending.getLsbD x = (({ s.host.ints with cause := s.host.ints.cause &&& ~~~v } : Ints).group x
              && (s.host.ints.msixPending.getLsbD x || (s.host.ints.msixEnable && (s.host.ints.masked x || !s.host.ints.maySend true)))))
        ∧ t.host.queues = s.host.queues ∧ t.host.rings = s.host.rings ∧ onlyHost u t)
  ∧ (∀ (dt : Nat) (v : W32) (s : State),
    let u := s.advance dt
    reachable s →
      ∃ t, exec (.intMaskWrite dt v) s = .next t ∧ t.host.ints.mask = v ∧ t.host.ints.cause = s.host.ints.cause
        ∧ (∀ x, t.host.ints.sent.count x = s.host.ints.sent.count x + (if x < 14 ∧ ({ s.host.ints with mask := v } : Ints).group x = true
              ∧ s.host.ints.msixEnable = true ∧ s.host.ints.functionMask = false ∧ (s.host.ints.msixTable.getD (4 * x + 3) 1).getLsbD 0 = false
              ∧ s.host.ints.busMaster = true ∧ s.host.ints.d3hot = false then 1 else 0))
        ∧ (∀ x, x < 14 → t.host.ints.msixPending.getLsbD x = (({ s.host.ints with mask := v } : Ints).group x
              && (s.host.ints.msixPending.getLsbD x || (s.host.ints.msixEnable && (s.host.ints.masked x || !s.host.ints.maySend true)))))
        ∧ t.host.queues = s.host.queues ∧ t.host.rings = s.host.rings ∧ onlyHost u t)
  ∧ (∀ (dt : Nat) (s : State),
    let u := s.advance dt
    reachable s →
      ∃ t, exec (.timeLoRead dt) s = .next t
        ∧ t.host.timeHi.toNat * 2 ^ 32 + t.host.readData.toNat = tickNat u.host.follower
        ∧ t.host.follower = u.host.follower ∧ t.host.queues = s.host.queues ∧ onlyHost u t)
  ∧ (∀ (dt : Nat) (s : State) (c : Ctr),
    let u := s.advance dt
    reachable s → s.host.mem.selected = some c →
      ∃ t, exec (.memCdataRead dt) s = .next t ∧ t.host.readData = BitVec.ofNat 32 c.val ∧ t.host.mem.csel.getLsbD 31 = c.ovf
        ∧ t.host.mem.selected = some Ctr.zero ∧ t.host.mem.status = s.host.mem.status ∧ t.host.queues = s.host.queues ∧ onlyHost u t)
  ∧ (∀ (dt : Nat) (v : W32) (s : State),
    let u := s.advance dt
    reachable s → sized s →
      (∀ n, n < 6 → (s.host.queue n).waiting = [] →
        ∃ t, exec (.registerWrite dt (0x200C + 0x20 * n) v) s = .next (t.drained n) ∧ t.host.queue n = { s.host.queue n with base := v }
        ∧ t.regRead (0x200C + 0x20 * n) = v ∧ (∀ m, m ≠ n → t.host.queue m = s.host.queue m) ∧ onlyHost u t)
      ∧ (∀ n, n < 8 → ∃ t, exec (.registerWrite dt (0x5004 + 0x20 * n) v) s = .next t ∧ t.host.cu n = { s.host.cu n with src := v }
        ∧ t.regRead (0x5004 + 0x20 * n) = v ∧ (∀ m, m ≠ n → t.host.cu m = s.host.cu m) ∧ onlyHost u t)
      ∧ (∃ t, exec (.registerWrite dt 0x7004 v) s = .next t ∧ t.host.eth.ipv4 = v ∧ t.regRead 0x7004 = v ∧ onlyHost u t
        ∧ ((∀ n ∈ [0, 1, 4], (s.host.queue n).pkts = [] ∧ (s.host.queue n).hold = []) → t.host = { u.host with eth := { u.host.eth with ipv4 := v } }))
      ∧ (∃ t, exec (.registerWrite dt 0x10010 v) s = .next t ∧ t.regRead 0x10010 = v &&& 0xFFFF0000 ∧ t.regRead 0x10000 = 0x96251F3A
          ∧ t.regRead 0x10008 = 0x078000B0 ∧ onlyHost u t)
      ∧ (∃ t, exec (.registerWrite dt 0x10104 v) s = .next t ∧ t.host.pci = { s.host.pci with uncStatus := s.host.pci.uncStatus &&& ~~~v } ∧ onlyHost u t)
      ∧ ∃ t, exec (.registerWrite dt 0x6080 v) s = .next t ∧ t.host.mem.status = s.host.mem.status &&& ~~~(v.setWidth 5) ∧ onlyHost u t)

/-- A datagram of one good packet to the device is accepted as a command, and so is a good frame on SP0, at the instant of its closing flag; while its
reply queue has no room a command waits; what fails its checks is counted and discarded. It formalises parts of R306, R307. Where the specification
leaves a point open it rests on the model's choice in logs 66, 70 and 131. -/
def Obligations.DatagramsAndSerialFramesBecomeCommands : Prop :=
  (∀ (dt : Nat) (src : W32) (port : W16) (d : W16) (ws : List W16) (s : State),
    let u := s.advance dt
    let bytes := wordBytes ([0x0100, d] ++ ws ++ [w (crc16 (wordBytes ws))])
    s.etherOn = true → s.dev.rung = .row → s.host.eth.ipv4 ≠ 0 → s.host.full = false → 3 ≤ ws.length → ws.length ≤ 1024 →
      (nth ws 2 0).toNat = ws.length → (opcodeTable.lookup (opcodeOf ws)).isSome = true → othersIdle 0 s → othersIdle 1 s →
      s.host.eth.used + bytes.length + 28 ≤ 262144 →
      ∃ t, exec (.udpDatagramReceive dt src port bytes) s = .next t
        ∧ (s.host.room .udp = true → t.host.accepted = s.host.accepted ++
            [{ cmd := parseCmd .udp ws, opcode := opcodeOf ws, at_ := u.host.follower, crossed := false, src := (src, port) }] ∧ t.host.eth.waiting = [])
        ∧ (s.host.room .udp = false → t.host.accepted = s.host.accepted ∧ t.host.eth.waiting =
            [{ src := (src, port), at_ := u.host.follower, words := ws, size := bytes.length + 28 }])
        ∧ t.host.transport = s.host.transport ∧ t.host.queues = s.host.queues ∧ onlyHost u t)
  ∧ (∀ (dt : Nat) (src : W32) (port : W16) (bytes : List Byte) (s : State),
    let u := s.advance dt
    s.etherOn = true → s.host.eth.ipv4 ≠ 0 → (nth (byteWords bytes) 0 0 ≠ 0x0100 ∨ s.host.eth.used + bytes.length + 28 > 262144) →
      othersIdle 0 s → othersIdle 1 s →
      ∃ t, exec (.udpDatagramReceive dt src port bytes) s = .next t
        ∧ t.host = { u.host with transport := countAt 0 32 1 u.host.transport } ∧ onlyHost u t)
  ∧ (∀ (dt : Nat) (ws : List W16) (x : Tick) (rest : List (Byte × Tick)) (s : State),
    let u := s.advance dt
    let bytes := escape ([0x00] ++ wordBytes (ws ++ [w (crc16 (wordBytes ws))]))
    s.sp0On = true → s.dev.rung = .row → s.host.full = false → 3 ≤ ws.length → ws.length ≤ 1024 →
      (nth ws 2 0).toNat = ws.length → (opcodeTable.lookup (opcodeOf ws)).isSome = true → sp0First s.host.sp0Buf = some (bytes, x, rest) →
      (s.host.room .sp0 = true → ∃ t, exec (.sp0FrameReceive dt bytes) s = .next t
        ∧ t.host.accepted = s.host.accepted ++ [{ cmd := parseCmd .sp0 ws, opcode := opcodeOf ws, at_ := x, crossed := false, src := (0, 0) }]
        ∧ t.host.sp0Buf = rest ∧ t.host.transport = s.host.transport ∧ t.host.queues = s.host.queues ∧ onlyHost u t)
      ∧ (s.host.room .sp0 = false → exec (.sp0FrameReceive dt bytes) s = .next u))
  ∧ (∀ (dt : Nat) (bytes : List Byte) (x : Tick) (rest : List (Byte × Tick)) (s : State),
    let u := s.advance dt
    s.sp0On = true → sp0First s.host.sp0Buf = some (bytes, x, rest) → sp0Packet bytes = none →
      ∃ t, exec (.sp0FrameReceive dt bytes) s = .next t
        ∧ t.host = { u.host with sp0Buf := rest, transport := countAt 1 32 1 u.host.transport } ∧ onlyHost u t)

/-- SP0's escapes come off again: what a frame carries is what was sent, and no flag stands inside it. It formalises parts of R307. -/
def Obligations.EscapedBytesComeBack : Prop :=
  ∀ bs : List Byte, unescape (escape bs) = some bs ∧ (0x7E : Byte) ∉ escape bs

/-- The Ethernet port answers ARP and echo requests, learns addresses and passes datagrams on; ARP is retried, LINK follows the PCS. An I2C transfer sets
the pointer with its first byte and advances it with every other byte written or read, and RESET_REQ resets; the test port takes its instruction, and
the links that it has stopped go on after the last of EXTEST, CLAMP and HIGHZ. It formalises parts of R354, R355, R362, R363, R471. Where the
specification leaves a point open it rests on the model's choice in logs 66, 70 and 81. -/
def Obligations.EthernetI2cAndTestPortAct : Prop :=
  (∀ (dt : Nat) (n : Nat) (sender : W32) (s : State),
    let u := s.advance dt
    s.etherOn = true → s.dev.rung = .row → s.host.eth.ipv4 ≠ 0 → n ≤ s.host.eth.mtu → s.host.eth.buffered = [] →
      ∃ t, exec (.ethFrameReceive dt { tagged := false, length := n, payload := .arpRequest s.host.eth.ipv4 sender }) s = .next t
        ∧ t.host = { u.host with eth := { u.host.eth with answers := s.host.eth.answers ++ [.arpReply sender] } } ∧ onlyHost u t)
  ∧ (∀ (dt : Nat) (n : Nat) (src : W32) (data : List Byte) (s : State),
    let u := s.advance dt
    s.etherOn = true → s.dev.rung = .row → s.host.eth.ipv4 ≠ 0 → n ≤ s.host.eth.mtu → s.host.eth.buffered = [] →
      ∃ t, exec (.ethFrameReceive dt { tagged := false, length := n, payload := .echoRequest s.host.eth.ipv4 src data }) s = .next t
        ∧ t.host = { u.host with eth := { u.host.eth with answers := s.host.eth.answers ++ [.echoReply src data] } } ∧ onlyHost u t)
  ∧ (∀ (dt : Nat) (n : Nat) (sender : W32) (s : State),
    let u := s.advance dt
    s.etherOn = true → s.dev.rung = .row → s.host.eth.ipv4 ≠ 0 → n ≤ s.host.eth.mtu → s.host.eth.buffered = [] →
      ∃ t, exec (.ethFrameReceive dt { tagged := false, length := n, payload := .arpReply sender }) s = .next t
        ∧ sender ∈ t.host.eth.arp ∧ (∀ a ∈ s.host.eth.arp, a ∈ t.host.eth.arp) ∧ onlyHost u t)
  ∧ (∀ (dt : Nat) (f : EthFrame) (s : State), (f.tagged = true ∨ f.length > s.host.eth.mtu) →
      exec (.ethFrameReceive dt f) s = .next (s.advance dt))
  ∧ (∀ (dt : Nat) (s : State),
    let u := s.advance dt
    let ask (n : Nat) := if (s.host.queue n).dest = .udp ∧ (s.host.queue n).destAddr ∉ s.host.eth.arp then [EthAnswer.arpRequest (s.host.queue n).destAddr] else []
    s.etherOn = true → s.host.eth.ipv4 ≠ 0 →
      ∃ t, exec (.arpRetry dt) s = .next t ∧ t.host = { u.host with eth := { u.host.eth with answers := s.host.eth.answers ++ ask 0 ++ ask 1 } } ∧ onlyHost u t)
  ∧ (∀ (dt : Nat) (up : Bool) (s : State),
    let u := s.advance dt
    s.hostOn = true → s.linksStopped = false → s.host.eth.link ≠ up →
      ∃ t, exec (.ethLinkChange dt up) s = .next t ∧ t.host.eth = { s.host.eth with link := up } ∧ t.host.ints = s.host.ints.raise true 28
        ∧ t.host.queues = s.host.queues ∧ onlyHost u t)
  ∧ (∀ (dt n : Nat) (b : Byte) (data : List Byte) (s : State),
    let u := s.advance dt
    s.dev.hostRails = true → s.linksStopped = false → b :: data ≠ [0x0A, 0xA5, 0x5A] →
      ∃ t, exec (.i2cWrite dt ⟨b :: data, n⟩) s = .next t ∧ t.dev.i2cPointer = b + BitVec.ofNat 8 data.length + BitVec.ofNat 8 n
        ∧ t.dev.i2cRead.length = n ∧ (b = 0 → data = [] → 3 ≤ n → t.dev.i2cRead.take 3 = [0x96, 0x25, 0xB0])
        ∧ (b = 4 → data = [] → n = 2 → t.dev.i2cRead = [BitVec.ofNat 8 ((tempWord s.host.freeCtr).toNat / 256), BitVec.ofNat 8 (tempWord s.host.freeCtr).toNat])
        ∧ t.dev = { u.dev with i2cPointer := t.dev.i2cPointer, i2cRead := t.dev.i2cRead }
        ∧ t.host = { u.host with freeCtr := t.host.freeCtr } ∧ t.line = u.line ∧ t.link = u.link ∧ t.hbMem = s.hbMem ∧ t.lbMem = s.lbMem ∧ t.hostRam = s.hostRam)
  ∧ (∀ (dt n : Nat) (s : State),
    let u := s.advance dt
    s.dev.hostRails = true → s.linksStopped = false →
      ∃ t, exec (.i2cWrite dt ⟨[], n⟩) s = .next t ∧ t.dev.i2cPointer = s.dev.i2cPointer + BitVec.ofNat 8 n ∧ t.dev.i2cRead = u.i2cBytes s.dev.i2cPointer n
        ∧ t.host = { u.host with freeCtr := t.host.freeCtr } ∧ t.line = u.line)
  ∧ (∀ (dt : Nat) (s : State),
    s.hostOn = true → s.linksStopped = false →
      ∃ t, exec (.i2cResetReq dt) s = .next t ∧ t.dev.mode = .boot ∧ t.dev.modeEpoch = s.dev.modeEpoch + 1 ∧ t.host.running = false
        ∧ (∀ k ∈ t.host.keys, k.state = .empty ∧ k.key = []) ∧ t.hbMem = s.hbMem ∧ t.lbMem = s.lbMem ∧ t.hostRam = s.hostRam)
  ∧ (∀ (dt : Nat) (i : JtagInstr) (s : State),
    let u := s.advance dt
    let c : State := { u with host := { u.host with jtag := i, tdo := jtagData i } }
    s.dev.hostRails = true →
      exec (.jtagInstruction dt i) s = .next (if s.linksStopped = true ∧ c.linksStopped = false then c.linksResume else c)
        ∧ (c.linksStopped = true ↔ i = .extest ∨ i = .clamp ∨ i = .highz) ∧ (i = .idcode → c.host.tdo.length = 32))

/-! ## Keys, check units and cipher engines -/

/-- A staging write changes one staging word and no key; a commit with its guard loads the staged key into its slot, raises the slot's epoch by one and
leaves every other slot; a commit without it does nothing. A check unit latches its settings at GO, stores the check of its bytes at the end of the
run, and clears MISCOUNT as its status is read. It formalises parts of R15, R417, R418, R439, R441, R446. Where the specification leaves a point open
it rests on the model's choice in logs 5, 20 and 21. -/
def Obligations.KeysAndCheckUnitsRunAsTheirRegistersSay : Prop :=
  (∀ (dt n i : Nat) (v : W32) (s : State),
    let u := s.advance dt
    let k := s.host.key n
    reachable s → sized s → n < 64 →
      ∃ t, exec (.keyStagingWrite dt n i v) s = .next t
        ∧ t.host.key n = { k with staging := (if s.dev.mode = .quarantine then List.replicate 8 0 else k.staging.set i v), writes := (t.host.key n).writes }
        ∧ (∀ m, m ≠ n → t.host.key m = s.host.key m) ∧ t.host.engines = s.host.engines ∧ t.host.queues = s.host.queues ∧ onlyHost u t)
  ∧ (∀ (dt n : Nat) (v : W32) (s : State),
    let u := s.advance dt
    let k := s.host.key n
    let len := bitsOf v.toNat 0 2
    reachable s → sized s → n < 64 → bitsOf v.toNat 24 8 = 0xA5 → s.dev.mode ≠ .quarantine → len ≠ 3 →
      ∃ t, exec (.keyCommit dt n v) s = .next t
        ∧ (t.host.key n).state = .loaded ∧ (t.host.key n).key = stagedKey k len ∧ (t.host.key n).len = len ∧ (t.host.key n).keyId = w k.cfg.toNat
        ∧ (t.host.key n).rxEn = k.cfg.getLsbD 16 ∧ (t.host.key n).rxStream = k.cfg.getLsbD 17 ∧ (t.host.key n).txEn = k.cfg.getLsbD 18
        ∧ (t.host.key n).staging = List.replicate 8 0 ∧ (t.host.key n).counter < 2 ^ 63 ∧ (t.host.key n).epoch = k.epoch + 1
        ∧ (∀ m, m ≠ n → t.host.key m = s.host.key m) ∧ t.host.ceStatus = s.host.ceStatus ||| 32 ∧ t.host.cus = s.host.cus ∧ onlyHost u t)
  ∧ (∀ (dt n : Nat) (v : W32) (s : State), reachable s → (bitsOf v.toNat 24 8 ≠ 0xA5 ∨ s.dev.mode = .quarantine) →
      exec (.keyCommit dt n v) s = .next (s.advance dt))
  ∧ (∀ (dt n : Nat) (v : W32) (s : State),
    let u := s.advance dt
    let c := s.host.cu n
    reachable s → sized s → n < 8 → v.getLsbD 31 = true → v.getLsbD 30 = false →
      ∃ t, exec (.cuGo dt n v) s = .next t
        ∧ (c.run = none → t.host.cu n = { c with ctrl := v &&& 0x3FFFFFFF, status := 0, run := some { ctrl := v &&& 0x3FFFFFFF, src := bitsOf c.src.toNat 0 23, len := bitsOf c.len.toNat 0 24, addr := c.addr, fold := c.fold, expect := c.expect } })
        ∧ (c.run ≠ none → t.host.cu n = { c with ctrl := v &&& 0x3FFFFFFF })
        ∧ (∀ m, m ≠ n → t.host.cu m = s.host.cu m) ∧ t.host.queues = s.host.queues ∧ onlyHost u t)
  ∧ (∀ (dt n : Nat) (s : State) (r : CuRun),
    let u := s.advance dt
    let c := s.host.cu n
    let d := u.readHb (0x40 + n) r.src r.len
    let k := checkOf (bitsOf r.ctrl.toNat 0 2) (foldBytes r ++ d.1)
    let v := if r.reserved then ((Config.freeLong d.2.2.host.freeCtr).toNat % 2 ^ k.2, k.2) else k
    let same := decide (v.1 = r.expect.toNat % 2 ^ v.2)
    let cmp := r.ctrl.getLsbD 12
    sized s → n < 8 → c.run = some r → u.blocked (0x40 + n) r.src r.len false = false →
      ∃ t, exec (.cuRunDone dt n) s = .next t
        ∧ (t.host.cu n).run = none ∧ (t.host.cu n).result = BitVec.ofNat 32 v.1
        ∧ (t.host.cu n).status.getLsbD 0 = true
        ∧ (t.host.cu n).status.getLsbD 1 = (c.status.getLsbD 1 || (cmp && !same))
        ∧ (t.host.cu n).status.getLsbD 2 = (c.status.getLsbD 2 || (cmp && same))
        ∧ (t.host.cu n).status.getLsbD 3 = (c.status.getLsbD 3 || !d.2.1)
        ∧ (t.host.cu n).misCount = (if cmp = true ∧ same = false then satAdd 15 1 c.misCount else c.misCount)
        ∧ (∀ m, m ≠ n → t.host.cu m = s.host.cu m) ∧ t.host.keys = s.host.keys ∧ onlyHost u t)
  ∧ (∀ (dt n : Nat) (s : State),
    let u := s.advance dt
    let c := s.host.cu n
    reachable s → sized s → n < 8 →
      ∃ t, exec (.cuStatusRead dt n) s = .next t ∧ t.host.readData = c.statusWord ∧ t.host.cu n = { c with misCount := Ctr.zero }
        ∧ (∀ m, m ≠ n → t.host.cu m = s.host.cu m) ∧ t.host.queues = s.host.queues ∧ onlyHost u t)

/-- A write of ABORT stops a running check unit: it becomes idle with ABORTED set, its result, DONE and MISMATCH as they were; an idle unit does not
change. It formalises R442. -/
def Obligations.AbortStopsACheckRun : Prop :=
  (∀ (dt n : Nat) (s : State),
    let u := s.advance dt
    let c := s.host.cu n
    reachable s → sized s → n < 8 → c.run ≠ none →
      ∃ t, exec (.cuAbort dt n) s = .next t ∧ t.host.cu n = { c with run := none, status := c.status ||| 16 }
        ∧ (∀ m, m ≠ n → t.host.cu m = s.host.cu m) ∧ t.host.queues = s.host.queues ∧ t.host.keys = s.host.keys ∧ onlyHost u t)
  ∧ (∀ (dt n : Nat) (s : State),
    let u := s.advance dt
    reachable s → sized s → n < 8 → (s.host.cu n).run = none → exec (.cuAbort dt n) s = .next u)

/-- A free engine takes up the operation that comes first and copies its slot's key; an engine whose operation is of a lower class suspends it for a
waiting one. A cipher operation ends by emptying its context: a CIPHER_RUN that encrypts writes its output, a transmit frame gets its payload string;
a STREAM operation releases portions of 4,096 bytes; once zeroing is complete the context is empty again. A suspended operation resumes, and ends when
its slot was erased. It formalises parts of R415, R416, R427, R430, R431, R433. Where the specification leaves a point open it rests on the model's
choice in logs 5, 6, 20, 21, 52 and 139. -/
def Obligations.CipherOperationsStartAndEnd : Prop :=
  (∀ (dt e : Nat) (s : State) (o : CipherOp),
    let u := s.advance dt
    let k := s.host.key o.slot
    s.dev.rung = .row → sized s → e < 16 → o.slot < 64 → (s.host.engine e).active = none → (s.host.engine e).suspended = none →
      bestOp s.host.cipherQ = some o → k.state = .loaded →
      ∃ t x, exec (.cipherOpStart dt e) s = .next t
        ∧ t.host.engine e = { s.host.engine e with active := some x }
        ∧ x.key = k.key ∧ x.keyLen = k.len ∧ x.keyId = k.keyId ∧ x.slotEpoch = k.epoch ∧ x.origin = o.origin ∧ x.mode = o.mode ∧ x.slot = o.slot
        ∧ x.nonce = (if o.decrypt then o.nonce else beBytes 4 (s.dev.nid.toNat * 64 + o.slot) ++ beBytes 8 k.counter)
        ∧ t.host.cipherQ = s.host.cipherQ.erase o
        ∧ (o.decrypt = true → t.host.keys = s.host.keys)
        ∧ (o.decrypt = false → (t.host.key o.slot).state = (if k.counter = 2 ^ 64 - 1 then .exhausted else .loaded))
        ∧ (o.decrypt = false → k.counter ≠ 2 ^ 64 - 1 → t.host.key o.slot = { k with counter := k.counter + 1 })
        ∧ (∀ m, m ≠ o.slot → t.host.key m = s.host.key m) ∧ (∀ m, m ≠ e → t.host.engine m = s.host.engine m) ∧ onlyHost u t)
  ∧ (∀ (dt e : Nat) (s : State) (o a : CipherOp),
    let u := s.advance dt
    let k := s.host.key o.slot
    s.dev.rung = .row → sized s → e < 16 → o.slot < 64 → bestOp s.host.cipherQ = some o → k.state = .loaded → (s.host.engine e).active = some a →
      s.host.suspends e o.cls = true →
      ∃ t x, exec (.cipherSuspend dt e) s = .next t
        ∧ (t.host.engine e).active = some x ∧ (t.host.engine e).suspended = some a
        ∧ x.key = k.key ∧ x.origin = o.origin ∧ x.slot = o.slot ∧ o.cls < a.cls
        ∧ t.host.cipherQ = s.host.cipherQ.erase o
        ∧ (∀ m, m ≠ o.slot → t.host.key m = s.host.key m) ∧ (∀ m, m ≠ e → t.host.engine m = s.host.engine m) ∧ onlyHost u t)
  ∧ (∀ (l : List CipherOp) (o : CipherOp), bestOp l = some o → o ∈ l ∧ ∀ x ∈ l, o.cls ≤ x.cls)
  ∧ (∀ (dt e : Nat) (s : State) (o : CipherOp),
    let u := s.advance dt
    let a := u.readHb (0x30 + e) o.src o.aadLen
    let r := a.2.2.readHb (0x30 + e) (o.src + o.aadLen) o.outLen
    let out := cryptData o.mode o.key o.nonce 0 r.1
    let tag := cryptTag o.mode o.key o.nonce a.1 r.1 out o.tagLen
    s.dev.rung = .row → sized s → e < 16 → u.engineWaits e = false → (s.host.engine e).active = some o → o.origin = .run → o.zeroing = false → o.decrypt = false →
      ((s.host.engine e).suspended.all fun b => b.erased.isNone || b.origin == .run) = true →
      o.released = 0 → o.input = [] → o.clobbers = false → o.touched = false →
      ∃ t, exec (.cipherOpEnd dt e) s = .next t
        ∧ (t.host.engine e).active = (s.host.engine e).suspended.filter (fun b => b.erased.isNone) ∧ (t.host.engine e).suspended = none
        ∧ t.hbMem = ((r.2.2.engineWrite e o.dst a.1).engineWrite e (o.dst + o.aadLen) (out ++ tag)).hbMem
        ∧ t.host.keys = s.host.keys ∧ (∀ m, m ≠ e → (t.host.engine m).active = (s.host.engine m).active)
        ∧ t.dev = s.dev ∧ t.line = u.line ∧ t.link = s.link ∧ t.lbMem = s.lbMem ∧ t.hostRam = s.hostRam)
  ∧ (∀ (dt e ac ix : Nat) (s : State) (o : CipherOp),
    let u := s.advance dt
    let r := u.readHb (0x30 + e) o.src o.len
    let sec := beBytes 2 o.keyId.toNat ++ [0, 0] ++ o.nonce
    let ct := cryptData .gcm o.key o.nonce 0 r.1
    let tag := cryptTag .gcm o.key o.nonce (o.input.take 10 ++ [0, 0] ++ o.input.drop 12 ++ sec) r.1 ct 16
    s.dev.rung = .row → sized s → e < 16 → u.engineWaits e = false → (s.host.engine e).active = some o → o.origin = .tx ac ix → o.zeroing = false →
      ((s.host.engine e).suspended.all fun b => b.erased.isNone || b.origin == .run) = true →
      ∃ t, exec (.cipherOpEnd dt e) s = .next t
        ∧ (t.host.engine e).active = (s.host.engine e).suspended.filter (fun b => b.erased.isNone) ∧ (t.host.engine e).suspended = none
        ∧ t.host.txq = s.host.txq.map (fun g => if g.action = ac ∧ g.index = ix then { g with payload := some (o.input ++ sec ++ ct ++ tag), ciphering := false } else g)
        ∧ t.host.keys = s.host.keys ∧ onlyHost u t)
  ∧ (∀ (dt e : Nat) (s : State) (o : CipherOp),
    let u := s.advance dt
    s.dev.rung = .row → sized s → e < 16 → u.engineWaits e = false → (s.host.engine e).active = some o → o.origin = .run → o.zeroing = false →
      o.stream = true → o.decrypt = true → o.mode ≠ .ctr → 0 < o.released → o.released + 4096 < o.outLen → o.clobbers = false → o.touched = false →
      let r := u.readHb (0x30 + e) (o.src + o.aadLen + o.released) 4096
      ∃ t x, exec (.cipherRelease dt e) s = .next t ∧ (t.host.engine e).active = some x ∧ x.released = o.released + 4096
        ∧ (t.host.engine e).suspended = (s.host.engine e).suspended
        ∧ t.hbMem = (r.2.2.engineWrite e (o.dst + o.aadLen + o.released) (cryptData o.mode o.key o.nonce o.released r.1)).hbMem
        ∧ t.host.keys = s.host.keys ∧ t.dev = s.dev ∧ t.line = u.line ∧ t.link = s.link ∧ t.lbMem = s.lbMem ∧ t.hostRam = s.hostRam)
  ∧ (∀ (dt e : Nat) (s : State) (o : CipherOp),
    let u := s.advance dt
    s.dev.rung = .row → sized s → e < 16 → u.engineWaits e = false → (s.host.engine e).active = some o → o.origin = .run → o.zeroing = true →
      s.hbMem.wf = true → ((s.host.engine e).suspended.all fun b => b.erased.isNone || b.origin == .run) = true →
      ∃ t, exec (.cipherZeroingDone dt e) s = .next t
        ∧ (t.host.engine e).active = (s.host.engine e).suspended.filter (fun b => b.erased.isNone) ∧ (t.host.engine e).suspended = none
        ∧ (∀ a, (a < o.dst ∨ o.dst + o.written ≤ a) → t.hbMem.read a = s.hbMem.read a)
        ∧ (∀ a, o.dst ≤ a → a < o.dst + o.written → t.hbMem.read a = s.hbMem.read a ∨ t.hbMem.read a = 0)
        ∧ t.host.keys = s.host.keys ∧ t.dev = s.dev ∧ t.line = u.line ∧ t.link = s.link ∧ t.lbMem = s.lbMem ∧ t.hostRam = s.hostRam)

/-! ## Memory -/

/-- A write of OWNER begins a handover and sets the test bits; a written 1 clears FAILED; when the last access in flight is served the handover is over,
and the accesses that waited are served. An access to a host bank is served when its owner class or SHARED_READ admits it, and refused else: a host
write marks the pending frames whose data bytes it changes; a refused write changes no byte, a refused read returns zeros, and the bank counts it. An
access of the new owner waits for the handover, one that comes in MOORED for its end, and ASHORE serves none. It formalises parts of R2, R392, R394,
R397, R404. Where the specification leaves a point open it rests on the model's choice in logs 14, 20, 21, 67, 102 and 140. -/
def Obligations.BanksAndAccessesFollowTheOwner : Prop :=
  (∀ (dt n : Nat) (v : W32) (s : State),
    let u := s.advance dt
    let b := s.host.bank n
    reachable s → sized s → n < 32 →
      ∃ t, exec (.bankHandover dt n v) s = .next t
        ∧ (t.host.bank n).owner = (if hostOwners.contains (bitsOf v.toNat 8 8) then bitsOf v.toNat 8 8 else b.owner) ∧ (t.host.bank n).march = v.getLsbD 2 ∧ (t.host.bank n).vital = v.getLsbD 1
        ∧ (t.host.bank n).shared = v.getLsbD 0 ∧ (t.host.bank n).failed = (b.failed && !v.getLsbD 30) ∧ (t.host.bank n).faults = b.faults
        ∧ (bitsOf v.toNat 8 8 = b.owner ∨ hostOwners.contains (bitsOf v.toNat 8 8) = false → (t.host.bank n).handover = b.handover)
        ∧ (bitsOf v.toNat 8 8 ≠ b.owner → hostOwners.contains (bitsOf v.toNat 8 8) = true → b.handover = none →
            (t.host.bank n).handover = some { original := b.owner, began := u.host.follower, inFlight := 0, waiting := [] })
        ∧ (bitsOf v.toNat 8 8 ≠ b.owner → b.handover ≠ none → (t.host.bank n).handover = b.handover)
        ∧ (∀ m, m ≠ n → t.host.bank m = s.host.bank m) ∧ t.host.queues = s.host.queues ∧ onlyHost u t)
  ∧ (∀ (dt n : Nat) (s : State),
    let u := s.advance dt
    reachable s → sized s → n < 32 →
      ∃ t, exec (.marchFailedClear dt n) s = .next t ∧ t.host.bank n = { s.host.bank n with failed := false }
        ∧ (∀ m, m ≠ n → t.host.bank m = s.host.bank m) ∧ t.host.queues = s.host.queues ∧ onlyHost u t)
  ∧ (∀ (dt n : Nat) (s : State) (hv : Handover),
    let u := s.advance dt
    let b := s.host.bank n
    sized s → n < 32 → b.handover = some hv →
      ∃ t, exec (.bankOwner dt n) s = .next t ∧ (t.host.bank n).handover = none ∧ (t.host.bank n).owner = b.owner
        ∧ (hv.original ≠ b.owner → (s.host.queue 0).hold = [] → (s.host.queue 0).level + (s.host.queue 0).reserved + 128 ≤ (s.host.queue 0).depthF →
            t.host.mem.status.getLsbD 4 = true)
        ∧ (hv.waiting = [] → t.hbMem = s.hbMem ∧ ∀ m, m ≠ n → (t.host.bank m).owner = (s.host.bank m).owner ∧ (t.host.bank m).handover = (s.host.bank m).handover)
        ∧ (hv.waiting.all (fun q => q.req.master != 0x20) = true → t.line = u.line ∧ t.link = s.link)
        ∧ t.dev = s.dev ∧ t.line.ports = s.line.ports ∧ t.lbMem = s.lbMem ∧ t.hostRam = s.hostRam)
  ∧ (∀ (dt ofs n : Nat) (s : State),
    let u := s.advance dt
    let b := s.host.bank (ofs / 0x40000)
    reachable s → ofs + n ≤ bar2Size → 0 < n → ofs % 16 + n ≤ 16 → b.waits 0x20 (.read n) = false →
      (b.serves 0x10 false = true → s.host.inQueue ofs = false →
        exec (.bar2Access dt ofs (.read n)) s = .next { u with host := { u.host with readBytes := s.hbMem.readN ofs n } })
      ∧ (b.serves 0x10 false = true → s.host.inQueue ofs = true →
        exec (.bar2Access dt ofs (.read n)) s = .next { u with host := { u.host with
          readBytes := (List.range n).map fun i => Config.freeByte (s.host.freeCtr + i), freeCtr := s.host.freeCtr + n } })
      ∧ (b.serves 0x10 false = false → sized s → u.host.foreign 0 = [] → ∃ t, exec (.bar2Access dt ofs (.read n)) s = .next t ∧ t.host.readBytes = List.replicate n 0
          ∧ (t.host.bank (ofs / 0x40000)).faults = satAdd 16 1 b.faults ∧ onlyHost u t))
  ∧ (∀ (dt ofs : Nat) (bs : List (Option Byte)) (s : State),
    let u := s.advance dt
    let b := s.host.bank (ofs / 0x40000)
    reachable s → ofs + bs.length ≤ bar2Size → bs ≠ [] → ofs % 16 + bs.length ≤ 16 → b.waits 0x20 (.write bs) = false →
      (b.serves 0x10 true = true →
        exec (.bar2Access dt ofs (.write bs)) s = .next (({ u with hbMem := s.hbMem.writeSome ofs bs } : State).touch ofs bs.length))
      ∧ (b.serves 0x10 true = false → sized s → u.host.foreign 0 = [] → ∃ t, exec (.bar2Access dt ofs (.write bs)) s = .next t
          ∧ (t.host.bank (ofs / 0x40000)).faults = satAdd 16 1 b.faults ∧ t.hbMem = s.hbMem ∧ onlyHost u t))
  ∧ (∀ (dt : Nat) (q : BankReq) (bs : List (Option Byte)) (s : State),
    let u := s.advance dt
    let b := s.host.bank (q.bank - 128)
    s.dev.rung = .row → 128 ≤ q.bank → q.bank < 160 → q.access = .write bs → bs ≠ [] → q.offset % 16 + bs.length ≤ 16 → q.offset + bs.length ≤ 0x40000 →
      b.waits q.master q.access = false → b.serves (classOf q.master) true = true →
      let t : State := { u with hbMem := s.hbMem.writeSome ((q.bank - 128) * 0x40000 + q.offset) bs }
      exec (.bankAccess dt q) s = .next (if q.master = 0x20 then t.touch ((q.bank - 128) * 0x40000 + q.offset) bs.length else t))
  ∧ (∀ (dt : Nat) (q : BankReq) (s : State) (hv : Handover),
    let u := s.advance dt
    let b := s.host.bank (q.bank - 128)
    s.dev.rung = .row → sized s → 128 ≤ q.bank → q.bank < 160 → b.handover = some hv → b.waits q.master q.access = true →
      0 < accessSize q.access → q.offset < 0x40000 →
      ∃ t, exec (.bankAccess dt q) s = .next t
        ∧ t.host.bank (q.bank - 128) = { b with handover := some { hv with waiting := hv.waiting ++ [⟨{ q with portA := none }, []⟩] } }
        ∧ (∀ m, m ≠ q.bank - 128 → t.host.bank m = s.host.bank m) ∧ onlyHost u t)
  ∧ (∀ (dt ofs : Nat) (acc : RowAccess) (s : State) (hv : Handover),
    let u := s.advance dt
    let b := s.host.bank (ofs / 0x40000)
    reachable s → sized s → ofs < bar2Size → 0 < accessSize acc → b.handover = some hv → b.waits 0x20 acc = true →
      exec (.bar2Access dt ofs acc) s = .next (u.onHost fun h => h.modBank (ofs / 0x40000) fun b =>
        { b with handover := some { hv with waiting := hv.waiting ++ [⟨⟨0x20, 128 + ofs / 0x40000, ofs % 0x40000, acc, none⟩, []⟩] } }))
  ∧ (∀ (dt : Nat) (q : BankReq) (s : State),
    let u := s.advance dt
    (s.dev.rung = .ashore → exec (.bankAccess dt q) s = .next u)
      ∧ (s.dev.rung = .moored → exec (.bankAccess dt q) s = .next (u.onHost fun h => { h with mem := { h.mem with held := h.mem.held ++ [⟨q, []⟩] } })))
  ∧ (∀ (dt n : Nat) (q : BankReq) (s : State),
    let u := s.advance dt
    s.dev.rung = .row → q.bank < 68 → q.access = .read n → q.portA = none → 0 < n → q.offset % 16 + n ≤ 16 → lineServes q.bank q.master false = true →
      ∃ t, exec (.bankAccess dt q) s = .next t ∧ t.line.mem.readBytes = u.lbRead (lineBankAt q.bank + q.offset) n
        ∧ t.line.mem.faults = s.line.mem.faults ∧ t.lbMem = s.lbMem ∧ t.hbMem = s.hbMem ∧ t.host = u.host ∧ t.dev = s.dev)

/-- A borrow of the background test that passes leaves every byte as it was and moves on; one that fails marks its bank, counts the failure, and touches
the 32 bytes of its group alone; 2 µs lie between two borrows, a bank with a handover pending is not borrowed, and below ROW nothing is. It formalises
parts of R405. -/
def Obligations.TheMarchTestRestoresItsGroup : Prop :=
  (∀ (dt : Nat) (s : State) (m : March),
    let u := s.advance dt
    let ok (b : Nat) := (s.host.bank b).march && !(s.host.bank b).vital && !(s.host.bank b).failed
    let m' := { m with last := some u.host.follower }
    s.dev.rung = .row → s.hostOn = true → s.host.mem.march.next ok 32 = some m →
      ((s.host.bank m.bank).handover ≠ none ∨ m.rested u.host.follower = false → ∀ f : Option MarchFault, exec (.marchBorrow dt .host f) s = .next u)
      ∧ ((s.host.bank m.bank).handover = none → m.rested u.host.follower = true →
          exec (.marchBorrow dt .host none) s = .next (u.onHost fun h => { h with mem := { h.mem with march := m'.step 8192 } }))
      ∧ ∀ f : MarchFault, sized s → (s.host.bank m.bank).handover = none → m.rested u.host.follower = true →
          (s.host.queue 0).hold = [] → (s.host.queue 0).level + (s.host.queue 0).reserved + 128 ≤ (s.host.queue 0).depthF → u.host.foreign 0 = [] →
          ∃ t, exec (.marchBorrow dt .host (some f)) s = .next t ∧ (t.host.bank m.bank).failed = true
            ∧ t.host.mem.marchFails = satAdd 16 1 s.host.mem.marchFails ∧ t.host.mem.status.getLsbD 3 = true
            ∧ (∀ a, (a < m.bank * 0x40000 + m.offset 8192 ∨ m.bank * 0x40000 + m.offset 8192 + 32 ≤ a) → t.hbMem.read a = s.hbMem.read a)
            ∧ (∀ b, b ≠ m.bank → t.host.bank b = s.host.bank b) ∧ t.dev = s.dev ∧ t.line = u.line ∧ t.lbMem = s.lbMem ∧ t.hostRam = s.hostRam)
  ∧ (∀ (dt : Nat) (s : State) (m : March),
    let u := s.advance dt
    let ok (b : Nat) := nth s.line.mem.marked b false && !nth s.line.mem.vital b false
    let groups := lineBankSize m.bank / 32
    let m' := { m with last := some u.line.clock.tb }
    s.dev.rung = .row → s.dev.lineRails = true → s.dev.lineReset = false → s.line.mem.march.next ok 68 = some m →
      (m.rested u.line.clock.tb = false → ∀ f : Option MarchFault, exec (.marchBorrow dt .line f) s = .next u)
      ∧ (m.rested u.line.clock.tb = true → ∃ t, exec (.marchBorrow dt .line none) s = .next t ∧ t.line.mem.march = m'.step groups ∧ t.lbMem = s.lbMem
        ∧ t.line.mem.marked = s.line.mem.marked ∧ t.line.ports = s.line.ports ∧ onlyLine u t)
      ∧ ∀ f : MarchFault, sized s → m.rested u.line.clock.tb = true →
          ∃ t, exec (.marchBorrow dt .line (some f)) s = .next t ∧ nth t.line.mem.marked m.bank false = false
            ∧ t.line.mem.marchFails = satAdd 16 1 s.line.mem.marchFails
            ∧ (∀ a, (a < lineBankAt m.bank + m.offset groups ∨ lineBankAt m.bank + m.offset groups + 32 ≤ a) → t.lbMem.read a = s.lbMem.read a)
            ∧ (∀ b, b ≠ m.bank → nth t.line.mem.marked b false = nth s.line.mem.marked b false) ∧ t.dev = s.dev ∧ t.hbMem = s.hbMem
            ∧ t.hostRam = s.hostRam)
  ∧ ∀ (dt : Nat) (die : Die) (f : Option MarchFault) (s : State), s.dev.rung ≠ .row → exec (.marchBorrow dt die f) s = .next (s.advance dt)

/-! ## Supplies, resets and boot -/

/-- A die is released when its rails stand, and is reset when they leave their range; what a reset of the host side leaves: BOOT with its event owed, no
key, no command, and its banks but at a loss of supply; the change of mode frees the uncommitted receive contexts. The reset pattern, PERST_N and the
two watchdogs reset what their reach names and leave the rest. It formalises parts of R466, R471, R472. Where the specification leaves a point open it
rests on the model's choice in logs 8, 62, 64 and 114. -/
def Obligations.SuppliesPinsAndWatchdogsReset : Prop :=
  (∀ (dt : Nat) (s : State),
    let u := s.advance dt
    s.dev.hostRails = false → exec (.diePowered dt .host) s = .next { u with dev := { u.dev with hostRails := true } })
  ∧ (∀ (dt : Nat) (s : State),
    let u := s.advance dt
    s.dev.lineRails = false →
      ∃ t, exec (.diePowered dt .line) s = .next t ∧ t.dev.lineRails = true ∧ t.dev.mode = s.dev.mode
        ∧ (s.dev.pattern = none → t.dev.lineReset = false ∧ t.dev.rung = .row ∧ t.line = { u.line with bootId := u.line.bootId + 1, lastReset := 1 }
            ∧ t.dev.owedDone = s.dev.owedDone ++ [1] ∧ t.host.firstSync = true ∧ t.host.inSync = false)
        ∧ (s.dev.pattern ≠ none → t.dev.lineReset = true ∧ t.line = u.line)
        ∧ t.host.keys = s.host.keys ∧ t.hbMem = s.hbMem ∧ t.lbMem = s.lbMem ∧ t.hostRam = s.hostRam)
  ∧ (∀ (dt : Nat) (s : State),
    let u := s.advance dt
    s.dev.hostRails = true →
      ∃ t, exec (.railOutOfRange dt .host) s = .next t ∧ t.dev.hostRails = false ∧ t.dev.mode = .boot ∧ t.dev.modeEpoch = 1 ∧ t.hbMem = []
        ∧ (∀ k ∈ t.host.keys, k.state = .empty ∧ k.key = [] ∧ k.epoch = 0) ∧ t.host.running = false
        ∧ t.line = (if s.link.line.up then u.line.abandonLocks else u.line) ∧ t.lbMem = s.lbMem
        ∧ t.hostRam = s.hostRam)
  ∧ (∀ (dt : Nat) (s : State),
    s.dev.lineRails = true →
      ∃ t, exec (.railOutOfRange dt .line) s = .next t ∧ t.dev.lineRails = false ∧ t.lbMem = [] ∧ t.line.ports = Line.reset.ports
        ∧ t.line.chans = Line.reset.chans ∧ t.line.nodeId = 0 ∧ t.line.bootId = s.line.bootId ∧ t.line.running = false
        ∧ t.host.keys = s.host.keys ∧ t.dev.mode = s.dev.mode ∧ t.hbMem = s.hbMem ∧ t.hostRam = s.hostRam)
  ∧ (∀ (dt : Nat) (s : State),
    let u := s.advance dt
    s.hostOn = true →
      ∃ t, exec (.resetN dt) s = .next t ∧ t.dev.resetPin = false ∧ t.dev.pattern = some 2 ∧ t.dev.mode = .boot
        ∧ t.dev.modeEpoch = s.dev.modeEpoch + 1 ∧ t.dev.owedBoot = s.dev.owedBoot ++ [(s.dev.mode, s.dev.modeEpoch + 1, 2)] ∧ t.host.running = false ∧ t.host.accepted = []
        ∧ (∀ k ∈ t.host.keys, k.state = .empty ∧ k.key = []) ∧ t.host.queues = queuesReset ∧ t.host.flash.slots.length = s.host.flash.slots.length
        ∧ t.line = (if s.link.line.up then u.line.abandonLocks else u.line) ∧ t.hbMem = s.hbMem ∧ t.lbMem = s.lbMem ∧ t.hostRam = s.hostRam)
  ∧ (∀ (dt : Nat) (s : State),
    let u := s.advance dt
    s.dev.resetPin = false →
      ∃ t, exec (.resetNRelease dt) s = .next t ∧ t.dev.resetPin = true ∧ t.dev.pattern = none ∧ t.host.follower = 0
        ∧ (s.dev.lineReset = true → s.dev.lineRails = true → t.dev.lineReset = false ∧ t.line = { u.line with bootId := u.line.bootId + 1, lastReset := 2 })
        ∧ (s.dev.lineReset = false → t.line = u.line)
        ∧ t.dev.mode = s.dev.mode ∧ t.host.keys = s.host.keys ∧ t.hbMem = s.hbMem ∧ t.lbMem = s.lbMem ∧ t.hostRam = s.hostRam)
  ∧ (∀ (dt c : Nat) (s : State),
    s.dev.lineRails = true → s.link.line.lanes.any id = true → s.dev.pattern = some c →
      ∃ t, exec (.resetPattern dt) s = .next t
        ∧ t.line.ports = Line.reset.ports ∧ t.line.chans = Line.reset.chans ∧ t.line.sched.actions = [] ∧ t.line.nodeId = 0 ∧ t.line.running = false
        ∧ (c ≠ 7 → t.dev.lineReset = true ∧ t.line.bootId = s.line.bootId ∧ t.dev.pattern = some c)
        ∧ (c = 7 → t.dev.lineReset = false ∧ t.line.bootId = s.line.bootId + 1 ∧ t.line.lastReset = 7 ∧ t.dev.pattern = none)
        ∧ t.link.line.up = false ∧ t.dev.mode = s.dev.mode ∧ t.host.keys = s.host.keys ∧ t.hbMem = s.hbMem ∧ t.lbMem = s.lbMem ∧ t.hostRam = s.hostRam)
  ∧ (∀ (dt : Nat) (s : State),
    let u := s.advance dt
    s.hostOn = true →
      exec (.perstN dt) s =
        .next { u with host := { u.host with ints := { Ints.reset with sent := s.host.ints.sent }, pci := PciConfig.reset,
                                              rings := List.replicate 6 Ring.reset } })
  ∧ (∀ (dt : Nat) (s : State),
    let u := s.advance dt
    s.hostOn = true → s.host.running = true →
      ∃ t, exec (.hostWatchdog dt) s = .next t ∧ t.dev.mode = .boot ∧ t.dev.modeEpoch = s.dev.modeEpoch + 1 ∧ t.dev.owedBoot = s.dev.owedBoot ++ [(s.dev.mode, s.dev.modeEpoch + 1, 8)]
        ∧ t.host.running = false ∧ t.host.bootId = s.host.bootId + 1 ∧ (∀ k ∈ t.host.keys, k.state = .empty ∧ k.key = []) ∧ t.link.host.up = false
        ∧ t.line = (if s.link.line.up then u.line.abandonLocks else u.line) ∧ t.link.line = s.link.line ∧ t.hbMem = s.hbMem ∧ t.lbMem = s.lbMem ∧ t.hostRam = s.hostRam)
  ∧ (∀ (dt : Nat) (s : State),
    s.dev.lineRails = true → s.dev.lineReset = false → s.line.running = true →
      ∃ t, exec (.lineWatchdog dt) s = .next t ∧ t.line.ports = Line.reset.ports ∧ t.line.chans = Line.reset.chans ∧ t.line.clock = Clock.reset
        ∧ t.line.running = false ∧ t.line.bootId = s.line.bootId + 1 ∧ t.line.lastReset = 9 ∧ t.link.line.up = false ∧ t.link.host = s.link.host
        ∧ t.dev.mode = s.dev.mode ∧ t.dev.owedDone = s.dev.owedDone ++ [9] ∧ t.host.keys = s.host.keys ∧ t.hbMem = s.hbMem ∧ t.lbMem = s.lbMem
        ∧ t.hostRam = s.hostRam)

/-- Host firmware starts when a slot of region 0 passes its check, line firmware when the image in use of region 1 does; the line side ready ends BOOT in
CONFIG, also when SAFE has been entered because it was not ready in time, and the line side not ready by the deadline ends it in SAFE. A wake takes
the device from a lower rung to ROW, the end of a flash job writes its slot or nothing. It formalises parts of R479, R480, R486. Where the
specification leaves a point open it rests on the model's choice in logs 7, 15, 65 and 76. -/
def Obligations.BootWakeAndFlashEnd : Prop :=
  (∀ (dt : Nat) (s : State),
    let u := s.advance dt
    s.hostOn = true → s.host.running = false →
      ((s.host.flash.choose 0).isSome = false → exec (.hostFirmwareCheck dt) s = .next { u with host := { u.host with flash := s.host.flash.start } })
      ∧ ((s.host.flash.choose 0).isSome = true →
          ∃ t, exec (.hostFirmwareCheck dt) s = .next t ∧ t.host.running = true ∧ t.dev.bootDeadline = some (u.host.follower + 750000000)
            ∧ t.dev.mode = s.dev.mode ∧ t.dev.owedBoot = [] ∧ t.dev.owedKeys = [] ∧ t.host.keys = s.host.keys
            ∧ t.host.flash.slots = s.host.flash.slots ∧ t.host.flash.readMode = s.host.flash.start.readMode ∧ t.line = u.line ∧ t.hbMem = s.hbMem ∧ t.lbMem = s.lbMem ∧ t.hostRam = s.hostRam))
  ∧ (∀ (dt i : Nat) (s : State),
    let u := s.advance dt
    let x := s.host.flash.slot 1 i
    s.link.host.up = true → s.link.line.up = true → s.dev.lineRails = true → s.dev.lineReset = false → s.line.running = false →
      s.host.flash.used 1 = some i →
      (x.passes 1 = false → exec (.lineImageLoaded dt) s = .next u)
      ∧ (x.passes 1 = true → exec (.lineImageLoaded dt) s = .next { u with line := { u.line with running := true, release := x.release }, lbMem := s.lbMem.writeN (lineBankAt 62) (x.body.take x.length) }))
  ∧ (∀ (dt : Nat) (s : State),
    s.line.running = true → s.line.ready = false →
      ∃ t, exec (.lineReady dt) s = .next t ∧ t.line.ready = true
        ∧ (s.link.host.up = true → t.dev.bootDeadline = none)
        ∧ (s.link.host.up = true → s.dev.mode = .boot → t.dev.mode = (if s.dev.alarmLatched = 0 then .config else .quarantine) ∧ t.dev.modeEpoch = s.dev.modeEpoch + 1)
        ∧ (s.link.host.up = true → s.dev.mode = .safe →
            t.dev.mode = (if s.dev.alarmLatched = 0 then .config else .quarantine) ∧ t.dev.modeEpoch = s.dev.modeEpoch + 2)
        ∧ ((s.dev.mode ≠ .boot ∧ s.dev.mode ≠ .safe) ∨ s.link.host.up = false → t.dev.mode = s.dev.mode ∧ t.dev.modeEpoch = s.dev.modeEpoch)
        ∧ keepsStores s t)
  ∧ (∀ (dt : Nat) (s : State) (d : Tick),
    s.dev.bootDeadline = some d → d ≤ (s.advance dt).host.follower → s.host.running = true → s.linePresent = false →
      ∃ t, exec (.lineNotReady dt) s = .next t ∧ t.dev.bootDeadline = none
        ∧ (s.dev.mode = .boot → t.dev.mode = (if s.dev.alarmLatched = 0 then .safe else .quarantine))
        ∧ (s.dev.mode = .safe ∨ s.dev.mode = .quarantine → t.dev.mode = s.dev.mode)
        ∧ (s.dev.mode ≠ .boot → s.dev.mode ≠ .safe → s.dev.mode ≠ .quarantine → t.dev.mode = .safe)
        ∧ keepsStores s t)
  ∧ (∀ (dt src : Nat) (s : State),
    s.hostOn = true → s.host.running = true → s.dev.rung ≠ .row → (s.dev.exit ≠ none ∨ s.mayWake src = true) →
      (s.dev.rung ≠ .ashore ∨ s.headerKept = true) →
      ∃ t, exec (.rungWake dt src) s = .next t ∧ t.dev.rung = .row ∧ t.dev.exit = none ∧ t.dev.mode = s.dev.mode ∧ t.dev.modeEpoch = s.dev.modeEpoch
        ∧ t.lbMem = s.lbMem ∧ t.hostRam = s.hostRam)
  ∧ (∀ (dt : Nat) (s : State) (j : FlashJob),
    let u := s.advance dt
    s.host.flash.job = some j →
      ∃ t, exec (.flashDone dt) s = .next t ∧ t.host.flash.job = none ∧ t.host.flash.inUse = s.host.flash.inUse
        ∧ (j.ok = false → t.host.flash.slots = s.host.flash.slots)
        ∧ (j.ok = true → t.host.flash.slots = s.host.flash.slots.set (2 * j.region + s.host.flash.target j.region)
              { header := j.image.header, body := j.image.body.take j.image.length })
        ∧ t.host.keys = s.host.keys ∧ onlyHost u t)

/-! ## Alarms and the barrier -/

/-- A source that becomes active is latched, empties every key slot, takes the device out of every mode but BOOT into QUARANTINE, drops the frames that
wait and is passed to the line side; the line side ends its frames. A source inactive again stays latched. It formalises parts of R458, R460, R461,
R462. Where the specification leaves a point open it rests on the model's choice in logs 63 and 84. -/
def Obligations.AlarmsEraseKeysAndQuarantine : Prop :=
  (∀ (dt i : Nat) (s : State),
    let u := s.advance dt
    s.hostOn = true → sized s → i < 8 → i ≠ 6 → u.sourceFires i = true → s.dev.alarmActive.getLsbD i = false →
      ∃ t, exec (.alarmRaised dt i) s = .next t
        ∧ t.dev.alarmActive.getLsbD i = true ∧ t.dev.alarmLatched.getLsbD i = true ∧ t.dev.alarmLast = i ∧ t.dev.alarmAt = u.host.follower
        ∧ (∀ k ∈ t.host.keys, k.state = .empty ∧ k.key = [] ∧ k.staging = List.replicate 8 0)
        ∧ t.dev.mode = (if s.dev.mode = .boot then .boot else .quarantine)
        ∧ t.dev.modeEpoch = s.dev.modeEpoch + (if s.dev.mode = .boot ∨ s.dev.mode = .quarantine then 0 else 1)
        ∧ t.host.txq = []
        ∧ (s.link.host.up = true → Msg.alarm ∈ t.link.host.flight.map (·.msg)) ∧ (s.link.host.up = false → Msg.alarm ∈ t.link.host.owed)
        ∧ t.host.ints.cause.getLsbD 31 = true ∧ t.hbMem = s.hbMem ∧ t.lbMem = s.lbMem ∧ t.hostRam = s.hostRam)
  ∧ (∀ (dt i : Nat) (s : State),
    let u := s.advance dt
    i < 8 →
      ∃ t, exec (.alarmSourceInactive dt i) s = .next t ∧ t.dev.alarmActive.getLsbD i = false
        ∧ (∀ j, j ≠ i → t.dev.alarmActive.getLsbD j = s.dev.alarmActive.getLsbD j)
        ∧ t.dev.alarmLatched = s.dev.alarmLatched ∧ t.dev.mode = s.dev.mode ∧ t.host = u.host ∧ t.line = u.line ∧ t.link = s.link ∧ t.hbMem = s.hbMem
        ∧ t.lbMem = s.lbMem)
  ∧ (∀ (dt : Nat) (s : State),
    let u := s.advance dt
    s.dev.lineRails = true → s.dev.lineReset = false → s.dev.lineAlarm = false →
      ∃ t, exec (.lineAlarmDetected dt) s = .next t ∧ t.dev = { s.dev with lineAlarm := true }
        ∧ (s.link.line.up = true → t.link.line.flight = s.link.line.flight ++ [⟨.alarm, u.line.clock.tb, 0, false⟩])
        ∧ (s.link.line.up = false → t.link.line.owed = s.link.line.owed ++ [.alarm])
        ∧ t.host = u.host ∧ t.line = u.line ∧ t.hbMem = s.hbMem ∧ t.lbMem = s.lbMem ∧ t.hostRam = s.hostRam)
  ∧ (∀ (dt : Nat) (s : State) (r : List Msg),
    let u := s.advance dt
    s.link.line.inbox = .alarm :: r →
      ∃ t, exec (.alarmMessageReceive dt) s = .next t ∧ t.link.line.inbox = r ∧ t.line.relay.copies = [] ∧ t.line.time.planned = []
        ∧ (∀ a ∈ t.line.sched.actions, a.frames = [])
        ∧ (∀ x ∈ t.line.chans, ∀ o, x.onAir = some o → ∀ e ∈ o.entries, e.started = true → e.complete = false → e.ended ≠ none)
        ∧ t.host = u.host ∧ t.dev = s.dev ∧ t.hbMem = s.hbMem ∧ t.lbMem = s.lbMem ∧ t.hostRam = s.hostRam)

/-- A die that runs sends its HEARTBEAT; one that is heard keeps the link up, one that fails its check starts the run anew; 30 µs of silence take the
barrier down on the die that waits. The timing lane that fails takes the 10 MHz reference with it, and a measurement brings it back with its delay;
notes left open are closed 1 s after the declaration, and kept so that a record that crosses later is discarded; each fall of a margin below its limit
is reported, and its recovery once both dies have stood well for 10 ms. It formalises parts of R95, R360, R450, R451, R455, R456. Where the
specification leaves a point open it rests on the model's choice in logs 22, 57, 59, 61, 78, 84 and 122. -/
def Obligations.HeartbeatsLanesAndMarginsAreWatched : Prop :=
  (∀ (dt : Nat) (die : Die) (s : State), s.alive die = true → s.link.suspended = false →
    exec (.heartbeatSend dt die) s = .next ((s.advance dt).modEnd die fun e => { e with beat := true }))
  ∧ (∀ (dt : Nat) (die : Die) (s : State),
    let u := s.advance dt
    let e := s.link.endOf die
    s.alive die = true → s.link.suspended = false → (s.link.endOf (otherDie die)).beat = true → e.lanes.any id = true →
      e.up = true → e.bootHeard = s.bootOf (otherDie die) →
      ∃ t, exec (.heartbeatReceive dt die true) s = .next t
        ∧ (t.link.endOf die).up = true ∧ (t.link.endOf die).lastValid = u.clockOf die ∧ (t.link.endOf die).heard = min 16 (e.heard + 1)
        ∧ (t.link.endOf die).missedFrom = 0 ∧ (t.link.endOf (otherDie die)).beat = false ∧ t.dev = s.dev ∧ keepsStores s t)
  ∧ (∀ (dt : Nat) (die : Die) (s : State),
    let e := s.link.endOf die
    s.alive die = true → s.link.suspended = false → (s.link.endOf (otherDie die)).beat = true → e.lanes.any id = true →
      ∃ t, exec (.heartbeatReceive dt die false) s = .next t
        ∧ (t.link.endOf die).heard = 0 ∧ (t.link.endOf die).up = e.up ∧ (t.link.endOf die).lastValid = e.lastValid
        ∧ t.link.ctrs = countAt (match die with | .line => 0 | .host => 1) 32 1 s.link.ctrs ∧ t.dev = s.dev ∧ keepsStores s t)
  ∧ (∀ (dt : Nat) (s : State),
    s.link.suspended = false → s.link.line.up = true → 45000 ≤ (s.advance dt).line.clock.tb - s.link.line.lastValid →
      ∃ t, exec (.heartbeatTimeout dt .line) s = .next t ∧ t.link.line.up = false ∧ t.line.down = true ∧ t.line.relay.copies = []
        ∧ t.line.time.planned = [] ∧ (∀ x ∈ t.line.chans, ∀ k ∈ x.ctx, k = none) ∧ t.line.clock.ref10m = false ∧ t.dev = s.dev
        ∧ t.link.host = s.link.host ∧ t.hbMem = s.hbMem ∧ t.lbMem = s.lbMem ∧ t.hostRam = s.hostRam ∧ t.host.keys = s.host.keys)
  ∧ (∀ (dt : Nat) (s : State),
    s.link.suspended = false → s.link.host.up = true → 45000 ≤ (s.advance dt).host.follower - s.link.host.lastValid →
      ∃ t, exec (.heartbeatTimeout dt .host) s = .next t ∧ t.link.host.up = false ∧ t.host.txq = [] ∧ t.host.inSync = false
        ∧ t.host.downAt = some (s.host.downAt.getD (s.advance dt).host.follower)
        ∧ (othersIdle 0 s → othersIdle 1 s → ∀ a ∈ t.host.accepted, a.crossed = false ∧ opcodeTable.lookup a.opcode ≠ some true)
        ∧ t.dev.mode = (if s.dev.mode = .quarantine ∨ (s.dev.mode = .boot ∧ s.dev.alarmLatched ≠ 0) then .quarantine else .safe)
        ∧ t.link.line.up = s.link.line.up ∧ t.hbMem = s.hbMem ∧ t.lbMem = s.lbMem ∧ t.hostRam = s.hostRam ∧ t.host.keys = s.host.keys)
  ∧ (∀ (dt : Nat) (s : State),
    let u := s.advance dt
    s.link.timingUp = true →
      ∃ t, exec (.timingLaneFail dt) s = .next t ∧ t.link.timingUp = false ∧ t.line = { u.line with clock := { u.line.clock with ref10m := false } }
        ∧ t.link.host = s.link.host ∧ t.link.line = s.link.line ∧ t.link.ctrs = countAt 5 16 1 s.link.ctrs ∧ t.dev = s.dev ∧ keepsStores s t)
  ∧ (∀ (dt delay : Nat) (s : State),
    let u := s.advance dt
    s.link.host.up = true → s.link.line.up = true →
      ∃ t, exec (.timingLaneMeasure dt delay) s = .next t ∧ t.link.timingUp = true
        ∧ t.line = { u.line with time := { u.line.time with laneDelay := delay } }
        ∧ t.link.host = s.link.host ∧ t.link.line = s.link.line ∧ t.dev = s.dev ∧ keepsStores s t)
  ∧ (∀ (dt : Nat) (s : State) (d : Tick),
    let u := s.advance dt
    s.host.downAt = some d → 1500000000 ≤ u.host.follower - d →
      ∃ t, exec (.barrierNoteClose dt) s = .next t ∧ t.host.notes = s.host.notes.map (fun n => { n with closed := true })
        ∧ (∀ n ∈ s.host.notes, n.closed = false → n.frame = true →
            .frameGone n.action n.index n.unit 0x0F ∈ (if s.link.host.up then t.link.host.flight.map (·.msg) else t.link.host.owed))
        ∧ t.host.downAt = some d ∧ t.line = u.line ∧ t.link.line = s.link.line ∧ t.dev = s.dev ∧ keepsStores s t)
  ∧ (∀ (dt : Nat) (m : W16) (s : State),
    let u := s.advance dt
    s.host.running = true → m.toNat < 295 → s.host.marginLow = false →
      ∃ t, exec (.marginMeasure dt .host m) s = .next t ∧ t.host.marginLow = true ∧ t.host.marginOwed = true ∧ t.host.marginOkFrom = none
        ∧ t.host.margins.head? = some (u.host.follower, m) ∧ t.dev = s.dev ∧ keepsStores s t)
  ∧ (∀ (dt : Nat) (m : W16) (s : State),
    let u := s.advance dt
    s.line.running = true → 308 ≤ m.toNat → s.line.marginOwed = false → s.host.marginOwed = false →
      ∃ t, exec (.marginMeasure dt .line m) s = .next t ∧ t.line.marginLow = false ∧ t.host = u.host
        ∧ t.line.marginOkFrom = some (s.line.marginOkFrom.getD u.line.clock.tb)
        ∧ t.line.margins.head? = some (u.line.clock.tb, m) ∧ t.dev = s.dev ∧ keepsStores s t)
  ∧ (∀ (dt : Nat) (m : W16) (s : State) (a b : Tick),
    let u := s.advance dt
    s.line.running = true → 308 ≤ m.toNat → s.line.marginOwed = true ∨ s.host.marginOwed = true →
      s.line.marginOkFrom = some a → 15000000 ≤ u.line.clock.tb - a → s.host.marginOkFrom = some b → 15000000 ≤ u.host.follower - b →
      ∃ t, exec (.marginMeasure dt .line m) s = .next t ∧ t.line.marginOwed = false ∧ t.host.marginOwed = false ∧ t.line.marginLow = false
        ∧ t.line.marginOkFrom = some a ∧ t.line.margins.head? = some (u.line.clock.tb, m) ∧ t.dev = s.dev ∧ keepsStores s t)

/-- A message that arrives in sequence is acknowledged and delivered, and an internal one acts on the line side as it arrives; one that fails its check
counts against its lane; one that is not acknowledged within 2 µs is repeated, seven times before the barrier goes down; a lane returns after 16 good
messages. It formalises parts of R447, R448, R449. Where the specification leaves a point open it rests on the model's choice in logs 21, 60 and 84. -/
def Obligations.BarrierMessagesArriveInSequence : Prop :=
  (∀ (dt lane : Nat) (die : Die) (s : State) (m : InFlight) (r : List InFlight),
    let e := s.link.endOf die
    let o := s.link.endOf (otherDie die)
    s.alive die = true → s.link.suspended = false → nth e.lanes lane false = true → e.up = true → o.up = true → o.flight = m :: r →
      r.all (fun x => !x.received) = true → (∀ c, m.msg ≠ .lineReset c) → m.msg.internal = false →
      ∃ t, exec (.barrierMessageReceive dt die lane o.seq true) s = .next t
        ∧ (t.link.endOf die).inbox = e.inbox ++ [m.msg] ∧ (t.link.endOf (otherDie die)).seq = o.seq + 1
        ∧ (∃ new, (t.link.endOf (otherDie die)).flight = r ++ new) ∧ t.dev = s.dev ∧ keepsStores s t)
  ∧ (∀ (dt lane a i c cause : Nat) (s : State) (m : InFlight) (r : List InFlight),
    let u := s.advance dt
    let e := s.link.line
    s.alive .line = true → s.link.suspended = false → nth e.lanes lane false = true → e.up = true → s.link.host.up = true →
      s.link.host.flight = m :: r → r.all (fun x => !x.received) = true → c < 256 → sized s →
      ∃ t, exec (.barrierMessageReceive dt .line lane s.link.host.seq true) s = .next t ∧ t.dev = s.dev ∧ keepsStores s t
        ∧ (m.msg.internal = true → t.link.line.inbox = e.inbox ∧ t.link.host.flight = r ∧ t.link.host.seq = s.link.host.seq + 1)
        ∧ (m.msg = .frameGone a i c cause →
            (((s.line.action? a).bind fun x => x.frames[i]?).any fun f => !f.launched && !f.ended) = true ∨ s.line.sched.lost.contains (a, i) = true →
            t.line.sched.actions = (s.line.sched.endFrame a i).actions
              ∧ t.line.chan c = (u.line.countTx c (statusCounter (causeStatus cause)) 1).chan c)
        ∧ (m.msg = .frameGone a i c cause →
            (((s.line.action? a).bind fun x => x.frames[i]?).any fun f => !f.launched && !f.ended) = false → s.line.sched.lost.contains (a, i) = false →
            t.line = { u.line with out := [] })
        ∧ (m.msg = .retracted c → t.line.chan c = (u.line.chan c).countRx 16 1))
  ∧ (∀ (dt lane : Nat) (die : Die) (seq : W16) (s : State),
    let e := s.link.endOf die
    s.alive die = true → s.link.suspended = false → nth e.lanes lane false = true → nth e.fails lane 0 < 15 →
      ∃ t, exec (.barrierMessageReceive dt die lane seq false) s = .next t
        ∧ (t.link.endOf die).fails = e.fails.set lane (nth e.fails lane 0 + 1) ∧ (t.link.endOf die).lanes = e.lanes
        ∧ (t.link.endOf die).inbox = e.inbox ∧ t.link.ctrs = countAt (laneDir die) 32 1 s.link.ctrs ∧ t.dev = s.dev ∧ keepsStores s t)
  ∧ (∀ (dt : Nat) (die : Die) (seq : W16) (s : State) (m : InFlight),
    let e := s.link.endOf die
    let now := (s.advance dt).clockOf die
    e.flight[(seq - e.seq).toNat]? = some m → m.received = false → e.up = true → s.link.suspended = false → 3000 ≤ now - m.sent →
      ∃ t, exec (.retryTimeout dt die seq) s = .next t
        ∧ (m.retries < 7 → (t.link.endOf die).flight[(seq - e.seq).toNat]? = some { m with sent := now, retries := m.retries + 1 } ∧ (t.link.endOf die).up = true)
        ∧ (7 ≤ m.retries → (t.link.endOf die).up = false)
        ∧ t.hbMem = s.hbMem ∧ t.lbMem = s.lbMem ∧ t.hostRam = s.hostRam ∧ t.host.keys = s.host.keys)
  ∧ (∀ (dt lane good : Nat) (die : Die) (s : State),
    let e := s.link.endOf die
    lane < e.lanes.length → nth e.lanes lane true = false → 16 ≤ good → s.alive die = true →
      ∃ t, exec (.laneRetrain dt die lane good) s = .next t ∧ nth (t.link.endOf die).lanes lane false = true
        ∧ (t.link.endOf die).fails = e.fails.set lane 0 ∧ (∀ l, l ≠ lane → nth (t.link.endOf die).lanes l false = nth e.lanes l false)
        ∧ t.dev = s.dev ∧ keepsStores s t)

/-- What crosses the barrier upward enters the queue that it belongs to: a received frame record the receive queue, an event record the event queue, a
reply its reply queue; a frame that crosses downward becomes resident. It formalises parts of R22, R195, R425, R457. Where the specification leaves a
point open it rests on the model's choice in logs 59, 84, 85, 86 and 132. -/
def Obligations.RecordsThatCrossEnterTheirQueue : Prop :=
  (∀ (dt : Nat) (s : State) (f : FrameUp) (r : List Msg),
    let u := s.advance dt
    s.link.host.inbox = .frameUp f :: r → f.kind = 1 → f.sec = false → s.host.cutOf f.chan f.rxId = none → s.host.rxHeld f.chan = false → sized s →
      (s.host.queue 1).hold = [] → (s.host.queue 1).fits 0 f.packet = true → (s.host.queue 1).dest = .pcie → u.host.foreign 1 = [] →
      ∃ t, exec (.frameUpReceive dt) s = .next t ∧ t.link.host = { s.link.host with inbox := r }
        ∧ (t.host.queue 1).pkts = (s.host.queue 1).pkts ++ [(s.host.queue 1).entry f.packet]
        ∧ (∀ m, m ≠ 1 → t.host.queue m = s.host.queue m) ∧ t.host.cuts = s.host.cuts ∧ t.line = u.line ∧ t.dev = s.dev ∧ keepsStores s t)
  ∧ (∀ (dt : Nat) (s : State) (p : Packet) (r : List Msg),
    let u := s.advance dt
    s.link.host.inbox = .event p none :: r → p.source ≠ 0x8000 → sized s → (s.host.queue 0).hold = [] → (s.host.queue 0).fits 64 p = true → (s.host.queue 0).dest = .pcie →
      u.host.foreign 0 = [] →
      ∃ t, exec (.eventMessageReceive dt) s = .next t ∧ t.link.host = { s.link.host with inbox := r }
        ∧ (t.host.queue 0).pkts = (s.host.queue 0).pkts ++ [(s.host.queue 0).entry p]
        ∧ (∀ m, m ≠ 0 → t.host.queue m = s.host.queue m) ∧ t.host.notes = s.host.notes ∧ t.line = u.line ∧ t.dev = s.dev ∧ keepsStores s t)
  ∧ (∀ (dt : Nat) (s : State) (p : Packet) (r : List Msg),
    let u := s.advance dt
    let x := u.host.restamp 0x8000 (u.hostTime (p.instant u.line.clock.tb)) p
    s.link.host.inbox = .event p none :: r → p.source = 0x8000 → sized s → (s.host.queue 0).hold = [] → (s.host.queue 0).fits 64 x.1 = true →
      (s.host.queue 0).dest = .pcie → u.host.foreign 0 = [] →
      ∃ t, exec (.eventMessageReceive dt) s = .next t ∧ (t.host.queue 0).pkts = (s.host.queue 0).pkts ++ [(s.host.queue 0).entry x.1]
        ∧ t.host.stamps = x.2.stamps ∧ t.line = u.line ∧ t.dev = s.dev ∧ keepsStores s t)
  ∧ (∀ (dt a i : Nat) (s : State) (p : Packet) (r : List Msg) (n : Note),
    let u := s.advance dt
    s.link.host.inbox = .event p (some (a, i)) :: r → p.source ≠ 0x8000 → sized s →
      s.host.notes.find? (fun n => n.action == a && n.index == i) = some n →
      (s.host.queue 0).hold = [] → (s.host.queue 0).fits 64 p = true → (s.host.queue 0).dest = .pcie →
      u.host.foreign 0 = [] →
      ∃ t, exec (.eventMessageReceive dt) s = .next t ∧ (∀ k ∈ t.host.notes, k.action ≠ a ∨ k.index ≠ i)
        ∧ (∀ k ∈ s.host.notes, k.action ≠ a ∨ k.index ≠ i → k ∈ t.host.notes)
        ∧ (n.closed = false → (t.host.queue 0).pkts = (s.host.queue 0).pkts ++ [(s.host.queue 0).entry p] ∧ t.host.discarded = s.host.discarded)
        ∧ (n.closed = true → t.host.queues = s.host.queues ∧ t.host.discarded = s.host.discarded + 1)
        ∧ t.line = u.line ∧ t.dev = s.dev ∧ keepsStores s t)
  ∧ (∀ (dt : Nat) (s : State) (x : LineReply) (r : List Msg) (a : Accepted),
    let u := s.advance dt
    s.link.host.inbox = .replyLine x :: r → sized s → x.via = .ring0 → (s.host.queue 2).hold = [] → (s.host.queue 2).fits 0 (.plain x.words) = true →
      u.host.foreign 2 = [] →
      s.host.accepted.find? (fun a => a.crossed && a.cmd.via == x.via && a.cmd.tag == x.tag) = some a →
      ∃ t, exec (.replyLineReceive dt) s = .next t.readInputs ∧ t.link.host = { s.link.host with inbox := r }
        ∧ t.host.accepted = s.host.accepted.erase a ∧ t.host.notes = s.host.notes ++ x.note.toList ∧ t.host.txq = s.host.txq ++ x.frames
        ∧ (t.host.queue 2).pkts = (s.host.queue 2).pkts ++ [(s.host.queue 2).entry (.plain x.words)]
        ∧ (∀ m, m ≠ 2 → t.host.queue m = s.host.queue m) ∧ t.line = u.line ∧ t.dev = s.dev ∧ keepsStores s t)
  ∧ (∀ (dt : Nat) (s : State) (x : LineReply) (r : List Msg),
    let u := s.advance dt
    s.link.host.inbox = .replyLine x :: r →
      s.host.accepted.find? (fun a => a.crossed && a.cmd.via == x.via && a.cmd.tag == x.tag) = none →
      exec (.replyLineReceive dt) s = .next ({ u with link := { u.link with host := { u.link.host with inbox := r } } } : State).readInputs)
  ∧ (∀ (dt id i : Nat) (payload : List Byte) (s : State) (r : List Msg) (a : Action) (f : TxFrame),
    let u := s.advance dt
    s.link.line.inbox = .frameDown id i payload :: r → s.line.action? id = some a → a.frames[i]? = some f → f.launched = false → f.ended = false →
      f.payload = none → sized s → f.desc.chan < 256 →
      ∃ t b, exec (.frameDownReceive dt) s = .next t ∧ t.link.line = { s.link.line with inbox := r } ∧ t.line.action? id = some b
        ∧ b.frames[i]? = some { f with payload := some payload, seed := (s.line.chan f.desc.chan).origin.toNat % 4096 }
        ∧ (t.line.chan f.desc.chan).origin = (s.line.chan f.desc.chan).origin + 1
        ∧ t.line.ports = s.line.ports ∧ t.host = u.host ∧ t.dev = s.dev ∧ keepsStores s t)

/-! ## Actions at their instant -/

/-- A commanded mode change takes effect at its instant, and a traffic mode without a source ends in HOLDOVER at once; LINE_FIRMWARE_UPDATE enters
MAINTAIN and keeps what waits; the end of the update brings back the mode held before. At its fix point an action in time gets its last launch instant
and keeps it; at its residency check a frame that is not on the line side is late. It formalises parts of R29, R31, R34, R79, R85, R165. Where the
specification leaves a point open it rests on the model's choice in logs 21, 27, 28, 82, 89, 96, 111 and 116. -/
def Obligations.ModeChangesAndFixPointsAreJudged : Prop :=
  (∀ (dt id : Nat) (s : State) (a : Action) (m : Mode),
    let u := s.advance dt
    u.line.dueAction id = some a → a.kind = .modeSet m → s.stale a = false → s.mayEnter m = true → (needsNode m = false ∨ s.line.nodeId ≠ 0) →
      ∃ t, exec (.modeChangeAtLaunch dt id) s = .next t
        ∧ t.dev.mode = (if isTraffic m = true ∧ s.line.time.source = 3 then .holdover else m)
        ∧ (isTraffic m = true → s.line.time.source = 3 → t.dev.held = m)
        ∧ t.dev.modeEpoch = s.dev.modeEpoch + (if isTraffic m = true ∧ s.line.time.source = 3 then 2 else 1)
        ∧ t.dev.islandAuto = false ∧ (∀ b ∈ t.line.sched.actions, b.id ≠ id) ∧ keepsStores s t)
  ∧ (∀ (dt id : Nat) (s : State) (a : Action) (m : Mode),
    let u := s.advance dt
    u.line.dueAction id = some a → a.kind = .modeSet m → s.stale a = true →
      ∃ t, exec (.modeChangeAtLaunch dt id) s = .next t ∧ t.dev = s.dev ∧ (∀ b ∈ t.line.sched.actions, b.id ≠ id)
        ∧ t.line.ports = s.line.ports ∧ t.line.chans = s.line.chans ∧ keepsStores s t)
  ∧ (∀ (dt id o n : Nat) (s : State) (a : Action),
    let u := s.advance dt
    u.line.dueAction id = some a → a.kind = .lineFirmware o n → s.stale a = false → setUpdate s.dev.mode = true →
      ∃ t, exec (.enterMaintain dt id) s = .next t ∧ t.dev.mode = .maintain ∧ t.dev.held = s.dev.mode ∧ t.dev.modeEpoch = s.dev.modeEpoch + 1
        ∧ t.line.fw = some { action := a, offset := o, len := n } ∧ (∀ b, b ∈ t.line.sched.actions ↔ b ∈ s.line.sched.actions ∧ b.id ≠ a.id)
        ∧ t.line.relay.copies = s.line.relay.copies ∧ keepsStores s t)
  ∧ (∀ (dt : Nat) (s : State) (f : FwUpdate),
    let u := s.advance dt
    let image := (u.updateImage f).1
    let back := if isTraffic s.dev.held = true ∧ s.line.time.source = 3 then Mode.holdover else s.dev.held
    s.dev.mode = .maintain → s.line.fw = some f → u.imageWaits f = false →
      (image.passes 1 = true → ∃ t, exec (.lineFirmwareStarted dt) s = .next t ∧ t.dev.mode = back ∧ t.line.fw = none ∧ t.line.release = image.release
        ∧ keepsStores s t)
      ∧ (image.passes 1 = false → ∃ t, exec (.firmwareImageFailed dt) s = .next t ∧ t.dev.mode = back ∧ t.line.fw = none ∧ t.line.release = s.line.release
        ∧ keepsStores s t))
  ∧ (∀ (dt id : Nat) (s : State) (a : Action),
    let u := s.advance dt
    let b := u.line.recomputed a
    s.line.action? id = some a → a.fixed = false → a.frames = [] →
      u.line.clock.tb + 300000 ≤ b.launch → b.launch - 1500000 ≤ u.line.clock.tb →
      ∃ t, exec (.fixPoint dt id) s = .next t ∧ t.line.action? id = some { b with fixed := true }
        ∧ b.kind = a.kind ∧ b.spec = a.spec ∧ t.line.ports = s.line.ports ∧ t.line.chans = s.line.chans ∧ t.dev = s.dev ∧ keepsStores s t)
  ∧ (∀ (dt id i : Nat) (s : State) (a : Action) (f : TxFrame),
    let u := s.advance dt
    s.line.action? id = some a → a.frames[i]? = some f → f.launched = false → f.ended = false → f.payload = none → a.spec.slip = false →
      a.frameLaunch f - 60000 ≤ u.line.clock.tb →
      ∃ t, exec (.residencyCheck dt id i) s = .next t
        ∧ (∀ b g, t.line.action? id = some b → b.frames[i]? = some g → g.ended = true)
        ∧ t.line.sched.ctrs = (if a.late then s.line.sched.ctrs else countAt 1 32 1 s.line.sched.ctrs)
        ∧ (∀ b, t.line.action? id = some b → b.late = true) ∧ onlyLine u t)
  ∧ (∀ (dt id i : Nat) (s : State) (a : Action) (f : TxFrame),
    s.line.action? id = some a → a.frames[i]? = some f → f.payload ≠ none →
      exec (.residencyCheck dt id i) s = .next (s.advance dt).flush)

/-- A mute sets MUTED and ends what is on air on its port, an unmute clears it; a placement and a change of settings apply to their channel, wait for a
frame on air there, and apply at its end. It formalises parts of R89, R120, R134, R320. Where the specification leaves a point open it rests on the
model's choice in logs 82, 96 and 110. -/
def Obligations.PortAndChannelActionsTakeEffect : Prop :=
  (∀ (dt id p cpl : Nat) (s : State) (a : Action),
    let u := s.advance dt
    u.line.dueAction id = some a → a.kind = .mute p cpl → a.expEpoch = none → p < 96 → sized s →
      ∃ t, exec (.portMuteTakesEffect dt id) s = .next t
        ∧ (t.line.port p).muted = true ∧ (t.line.port p).cfg = (s.line.port p).cfg
        ∧ (t.line.port p).cpl = (if cpl = 0 then (s.line.port p).cpl else decide (cpl = 2))
        ∧ (∀ q, q ≠ p → t.line.port q = s.line.port q)
        ∧ (∀ x ∈ t.line.chans, ∀ o, x.onAir = some o → ∀ e ∈ o.entries, e.port = p → e.started = true → e.complete = false → e.ended ≠ none)
        ∧ (∀ b ∈ t.line.sched.actions, b.id ≠ id) ∧ onlyLine u t)
  ∧ (∀ (dt id p : Nat) (s : State) (a : Action),
    let u := s.advance dt
    u.line.dueAction id = some a → a.kind = .unmute p → a.expEpoch = none → p < 96 → sized s →
      ∃ t, exec (.portUnmuteTakesEffect dt id) s = .next t
        ∧ t.line.port p = { s.line.port p with muted := false, epoch := (t.line.port p).epoch }
        ∧ (t.line.port p).epoch = (s.line.port p).epoch + (if (s.line.port p).muted then 1 else 0)
        ∧ (∀ q, q ≠ p → t.line.port q = s.line.port q) ∧ t.line.chans = s.line.chans
        ∧ (∀ b ∈ t.line.sched.actions, b.id ≠ id) ∧ onlyLine u t)
  ∧ (∀ (dt id c : Nat) (s : State) (a : Action) (new : Option Placement),
    let u := s.advance dt
    let x := s.line.chan c
    u.line.dueAction id = some a → a.kind = .place c new → a.expEpoch = none → c < 256 → sized s → x.onAir = none →
      (∀ p, new = some p → s.line.placementOk c p = true) →
      ∃ t, exec (.placementTakesEffect dt id) s = .next t
        ∧ (t.line.chan c).place = new ∧ (t.line.chan c).cfg = x.cfg ∧ (t.line.chan c).epoch = x.epoch + 1
        ∧ (sameReception x.place new = true → (t.line.chan c).ctx = x.ctx ∧ (t.line.chan c).frames = x.frames)
        ∧ (sameReception x.place new = false → (t.line.chan c).ctx = [none, none])
        ∧ (∀ d, d ≠ c → t.line.chan d = s.line.chan d) ∧ (∀ b ∈ t.line.sched.actions, b.id ≠ id) ∧ onlyLine u t)
  ∧ (∀ (dt id c mask : Nat) (values : List W16) (s : State) (a : Action),
    let u := s.advance dt
    let x := s.line.chan c
    let new := applySettings mask 0 values x.cfg
    u.line.dueAction id = some a → a.kind = .chanMode c mask values → a.expEpoch = none → c < 256 → sized s →
      ∃ t, exec (.channelModeTakesEffect dt id) s = .next t
        ∧ ((∀ o, x.onAir = some o → o.endAt ≤ u.line.clock.tb) → (t.line.chan c).cfg = new ∧ (t.line.chan c).place = x.place ∧ (∀ b ∈ t.line.sched.actions, b.id ≠ id)
            ∧ (t.line.chan c).epoch = x.epoch + (if new = x.cfg then 0 else 1))
        ∧ (∀ o, x.onAir = some o → u.line.clock.tb < o.endAt → t.line.chan c = x ∧ t.line.action? id = some { a with deferred := some o.endAt })
        ∧ (∀ d, d ≠ c → t.line.chan d = s.line.chan d) ∧ t.line.ports = s.line.ports ∧ onlyLine u t)
  ∧ (∀ (dt id c mask : Nat) (values : List W16) (s : State) (a : Action),
    let u := s.advance dt
    let x := s.line.chan c
    u.line.deferredNow id = some a → a.kind = .chanMode c mask values → c < 256 → sized s →
      ∃ t, exec (.deferredChannelAction dt id) s = .next t
        ∧ (t.line.chan c).cfg = applySettings mask 0 values x.cfg ∧ (t.line.chan c).place = x.place
        ∧ (∀ d, d ≠ c → t.line.chan d = s.line.chan d) ∧ t.line.ports = s.line.ports ∧ (∀ b ∈ t.line.sched.actions, b.id ≠ id) ∧ onlyLine u t)

/-! ## Frames -/

/-- FRAME_SUBMIT and HAMPER_SUBMIT take in every frame that their command asks for, once it is judged acceptable and every frame has its step; each frame
gets the next SEQ. It formalises parts of R230, R242. Where the specification leaves a point open it rests on the model's choice in logs 26 and 47. -/
def Obligations.SubmittedFramesAreTakenIn : Prop :=
  (∀ (dt : Nat) (cmd : Cmd) (s : State) (got : Accepted × BarrierEnd) (spec : LaunchSpec) (b : Action) (es : List FrameDesc),
    let u := s.advance dt
    let c := crossing got u
    let ds := [parseDesc cmd 0]
    u.arrived 0x140 cmd = some got → parseSpec cmd = some spec → cmd.word 8 = 1 → ds.all FrameDesc.inRange = true → ds.any s.refusesDesc = false →
      c.txCount < 8192 → u.line.judgeAction (frameDraft got.1 spec false ds u) = (.accepted, some b) →
      u.line.chooseAll (s.line.chan (cmd.word 9 % 256)).refPort b.launch ds = some es →
      (∀ a ∈ s.line.sched.actions, a.id ≠ s.line.sched.nextId) → fits cmd 8 c →
      ∃ t a, exec (.frameSubmit dt cmd) s =
          .next (t.answerL infoFrameSubmit got.1 (t.chanRefL (cmd.word 9 % 256)) .accepted (frameWords b (numbered s es)) c)
        ∧ State.newAction c t = some a ∧ a.toFrames = (numbered s es).zipIdx.map (fun d => hostFrame b d.2 d.1) ∧ es.length = 1
        ∧ t.host.seqNext = s.host.seqNext + 1 ∧ t.line.sched.actions.length = s.line.sched.actions.length + 1
        ∧ t.line.ports = s.line.ports ∧ t.line.chans = s.line.chans ∧ t.dev = s.dev ∧ keepsStores s t)
  ∧ (∀ (dt n : Nat) (cmd : Cmd) (s : State) (got : Accepted × BarrierEnd) (spec : LaunchSpec) (b : Action) (es : List FrameDesc),
    let u := s.advance dt
    let c := crossing got u
    let ds := (List.range n).map (parseDesc cmd)
    u.arrived 0x141 cmd = some got → parseSpec cmd = some spec → cmd.word 8 = n → 1 ≤ n → n ≤ 64 → cmd.params.length = 6 + 14 * n →
      ds.all FrameDesc.inRange = true → ds.any s.refusesDesc = false → c.txCount + n ≤ 8192 →
      u.line.judgeAction (frameDraft got.1 spec true ds u) = (.accepted, some b) →
      u.line.chooseAll (s.line.chan (cmd.word 9 % 256)).refPort b.launch ds = some es →
      (∀ a ∈ s.line.sched.actions, a.id ≠ s.line.sched.nextId) → fits cmd (6 + 2 * n) c →
      ∃ t a, exec (.hamperSubmit dt cmd) s =
          .next (t.answerL infoHamperSubmit got.1 (t.chanRefL (cmd.word 9 % 256)) .accepted (frameWords b (numbered s es)) c)
        ∧ State.newAction c t = some a ∧ a.toFrames = (numbered s es).zipIdx.map (fun d => hostFrame b d.2 d.1) ∧ es.length = n
        ∧ t.host.seqNext = s.host.seqNext + BitVec.ofNat 16 n ∧ t.line.sched.actions.length = s.line.sched.actions.length + 1
        ∧ t.line.ports = s.line.ports ∧ t.line.chans = s.line.chans ∧ t.dev = s.dev ∧ keepsStores s t)
  ∧ (∀ (dt : Nat) (cmd : Cmd) (s : State) (got : Accepted × BarrierEnd),
    let u := s.advance dt
    let c := cmd.word 3
    let spent := ((s.line.chan c).onAir.map fun o => decide (o.dueAt ≤ u.line.clock.tb)).getD false
    let on := !spent && ((s.line.chan c).onAir.map fun o => o.entries.any fun e => e.started && e.ended.isNone && !e.complete).getD false
    takenL infoTransmitAbort cmd (State.chanRefL (cmd.word 3) u) got u → c < 256 → sized s → fits cmd 1 (crossing got u) →
      ∃ t, doneL (.transmitAbort dt cmd) infoTransmitAbort got (State.chanRefL c) s (crossing got u) t [w (b2n on)]
        ∧ (spent = true → (t.line.chan c).onAir = none)
        ∧ (spent = false → (t.line.chan c).onAir = (s.line.chan c).onAir.map (fun o => { o with entries := o.entries.map (TxEntry.endAt u.line.clock.tb 5) })
            ∧ (∀ d, d ≠ c → t.line.chan d = s.line.chan d) ∧ t.line.ports = s.line.ports ∧ t.line.sched = s.line.sched)
        ∧ t.dev = s.dev ∧ keepsStores s t)

/-- A ready frame crosses once it is due and the pool has room; at its launch instant a resident frame goes on air on every port of its channel that
transmits; at its end the channel is free again. It formalises parts of R232, R236, R237, R246, R294. Where the specification leaves a point open it
rests on the model's choice in logs 67, 80, 91, 106, 109 and 110. -/
def Obligations.FramesCrossLaunchAndEnd : Prop :=
  (∀ (dt : Nat) (s : State) (f : HostFrame) (p : List Byte),
    let u := s.advance dt
    s.link.host.up = true → firstDue (s.host.txq.filter (HostFrame.due u.host.follower s.line.stageTicks)) = some f →
      poolFits s.poolUse (poolSize (lenM1 f.desc + 1)) = true → f.payload = some p →
      ∃ t, exec (.frameDownSend dt) s = .next t
        ∧ t.host.txq = s.host.txq.filter (fun g => !(g.action == f.action && g.index == f.index)) ∧ t.host.notes = s.host.notes ++ [f.note]
        ∧ t.link.host.flight = s.link.host.flight ++ [⟨.frameDown f.action f.index p, u.host.follower, 0, false⟩]
        ∧ t.line = u.line ∧ t.dev = s.dev ∧ keepsStores s t)
  ∧ (∀ (l : List HostFrame) (f : HostFrame), firstDue l = some f → f ∈ l ∧ ∀ g ∈ l, f.launch ≤ g.launch
      ∧ (g.launch = f.launch → f.desc.chan ≤ g.desc.chan ∧ (g.desc.chan = f.desc.chan → f.accepted ≤ g.accepted)))
  ∧ (∀ (dt id i : Nat) (s : State) (a : Action) (f : TxFrame) (p : List Byte),
    let u := s.advance dt
    let c := f.desc.chan
    let hdr := makeHeader s.line.netId f.desc.type f.desc.mod f.desc.rate f.desc.lift (lenM1 f.desc) f.seed (s.line.txbFor f.desc.type c f.desc.level) f.desc.sec
    let o : OnAir := { u.line.airOf s.dev.mode c (.host a.tag a.id i a.slipped f.desc.seq f.desc.level) none hdr (poolSize (lenM1 f.desc + 1)) f.desc.level
      (withCheck f.desc.dest f.desc.seq p) with data := some (f.desc.dataOfs, f.desc.dataLen, if f.desc.sec then 32 else 16) }
    s.line.action? id = some a → a.frames[i]? = some f → f.launched = false → f.ended = false → a.frameLaunch f = u.line.clock.tb → s.dev.mode ≠ .maintain →
      s.line.ready = true → u.line.mustWait a [(4, c)] = false → f.payload = some p → f.touched = false → (s.line.chan c).onAir = none →
      u.line.rivalEnd a f.desc = none → f.desc.expEpoch = none → (s.line.chan c).entries ≠ [] →
      tooLong (s.line.chan c).rateK f.desc.mod f.desc.rate f.desc.lift (lenM1 f.desc) = false → o.starts = true → c < 256 → sized s →
      ∃ t, exec (.frameLaunch dt id i) s = .next t
        ∧ (t.line.chan c).onAir = some o ∧ o.launch = u.line.clock.tb ∧ (t.line.chan c).place = (s.line.chan c).place
        ∧ (outputsActive s.dev.mode = true → ∀ e ∈ o.entries, e.started = true → e.port < 96 → c ∈ (t.line.port e.port).holders)
        ∧ (∀ b g, t.line.action? id = some b → b.frames[i]? = some g → g.launched = true)
        ∧ (∀ d, d ≠ c → (t.line.chan d).onAir = (s.line.chan d).onAir) ∧ t.host = u.host ∧ t.dev = s.dev ∧ keepsStores s t)
  ∧ (∀ (dt c : Nat) (clips : List ClipSample) (s : State) (o : OnAir),
    let u := s.advance dt
    (s.line.chan c).onAir = some o → o.dueAt ≤ u.line.clock.tb → c < 256 → sized s →
      ∃ t, exec (.transmitFrameEnd dt ⟨c, clips⟩) s = .next t ∧ (t.line.chan c).onAir = none
        ∧ (t.line.chan c).place = (s.line.chan c).place ∧ (t.line.chan c).cfg = (s.line.chan c).cfg
        ∧ (clips = [] → ∀ d, d ≠ c → (t.line.chan d).onAir = (s.line.chan d).onAir) ∧ t.line.sched.actions = s.line.sched.actions ∧ t.dev = s.dev
        ∧ keepsStores s t)

/-! ## The driver of a port -/

/-- The driver enable rises for a channel that will transmit and falls once nothing holds it; a low on DRVFLT is accepted after 1 µs and faults the port;
a port above its current limit for four windows trips. What follows an on-air ending: the entry is complete 750 ticks on; an impedance block is kept
for its port and channel; the receive holds of a port and of a channel end at their instants. It formalises parts of R121, R122, R125, R126, R127,
R128, R129, R130, R135, R241. Where the specification leaves a point open it rests on the model's choice in logs 4, 42, 93, 94 and 95. -/
def Obligations.DriversRunThroughTheirStates : Prop :=
  (∀ (dt p c : Nat) (s : State),
    let u := s.advance dt
    p < 96 → sized s → u.line.carries s.dev.mode p = true → outputsActive s.dev.mode = true → (s.line.port p).holders.count c < u.line.asks c p →
      ∃ t, exec (.drvenRise dt p c) s = .next t
        ∧ t.line.port p = { s.line.port p with drven := true, holders := (s.line.port p).holders ++ [c] }
        ∧ (∀ q, q ≠ p → t.line.port q = s.line.port q) ∧ t.line.chans = s.line.chans ∧ onlyLine u t)
  ∧ (∀ (dt p : Nat) (s : State) (x : Tick),
    let u := s.advance dt
    p < 96 → sized s → (s.line.port p).drven = true → (s.line.port p).fallAt = some x →
      ∃ t, exec (.drvenFall dt p) s = .next t
        ∧ (u.line.held s.dev.mode p = false → x ≤ u.line.clock.tb → t.line.port p = { s.line.port p with drven := false, holders := [], fallAt := none })
        ∧ (u.line.held s.dev.mode p = true ∨ u.line.clock.tb < x → t.line.port p = s.line.port p)
        ∧ (∀ q, q ≠ p → t.line.port q = s.line.port q) ∧ t.line.chans = s.line.chans ∧ onlyLine u t)
  ∧ (∀ (dt p : Nat) (s : State),
    let u := s.advance dt
    p < 96 → sized s →
      (∃ t, exec (.drvfltAssert dt p) s = .next t
        ∧ ((s.line.port p).fltSince = none → t.line.port p = { s.line.port p with fltSince := some u.line.clock.tb, fltTaken := false })
        ∧ ((s.line.port p).fltSince ≠ none → t.line.port p = s.line.port p)
        ∧ (∀ q, q ≠ p → t.line.port q = s.line.port q) ∧ t.line.chans = s.line.chans ∧ onlyLine u t)
      ∧ ∃ t, exec (.drvfltDeassert dt p) s = .next t ∧ t.line.port p = { s.line.port p with fltSince := none, fltTaken := false }
        ∧ (∀ q, q ≠ p → t.line.port q = s.line.port q) ∧ t.line.chans = s.line.chans ∧ onlyLine u t)
  ∧ (∀ (dt p : Nat) (s : State) (x : Tick),
    let u := s.advance dt
    p < 96 → sized s → (s.line.port p).fltSince = some x → x + 1500 ≤ u.line.clock.tb → (s.line.port p).fltTaken = false → (s.line.port p).on = true →
      ((s.line.port p).row 7 = 0 ∨ (s.line.port p).drven = true) → (s.line.port p).fault = false → (s.line.port p).faultDue = none →
      (∀ x ∈ (s.line.port p).lateEnds, x.chan < 256 ∧ x.at_ ≤ u.line.clock.tb) →
      ∃ t, exec (.drvfltAccepted dt p) s = .next t
        ∧ (t.line.port p).fltTaken = true
        ∧ (s.line.fading p = false → (t.line.port p).fault = true ∧ (t.line.port p).cause = 1 ∧ (t.line.port p).drven = false)
        ∧ (s.line.fading p = true → ∃ at_, (t.line.port p).faultDue = some (at_, 1) ∧ at_ ≤ u.line.clock.tb + 375 + 750
            ∧ (∀ x ∈ t.line.chans, ∀ o, x.onAir = some o → ∀ e ∈ o.entries, e.port = p → e.started = true → e.complete = false →
                ∃ y k, e.ended = some (y, k) ∧ y + 750 ≤ at_))
        ∧ (∀ x ∈ t.line.chans, ∀ o, x.onAir = some o → ∀ e ∈ o.entries, e.port = p → e.started = true → e.complete = false → e.ended ≠ none)
        ∧ (∀ q, q ≠ p → t.line.port q = s.line.port q) ∧ t.dev = s.dev ∧ keepsStores s t)
  ∧ (∀ (dt p : Nat) (x : WindowObs) (s : State),
    let u := s.advance dt
    let q := s.line.port p
    let i := u.line.current p x
    let n : Port := { q with lastI := i, windowAt := u.line.clock.tb, peak := max q.peak (roundSqrt i.1 i.2) }
    let run := (if u.line.clock.tb = q.windowAt + 15000 then q.overRun else 0) + 1
    p < 96 → sized s → q.overRun < 4 → (∀ x ∈ q.lateEnds, x.chan < 256 ∧ x.at_ ≤ u.line.clock.tb) →
      ∃ t, exec (.ilimWindow dt p x) s = .next t
        ∧ (u.line.clock.tb < q.windowAt + 15000 → t.line.port p = q ∧ t.line.chans = s.line.chans)
        ∧ (q.windowAt + 15000 ≤ u.line.clock.tb →
            (t.line.port p).lastI = i ∧ (t.line.port p).peak = n.peak
            ∧ (n.overLimit = false → t.line.port p = { n with overRun := 0 } ∧ t.line.chans = s.line.chans)
            ∧ (n.overLimit = true → run < 4 → t.line.port p = { n with overRun := run } ∧ t.line.chans = s.line.chans)
            ∧ (n.overLimit = true → 4 ≤ run → q.on = true → q.fault = false → q.faultDue = none →
                (t.line.port p).overRun = 0 ∧ ∃ at_, (t.line.port p).faultDue = some (at_, 2) ∧ at_ ≤ u.line.clock.tb + 375 + 750))
        ∧ (∀ r, r ≠ p → t.line.port r = s.line.port r) ∧ t.dev = s.dev ∧ keepsStores s t)
  ∧ (∀ (dt p c : Nat) (s : State) (o : OnAir) (e : TxEntry) (x : Tick) (k : Nat),
    let u := s.advance dt
    c < 256 → sized s → (s.line.chan c).onAir = some o → o.entries.find? (fun e => e.port == p && e.started && !e.complete) = some e → e.ended = some (x, k) →
      x + 750 ≤ u.line.clock.tb →
      ∃ t o', exec (.onAirEndingComplete dt p c) s = .next t ∧ (t.line.chan c).onAir = some o'
        ∧ o'.entries = o.entries.map (fun n => if n.port = p then { n with complete := true } else n) ∧ o'.launch = o.launch
        ∧ (∀ r k, (s.line.port p).faultDue = some (r, k) → p < 96 → r ≤ u.line.clock.tb → (t.line.port p).fault = true ∧ (t.line.port p).cause = k
            ∧ (t.line.port p).drven = false)
        ∧ (∀ q, q ≠ p → t.line.port q = s.line.port q) ∧ (∀ d, d ≠ c → (t.line.chan d).onAir = (s.line.chan d).onAir) ∧ onlyLine u t)
  ∧ (∀ (dt p c : Nat) (s : State) (o : OnAir) (b : ZBlock),
    let u := s.advance dt
    p < 96 → c < 256 → sized s → (s.line.chan c).onAir = some o → u.line.zDue p o c b = true →
      ∃ t z, exec (.impedanceBlock dt p c b) s = .next t ∧ (t.line.port p).zs.find? (fun z => z.chan == c) = some z
        ∧ z.mag = (s.line.port p).zMag b ∧ (((s.line.port p).volts b).1.norm ≠ 0 → z.angle = (s.line.port p).zAngle b)
        ∧ z.at_ = u.line.clock.tb ∧ z.frame = o.launch ∧ z.symbol = b.symbol
        ∧ (t.line.port p).cfg = (s.line.port p).cfg ∧ (t.line.port p).muted = (s.line.port p).muted ∧ (t.line.port p).fault = (s.line.port p).fault
        ∧ (∀ q, q ≠ p → t.line.port q = s.line.port q) ∧ (∀ d, d ≠ c → t.line.chan d = s.line.chan d) ∧ t.dev = s.dev ∧ keepsStores s t)
  ∧ (∀ (dt p : Nat) (s : State) (x : Tick),
    let u := s.advance dt
    p < 96 → sized s → (s.line.port p).settle = some x →
      ∃ t, exec (.cplSettleEnd dt p) s = .next t
        ∧ t.line.port p = (if x ≤ u.line.clock.tb then { s.line.port p with settle := none, markEnd := max (s.line.port p).markEnd x } else s.line.port p)
        ∧ (∀ q, q ≠ p → t.line.port q = s.line.port q) ∧ t.line.chans = s.line.chans ∧ onlyLine u t)
  ∧ (∀ (dt c : Nat) (s : State) (x : Tick),
    let u := s.advance dt
    c < 256 → sized s → (s.line.chan c).holdUntil = some x → x ≤ u.line.clock.tb → s.line.stillHeld c = false →
      u.line.heldAhead s.dev.mode c = false →
      ∃ t, exec (.selfOverlapHoldEnd dt c) s = .next t ∧ (t.line.chan c).holdFrom = none ∧ (t.line.chan c).holdUntil = none
        ∧ (((s.line.chan c).holdFrom.getD x), x) ∈ (t.line.chan c).marks
        ∧ (t.line.chan c).place = (s.line.chan c).place ∧ (t.line.chan c).frames = (s.line.chan c).frames
        ∧ (∀ d, d ≠ c → t.line.chan d = s.line.chan d) ∧ t.line.ports = s.line.ports ∧ onlyLine u t)

/-! ## Discipline -/

/-- A pulse of PPS_REF is weighed while the barrier and its timing lane are up: in force, it counts the second on and gives the phase offset, which is
slewed away or, more than 1 ms behind in a mode that steps, stepped; the fourth good one qualifies the source; a pulse too short or too long is none.
A Sync of the master that is followed, captured at the medium, gives its offset the same way, at once or with its Follow_Up; Announces choose the
master, and a changed H_PTP_CTRL takes force with a Sync. A source that falls silent for its time is no longer qualified; when it was in force and no
other is qualified, the node is without a source from that instant, and leaves a traffic mode for HOLDOVER. It formalises parts of R45, R357. Where
the specification leaves a point open it rests on the model's choice in logs 32 and 138. -/
def Obligations.DisciplineHoldsAndIsLost : Prop :=
  (∀ (dt high n : Nat) (a : Tick) (s : State),
    let u := s.advance dt
    let x : Tick := u.line.clock.tb - s.line.time.ppsDelay - s.line.time.laneDelay
    let n' := n + (roundDiv (x - a) secondTicks).toNat
    let off : Int := nearTick x (n' * secondTicks) - x
    s.link.host.up = true → s.link.line.up = true → s.link.timingUp = true → 100 ≤ high → high ≤ 900000000 → s.line.time.source = 0 →
      s.line.time.ppsQual = true → bitOf (s.line.time.row 0) 0 = true → s.line.time.ptpQual = false → s.line.time.bcnQual = false →
      s.line.time.timeSet = none → s.line.time.ppsLast = some a → s.line.time.second = some n → (x - a - secondTicks).natAbs ≤ 1500 →
      s.line.clock.disciplined = true → s.line.time.firstStep = false →
      ∃ t, exec (.ppsEdge dt high) s = .next t
        ∧ t.line.time.ppsLast = some x ∧ t.line.time.second = some n' ∧ t.line.time.ppsQual = true ∧ t.line.time.ppsBad = 0 ∧ t.line.time.offset = off
        ∧ t.line.clock.slew = (if 1500000 < off ∧ stepMode s.dev.mode = true then 0 else off)
        ∧ (s.line.time.stepAt = none → t.line.time.stepDue = (if 1500000 < off ∧ stepMode s.dev.mode = true then some off.toNat else none))
        ∧ t.line.clock.c.natAbs ≤ 858993 ∧ t.line.clock.tb = u.line.clock.tb
        ∧ t.line.ports = s.line.ports ∧ t.line.chans = s.line.chans ∧ t.line.sched = s.line.sched ∧ t.dev = s.dev ∧ keepsStores s t)
  ∧ (∀ (dt high n : Nat) (a : Tick) (s : State),
    let u := s.advance dt
    let x : Tick := u.line.clock.tb - s.line.time.ppsDelay - s.line.time.laneDelay
    s.link.host.up = true → s.link.line.up = true → s.link.timingUp = true → 100 ≤ high → high ≤ 900000000 → s.line.time.source = 3 →
      s.line.time.ppsQual = false → s.line.time.ppsGood = 3 → bitOf (s.line.time.row 0) 0 = true → s.line.time.ptpQual = false →
      s.line.time.bcnQual = false → s.line.time.timeSet = none → s.line.time.ppsLast = some a → s.line.time.second = some n →
      (x - a - secondTicks).natAbs ≤ 1500 → s.dev.mode = .config →
      ∃ t, exec (.ppsEdge dt high) s = .next t
        ∧ t.line.time.ppsQual = true ∧ t.line.time.source = 0 ∧ t.line.time.lostAt = none ∧ t.line.time.stratumNow = 1 ∧ t.line.clock.disciplined = true
        ∧ t.line.clock.c.natAbs ≤ 858993 ∧ t.line.clock.tb = u.line.clock.tb ∧ t.dev = s.dev ∧ keepsStores s t
        ∧ ((∀ b ∈ s.line.sched.actions, b.fixed = true) → t.line.ports = s.line.ports ∧ t.line.sched.actions = s.line.sched.actions))
  ∧ (∀ (dt high : Nat) (s : State), (high < 100 ∨ 900000000 < high) → exec (.ppsEdge dt high) s = .next (s.advance dt).flush)
  ∧ (∀ (dt : Nat) (m : PtpHead) (b : PtpOrigin) (d : Int) (s : State),
    let u := s.advance dt
    let x : Tick := u.host.follower - ptpRx s.host.ptp.inForce
    let off : Int := b.origin + d - x
    s.ptpRuns = true → s.link.host.up = true → s.link.line.up = true → s.host.ptp.requalify = false → s.ptpFollows m = true → s.host.ptp.path = some d →
      s.line.time.source = 1 → s.line.time.ptpQual = true → s.line.time.ppsQual = false → bitOf (s.line.time.row 0) 1 = true →
      s.line.clock.disciplined = true → s.line.time.firstStep = false → b.servo.natAbs ≤ 15000 →
      ∃ t, exec (.ptpMessage dt (.sync m false b)) s = .next t
        ∧ t.host.ptp = { s.host.ptp with last := some (b.origin, x), open_ := none }
        ∧ t.line.time.ptpLast = some u.line.clock.tb ∧ t.line.time.ptpOffset = off ∧ t.line.time.offset = off ∧ t.line.time.ptpQual = true
        ∧ t.line.time.ptpGood = (if b.servo.natAbs ≤ 150 then min 16 (s.line.time.ptpGood + 1) else 0)
        ∧ t.line.clock.slew = (if 1500000 < off ∧ stepMode s.dev.mode = true then 0 else off)
        ∧ t.line.clock.c.natAbs ≤ 858993 ∧ t.line.clock.tb = u.line.clock.tb
        ∧ t.line.ports = s.line.ports ∧ t.line.chans = s.line.chans ∧ t.line.sched = s.line.sched ∧ t.dev = s.dev ∧ keepsStores s t)
  ∧ (∀ (dt : Nat) (m : PtpHead) (b : PtpOrigin) (d : Int) (x : Tick) (s : State),
    let off : Int := b.origin + d - x
    s.ptpRuns = true → s.link.host.up = true → s.link.line.up = true → s.ptpFollows m = true → s.host.ptp.path = some d →
      s.host.ptp.open_ = some (b.seq, x) → s.line.time.source = 1 → s.line.time.ptpQual = true → s.line.time.ppsQual = false →
      bitOf (s.line.time.row 0) 1 = true → b.servo.natAbs ≤ 15000 →
      ∃ t, exec (.ptpMessage dt (.followUp m b)) s = .next t ∧ t.host.ptp = { s.host.ptp with last := some (b.origin, x), open_ := none }
        ∧ t.line.time.ptpOffset = off ∧ t.line.time.offset = off ∧ t.line.time.ptpQual = true ∧ t.line.time.ptpLast = s.line.time.ptpLast)
  ∧ (∀ (dt : Nat) (m : PtpHead) (b : PtpOrigin) (s : State),
    let u := s.advance dt
    s.ptpRuns = true → s.host.ptp.requalify = false → s.ptpFollows m = true →
      ∃ t, exec (.ptpMessage dt (.sync m true b)) s = .next t
        ∧ t.host.ptp = { s.host.ptp with open_ := some (b.seq, u.host.follower - ptpRx s.host.ptp.inForce) })
  ∧ (∀ (dt : Nat) (m : PtpHead) (g : PtpGrade) (s : State),
    let u := s.advance dt
    s.ptpRuns = true → s.ptpHears s.host.ptp.inForce m = true → g.steps < 255 →
      exec (.ptpMessage dt (.announce m g)) s = .next (u.onHost (HostSide.modPtp (Ptp.announce m g))).flush)
  ∧ (∀ (m : PtpHead) (k : PtpHead × PtpGrade) (g : PtpGrade) (s : State),
    let r : Ptp := s.host.ptp.announce m g
    s.host.ptp.best = some k → k.1 ≠ m →
      (betterMaster (m, g) k = true → r.best = some (m, g) ∧ r.grandmaster = g.grandmaster ∧ r.path = none) ∧ (betterMaster (m, g) k = false → r = s.host.ptp))
  ∧ (∀ (dt : Nat) (m : PtpHead) (twoStep : Bool) (b : PtpOrigin) (s : State),
    let p := s.host.ptp
    s.ptpRuns = true → s.link.host.up = true → s.link.line.up = true → p.requalify = true → s.ptpHears p.ctrl m = true →
      ∃ t, exec (.ptpMessage dt (.sync m twoStep b)) s = .next t ∧ t.host.ptp.inForce = p.ctrl ∧ t.host.ptp.requalify = false ∧ t.line.time.ptpQual = false)
  ∧ (∀ (dt : Nat) (m : PtpHead) (sent received : Int) (origin : Int) (x : Tick) (s : State),
    let p := s.host.ptp
    s.ptpRuns = true → s.ptpFollows m = true → ptpPeer p.inForce = false → p.last = some (origin, x) →
      ∃ t, exec (.ptpMessage dt (.delayResp m sent received)) s = .next t ∧ t.line = (s.advance dt).flush.line
        ∧ t.host.ptp = { p with path := some (roundDiv ((x - origin) + (received - (sent + ptpTx p.inForce))) 2) })
  ∧ (∀ (dt : Nat) (m : PtpHead) (sent turn : Int) (s : State),
    let u := s.advance dt
    let p := s.host.ptp
    s.ptpRuns = true → s.ptpHears p.inForce m = true → ptpPeer p.inForce = true →
      ∃ t, exec (.ptpMessage dt (.pdelayResp m sent turn)) s = .next t ∧ t.line = u.flush.line
        ∧ t.host.ptp = { p with path := some (roundDiv (u.host.follower - ptpRx p.inForce - (sent + ptpTx p.inForce) - turn) 2) })
  ∧ (∀ (dt : Nat) (msg : PtpMsg) (s : State), s.ptpRuns = false ∨ msg = .other → exec (.ptpMessage dt msg) s = .next (s.advance dt).flush)
  ∧ (∀ (dt : Nat) (s : State) (a : Tick),
    let u := s.advance dt
    s.line.time.ppsLast = some a → 2250000000 ≤ u.line.clock.tb - a → s.line.time.source = 0 → s.line.time.ptpQual = false → s.line.time.bcnQual = false →
      ∃ t, exec (.ppsLossTimeout dt) s = .next t
        ∧ t.line.time.ppsQual = false ∧ t.line.time.ppsGood = 0 ∧ t.line.time.source = 3 ∧ t.line.time.lostAt = some u.line.clock.tb
        ∧ t.dev.mode = (if isTraffic s.dev.mode then .holdover else s.dev.mode)
        ∧ t.dev.modeEpoch = s.dev.modeEpoch + (if isTraffic s.dev.mode then 1 else 0)
        ∧ (isTraffic s.dev.mode = true → t.dev.held = s.dev.mode) ∧ t.line.clock.slew = 0 ∧ t.line.clock.tb = u.line.clock.tb ∧ keepsStores s t)
  ∧ (∀ (dt : Nat) (s : State) (a : Tick),
    s.line.time.ppsLast = some a → (s.advance dt).line.clock.tb - a < 2250000000 → exec (.ppsLossTimeout dt) s = .next (s.advance dt).flush)
  ∧ (∀ (dt : Nat) (s : State) (a : Tick),
    let u := s.advance dt
    s.line.time.ptpLast = some a → 4500000000 ≤ u.line.clock.tb - a → s.line.time.source = 1 → s.line.time.ppsQual = false → s.line.time.bcnQual = false →
      ∃ t, exec (.ptpSyncTimeout dt) s = .next t
        ∧ t.line.time.ptpQual = false ∧ t.line.time.ptpGood = 0 ∧ t.line.time.ptpLast = none ∧ t.host.ptp.best = none ∧ t.line.time.source = 3 ∧ t.line.time.lostAt = some u.line.clock.tb
        ∧ t.dev.mode = (if isTraffic s.dev.mode then .holdover else s.dev.mode) ∧ t.line.clock.tb = u.line.clock.tb ∧ keepsStores s t)
  ∧ (∀ (dt : Nat) (s : State) (n now : W32) (r : List W32),
    let u := s.advance dt
    s.line.time.bcnStrokes = n :: r → s.line.time.gridStroke u.line.clock.tb = some now → ((8 * s.line.time.ttPeriod : Nat) : Int) ≤ strokeDist n now →
      s.line.time.source = 2 → s.line.time.ppsQual = false → s.line.time.ptpQual = false →
      ∃ t, exec (.beaconSourceTimeout dt) s = .next t
        ∧ t.line.time.bcnQual = false ∧ t.line.time.bcnStrokes = [] ∧ t.line.time.source = 3 ∧ t.line.time.lostAt = some u.line.clock.tb
        ∧ t.line.time.answers = s.line.time.answers.filter (fun a => some a.node != s.line.time.parent)
        ∧ (∀ p, t.line.time.parent = some p → s.line.time.parent ≠ some p)
        ∧ t.dev.mode = (if isTraffic s.dev.mode then .holdover else s.dev.mode) ∧ t.line.clock.tb = u.line.clock.tb ∧ keepsStores s t)

/-- TIME_SYNC carries the timebase, and an announced step 20 µs ahead of its instant; the follower, behind by more than 1 µs, lands within 2 ticks of it,
and else slews: it waits while ahead, hurries while behind, and never goes back; timebase and follower step together; a TIME_SET without a pulse is
aborted; the 1PPS output rises within 5 ticks of whole seconds; the 10 MHz reference changes the rate. It formalises parts of R39, R43, R44, R46, R70,
R71. Where the specification leaves a point open it rests on the model's choice in logs 5, 33, 34, 36, 97 and 115. -/
def Obligations.FollowerStepsWithTheTimebase : Prop :=
  (∀ (dt : Nat) (s : State),
    let u := s.advance dt
    let now := u.line.clock.tb
    s.link.line.up = true → s.line.time.stepAt = none →
      ∃ t, exec (.timeSyncSend dt) s = .next t
        ∧ t.line = { u.line with out := [], time := { u.line.time with stepAt := s.line.time.stepDue.map fun _ => now + 30000 } }
        ∧ Msg.timeSync now (s.line.time.stepDue.map fun n => (now + 30000, n)) ∈ t.link.line.flight.map (·.msg) ∧ onlyLine u t)
  ∧ (∀ (dt : Nat) (s : State) (m : Tick) (step : Option (Tick × Nat)) (r : List Msg),
    let u := s.advance dt
    s.link.host.inbox = .timeSync m step :: r → s.host.firstSync = false →
      ∃ (t : State) (err : Int), exec (.timeSyncReceive dt) s = .next t ∧ err.natAbs ≤ 2
        ∧ t.host.follower = (if u.host.follower + 1500 < u.line.clock.tb + err then u.line.clock.tb + err else u.host.follower)
        ∧ t.host.followerAhead = (t.host.follower - (u.line.clock.tb + err)).toNat
        ∧ t.host.followerBehind = (u.line.clock.tb + err - t.host.follower).toNat ∧ t.host.followerFree = 0 ∧ t.host.inSync = true ∧ t.host.syncStep = step
        ∧ t.link.host.inbox = r ∧ t.line = u.line ∧ t.link.line = s.link.line ∧ t.dev.mode = s.dev.mode ∧ t.hbMem = s.hbMem ∧ t.lbMem = s.lbMem
        ∧ t.hostRam = s.hostRam)
  ∧ (∀ (dt : Nat) (s : State) (m : Tick) (step : Option (Tick × Nat)) (r : List Msg),
    let u := s.advance dt
    s.link.host.inbox = .timeSync m step :: r → s.host.firstSync = true →
      ∃ (t : State) (err : Int), exec (.timeSyncReceive dt) s = .next t ∧ err.natAbs ≤ 2 ∧ t.host.follower = u.line.clock.tb + err
        ∧ t.host.followerAhead = 0 ∧ t.host.followerBehind = 0 ∧ t.host.firstSync = false ∧ t.host.inSync = true ∧ t.line = u.line)
  ∧ (∀ (dt n : Nat) (s : State) (x : Tick),
    let u := s.advance dt
    s.line.time.stepDue = some n → s.line.time.stepAt = some x → x ≤ u.line.clock.tb →
      ∃ t, exec (.timebaseStep dt) s = .next t
        ∧ t.line.clock = { u.line.clock with tb := u.line.clock.tb + n, slew := 0, slewAcc := 0 } ∧ t.line.time.faulted = false ∧ t.line.time.stepDue = none ∧ t.line.time.stepAt = none
        ∧ t.host.follower = u.host.follower + (((s.host.syncStep.map (·.2)).getD 0 : Nat) : Int)
        ∧ (∀ o ∈ t.line.time.planned, t.line.clock.tb ≤ o.launch) ∧ t.dev.mode = s.dev.mode ∧ t.hbMem = s.hbMem ∧ t.lbMem = s.lbMem)
  ∧ (∀ (dt : Nat) (s : State) (y : TimeSet),
    let u := s.advance dt
    let v : State := { u with line := { u.line with time := { u.line.time with timeSet := none } } }
    s.line.time.timeSet = some y →
      (1650000000 ≤ u.line.clock.tb - y.reached →
        exec (.timeSetTimeout dt) s = .next (v.answerWith infoTimeSet y.cmd v.timeRefL .aborted [] (y.reached + 1650000000) none).flush)
      ∧ (u.line.clock.tb - y.reached < 1650000000 → exec (.timeSetTimeout dt) s = .next u.flush))
  ∧ (∀ (dt : Nat) (s : State),
    let u := s.advance dt
    let k : Tick := wholeSecond u.host.time
    s.dev.hostRails = true → u.host.time - k ≤ 5 → s.host.ppsOut ≠ some k →
      exec (.ppsOutEdge dt) s = .next (if u.line.clock.disciplined then { u with host := { u.host with ppsOut := some k } } else u))
  ∧ (∀ (dt : Nat) (ok : Bool) (rate : Int) (s : State),
    let u := s.advance dt
    ∃ t, exec (.ref10mChange dt ok rate) s = .next t ∧ t.line.clock.ref10m = (ok && s.link.line.up && s.link.timingUp)
      ∧ t.line.clock.c.natAbs ≤ 858993 ∧ (rate.natAbs ≤ 858993 → t.line.clock.c = rate) ∧ t.line.clock.tb = u.line.clock.tb
      ∧ t.line.time = s.line.time ∧ t.line.ports = s.line.ports ∧ t.line.chans = s.line.chans ∧ onlyLine u t)
  ∧ (∀ (dt : Nat) (s : State),
    let u := s.advance dt
    u.line.holdoverSpent = true → s.line.time.crewHeld = false →
      ∃ t, exec (.crewHold dt) s = .next t ∧ t.line.time.crewHeld = true ∧ t.line.time.epoch = s.line.time.epoch + 1
        ∧ (∀ k ∈ t.line.relay.copies, k.type = 0 ∧ k ∈ s.line.relay.copies) ∧ t.line.clock = u.line.clock ∧ onlyLine u t)
  ∧ (∀ (dt : Nat) (s : State) (a : Tick),
    let u := s.advance dt
    s.dev.mode = .holdover → s.line.time.lossAt = some a → s.line.time.islandDelay ≠ 0 → s.line.time.islandDelay ≤ u.line.clock.tb - a →
      ∃ t, exec (.islandDelayExpiry dt) s = .next t ∧ t.dev.mode = .island ∧ t.dev.islandAuto = true ∧ t.dev.modeEpoch = s.dev.modeEpoch + 1
        ∧ t.line.clock = u.line.clock ∧ keepsStores s t)

/-! ## Grid time -/

/-- A transition held within 1,024 steps of its prediction re-anchors the tracker of its input and counts towards VALID at 45 to 65 Hz; another leaves the
tracker and starts the count anew; 45 ms without an accepted one are a loss. A tracker without an anchor takes the first held crossing. The first
accepted positive crossing of the reference starts the provisional schedule. An adopted schedule takes over at its first boundary; a beacon that fails
its checks is counted and discarded, one that passes gives the rank and the segments of its cox and an election; a rank not heard for eight of its
periods is dropped, and the node elects again. It formalises parts of R53, R54, R64, R66, R79, R169. Where the specification leaves a point open it
rests on the model's choice in logs 12, 16, 30, 31, 40, 118 and 119. -/
def Obligations.GridTimeFollowsCrossingsAndSchedules : Prop :=
  (∀ (dt i : Nat) (e : Crossing) (s : State),
    let u := s.advance dt
    let x := s.line.time.input i
    let at_ : Tick := u.line.clock.tb - e.late
    let inBand := decide (45000 ≤ e.freqMhz ∧ e.freqMhz ≤ 65000)
    i < 6 → sized s → x.state ≠ .off →
      ∃ t, exec (.zeroCrossing dt i e) s = .next t
        ∧ (x.accepts at_ e = true → (t.line.time.input i).anchor = some (at_, if e.positive then 0 else 32768)
            ∧ (t.line.time.input i).freq = max 1 e.freqMhz ∧ (inBand = false → (t.line.time.input i).state = .lost)
            ∧ (inBand = true → (t.line.time.input i).accepted = x.accepted + 1
                ∧ (t.line.time.input i).state = if 16 ≤ x.accepted + 1 then .valid else x.state))
        ∧ (x.accepts at_ e = false → (t.line.time.input i).anchor = x.anchor ∧ (t.line.time.input i).freq = x.freq ∧ (t.line.time.input i).accepted = 0
            ∧ ((t.line.time.input i).state = x.state ∨ (t.line.time.input i).state = .noisy))
        ∧ (∀ j, j ≠ i → t.line.time.input j = s.line.time.input j) ∧ (s.line.time.segs ≠ [] → t.line.time.segs = s.line.time.segs)
        ∧ (s.line.time.segs = [] → x.accepts at_ e = true → e.positive = true → inBand = true → x.state = .valid → s.line.time.ref = i →
            t.line.time.segs = (s.line.time.startGrid at_).segs)
        ∧ t.line.clock = u.line.clock ∧ t.dev.mode = s.dev.mode ∧ t.hbMem = s.hbMem ∧ t.lbMem = s.lbMem ∧ t.hostRam = s.hostRam)
  ∧ (∀ (dt i : Nat) (s : State) (a : Tick × W16),
    let u := s.advance dt
    let x := s.line.time.input i
    i < 6 → sized s → (x.state = .valid ∨ x.state = .noisy) → x.anchor = some a → 67500000 ≤ u.line.clock.tb - a.1 →
      ∃ t, exec (.senseLossTimeout dt i) s = .next t
        ∧ t.line.time.input i = { x with state := .lost, accepted := 0 } ∧ (∀ j, j ≠ i → t.line.time.input j = s.line.time.input j)
        ∧ t.line.time.segs = s.line.time.segs ∧ t.line.clock = u.line.clock ∧ t.dev.mode = s.dev.mode ∧ t.hbMem = s.hbMem ∧ t.lbMem = s.lbMem
        ∧ t.hostRam = s.hostRam)
  ∧ (∀ (dt : Nat) (s : State) (b : Tick) (segs : List Seg),
    let u := s.advance dt
    let new : W32 := ((segNow segs b).map fun g => g.ramp.stroke b).getD 0
    let stepped := countAt 15 16 1 s.line.time.ctrs
    s.line.time.adopting = some (b, segs) → b ≤ u.line.clock.tb →
      ∃ t, exec (.gridStep dt) s = .next t ∧ t.line.time.segs = segs ∧ t.line.time.adopting = none ∧ t.line.time.epoch = s.line.time.epoch + 1
        ∧ t.line.time.gridLast = some new ∧ t.line.time.ctrs = (if ({ s.line.time with segs := segs } : Time).covered new then stepped else countAt 13 32 1 stepped)
        ∧ t.line.clock = u.line.clock ∧ t.dev.mode = s.dev.mode ∧ t.hbMem = s.hbMem
        ∧ t.lbMem = s.lbMem)
  ∧ (∀ (dt : Nat) (s : State) (g : GoodFrame) (r : List GoodFrame),
    let u := s.advance dt
    let b := parseBeacon u.line.clock.tb (hdrLen g.frame.hdr) g.bytes
    let rank : Rank := { node := b.cox, stratum := b.stratum, heard := (s.line.time.gridStroke u.line.clock.tb).getD 0, pb := b.pb, segs := b.segs }
    s.line.beacons = g :: r →
      ∃ t, exec (.beaconReceived dt) s = .next t ∧ t.line.beacons = r ∧ t.line.time.ctrs = s.line.time.ctrs
        ∧ (b.ok = false → t.line.time.ranks = s.line.time.ranks ∧ t.line.time.segs = s.line.time.segs ∧ t.line.time.cox = s.line.time.cox)
        ∧ (b.ok = true → s.dev.mode ≠ .island →
            t.line.time.ranks = rank :: s.line.time.ranks.filter (fun y => y.node != b.cox) ∧ t.line.time.cox = bestRank t.line.candidates)
        ∧ t.line.clock = u.line.clock ∧ t.dev = s.dev ∧ keepsStores s t
        ∧ ((∀ a ∈ s.line.sched.actions, a.fixed = true) → t.line.ports = s.line.ports ∧ t.line.chans = s.line.chans ∧ t.line.sched = s.line.sched
            ∧ onlyLine u t))
  ∧ (∀ (dt : Nat) (node n : W32) (r : Rank) (s : State),
    let u := s.advance dt
    s.line.time.ranks.find? (fun r => r.node == node) = some r → s.line.time.gridStroke u.line.clock.tb = some n → ((8 * r.pb : Nat) : Int) < strokeDist r.heard n →
      ∃ t, exec (.coxRankExpiry dt node) s = .next t ∧ t.line.time.ranks = s.line.time.ranks.filter (fun y => y.node != node)
        ∧ (s.dev.mode ≠ .island → t.line.time.cox = bestRank t.line.candidates)
        ∧ t.line.clock = u.line.clock ∧ t.dev = s.dev ∧ keepsStores s t
        ∧ ((∀ a ∈ s.line.sched.actions, a.fixed = true) → t.line.ports = s.line.ports ∧ t.line.chans = s.line.chans ∧ t.line.sched = s.line.sched
            ∧ onlyLine u t))

/-- The boundary of a stroke ends the stroke before it once: on the grid an uncovered one is counted and spent segments go, local strokes count on from
the boundary that the tracker predicted, synthetic ones follow the timebase; a port takes up its new source at the first boundary of that source. It
formalises parts of R59, R68, R110, R111. Where the specification leaves a point open it rests on the model's choice in logs 38, 74, 92 and 103. -/
def Obligations.StrokesRunOnTheirSource : Prop :=
  (∀ (dt : Nat) (s : State) (n : W32) (clips : List ClipSample),
    let u := s.advance dt
    s.line.time.gridStroke u.line.clock.tb = some n →
      (s.line.time.gridLast = some n → exec (.strokeBoundary dt ⟨.grid, clips⟩) s = .next (u.onLine (Line.noteClips clips)).flush)
      ∧ (s.line.time.gridLast ≠ some n → sized s →
        ∃ t, exec (.strokeBoundary dt ⟨.grid, clips⟩) s = .next t ∧ t.line.time.gridLast = some n
          ∧ t.line.time.segs = pruneSegs u.line.clock.tb s.line.time.segs
          ∧ t.line.time.ctrs = (if s.line.time.covered n then s.line.time.ctrs else countAt 13 32 1 s.line.time.ctrs)
          ∧ (∀ c, c < 256 → ∀ p, (s.line.chan c).rxPort = some p → p < 96 → (s.line.port p).srcNow = 0 → (t.line.chan c).grants = 0)
          ∧ (∀ p, (t.line.port p).cfg = (s.line.port p).cfg ∧ (t.line.port p).srcNow = (s.line.port p).srcNow ∧ (t.line.port p).locCount = (s.line.port p).locCount)
          ∧ t.line.clock = u.line.clock ∧ t.dev = s.dev ∧ keepsStores s t))
  ∧ (∀ (dt p : Nat) (s : State) (clips : List ClipSample),
    let u := s.advance dt
    let v := u.onLine (Line.noteClips clips)
    p < 96 → sized s → (s.line.port p).srcNow = 1 → s.line.nextLocal p ≤ u.line.clock.tb →
      ∃ t, exec (.strokeBoundary dt ⟨.localOf p, clips⟩) s = .next t
        ∧ (t.line.port p).locB = s.line.nextLocal p ∧ (t.line.port p).locCount = (s.line.port p).locCount + 1
        ∧ (t.line.port p).locHalf = !(s.line.port p).locHalf ∧ (t.line.port p).cfg = (s.line.port p).cfg ∧ (t.line.port p).srcNow = 1
        ∧ (∀ c, c < 256 → (s.line.chan c).rxPort = some p → (t.line.chan c).grants = 0)
        ∧ (t.line.port p).clips = (v.line.port p).clips.filter (fun x => decide (s.line.nextLocal p ≤ x.at_))
        ∧ ((∀ a ∈ s.line.sched.actions, a.fixed = true) → (∀ q, q ≠ p → t.line.port q = v.line.port q) ∧ t.line.sched.actions = s.line.sched.actions)
        ∧ t.line.time = s.line.time ∧ t.line.clock = u.line.clock ∧ t.dev = s.dev ∧ keepsStores s t)
  ∧ (∀ (dt : Nat) (s : State) (clips : List ClipSample),
    let u := s.advance dt
    let n := (s.line.time.synthRamp u.line.clock.tb).stroke u.line.clock.tb
    s.line.time.synthLast ≠ some n →
      ∃ t, exec (.strokeBoundary dt ⟨.synthetic, clips⟩) s = .next t ∧ t.line.time = { s.line.time with synthLast := some n }
        ∧ t.line.clock = u.line.clock ∧ t.dev = s.dev ∧ keepsStores s t)
  ∧ (∀ (dt p src : Nat) (s : State) (x b : Tick),
    let u := s.advance dt
    p < 96 → sized s → (s.line.port p).srcNext = some (src, x) → u.line.firstBoundary p src x = some b → b ≤ u.line.clock.tb →
      ∃ t, exec (.strokeSource dt p) s = .next t
        ∧ (t.line.port p).srcNow = src ∧ (t.line.port p).srcNext = none ∧ (t.line.port p).locB = b ∧ (t.line.port p).locCount = u.line.countAtSwitch p src b
        ∧ (t.line.port p).cfg = (s.line.port p).cfg ∧ (∀ q, q ≠ p → (t.line.port q).srcNow = (s.line.port q).srcNow)
        ∧ t.line.time = s.line.time ∧ t.line.clock = u.line.clock ∧ t.dev.mode = s.dev.mode ∧ t.hbMem = s.hbMem ∧ t.lbMem = s.lbMem)

/-! ## Frames of the device's own -/

/-- The elected cox fixes a beacon 1 ms ahead of its stroke, with segments added to those it holds, and sends it at its instant; one that would break the
catch is counted and not sent. A report is fixed in the same way, or skipped and counted. It formalises parts of R62, R170, R262. Where the
specification leaves a point open it rests on the model's choice in logs 37, 51 and 54. -/
def Obligations.BeaconsAndReportsAreSent : Prop :=
  (∀ (dt k : Nat) (s : State) (n : W32) (T : Tick) (v : W16) (r : List (W16 × Nat)),
    let u := s.advance dt
    u.line.beaconStroke = some (n, T) → u.originates = true → s.line.seqs = (v, k) :: r →
      (∀ o ∈ s.line.time.planned, o.type = 2 → o.launch ≠ T ∧ o.launch ≠ u.line.clock.tb) → T ≠ u.line.clock.tb →
      ∃ t o, exec (.beaconOriginate dt) s = .next t ∧ t.line.time.planned = s.line.time.planned ++ [o]
        ∧ o.chan = s.line.time.row 11 ∧ o.type = 2 ∧ o.port = none ∧ o.launch = T ∧ o.bytes = t.line.beaconBytes s.dev.mode v n T
        ∧ hopSrc o.bytes = s.line.nodeId ∧ hopSeq o.bytes = v ∧ (∀ g ∈ s.line.time.segs, g ∈ t.line.time.segs) ∧ t.line.time.isCox = true
        ∧ ((∀ a ∈ s.line.sched.actions, a.fixed = true) → t.line.ports = s.line.ports ∧ t.line.chans = s.line.chans) ∧ t.line.clock = u.line.clock ∧ t.dev = s.dev ∧ keepsStores s t)
  ∧ (∀ (dt : Nat) (s : State) (o : OwnFrame),
    let u := s.advance dt
    u.line.dueOwn 2 (fun _ => true) = some o → u.line.beaconStroke.all (fun x => s.line.time.planned.any fun p => p.type == 2 && decide (p.launch = x.2)) = true → sized s →
      ∃ t, exec (.beaconOriginate dt) s = .next t
        ∧ (u.line.beaconRejected o = true → t.line.time.planned = s.line.time.planned.erase o ∧ t.line.relay.ctrs = countAt 5 16 1 s.line.relay.ctrs
            ∧ t.line.chans = s.line.chans ∧ ∀ p, (t.line.port p).cfg = (s.line.port p).cfg ∧ (t.line.port p).muted = (s.line.port p).muted)
        ∧ (u.line.beaconRejected o = false → startsOwn o s.dev.mode u.line → launchesOwn o s.dev.mode u.line t.line)
        ∧ t.line.time.segs = s.line.time.segs ∧ t.line.clock = u.line.clock ∧ onlyLine u t)
  ∧ (∀ (dt c : Nat) (s : State) (n : W32) (T : Tick),
    let u := s.advance dt
    let len := 31 + 12 * (u.line.reportEntries c).length
    let e := T + frameTicks (s.line.chan c).rateK 0 0 (liftRule 0 len) len
    let next := (u.line.boundary (s.line.chan c).refPort (n + 1)).getD T - s.line.time.halfCatch
    c < 256 → sized s → u.line.reportStroke c = some (n, T) → outputsActive s.dev.mode = true → s.line.nodeId ≠ 0 → (s.line.chan c).row 32 = 1 →
      (s.line.chan c).rxPort ≠ none → (s.line.chan c).entries ≠ [] → (s.line.chan c).reportAt ≠ some n → u.line.dueOwn 0 (· == c) = none →
      T ≠ u.line.clock.tb →
      ∃ t, exec (.linkReportSend dt c) s = .next t ∧ (t.line.chan c).reportAt = some n
        ∧ ((meets (u.line.busySpans c false) T e = true ∨ next ≤ e) → t.line.time.planned = s.line.time.planned
            ∧ (t.line.chan c).ctrs9 = countAt 1 16 1 (s.line.chan c).ctrs9)
        ∧ (∀ v k r, meets (u.line.busySpans c false) T e = false → e < next → s.line.seqs = (v, k) :: r →
            ∃ o, t.line.time.planned = s.line.time.planned ++ [o] ∧ o.chan = c ∧ o.type = 0 ∧ o.mod = 0 ∧ o.rate = 0 ∧ o.lift = liftRule 0 len ∧ o.launch = T
              ∧ hopSrc o.bytes = s.line.nodeId ∧ hopSeq o.bytes = v ∧ hopDest o.bytes = 0xFFFFFFFF
              ∧ t.line.links.entries = s.line.links.entries.map (fun x => if x.chan = c then { x with since := 0 } else x))
        ∧ (∀ d, d ≠ c → t.line.chan d = s.line.chan d) ∧ t.line.ports = s.line.ports ∧ t.line.clock = u.line.clock ∧ t.dev = s.dev ∧ keepsStores s t)
  ∧ (∀ (dt c : Nat) (s : State) (o : OwnFrame),
    let u := s.advance dt
    c < 256 → sized s → u.line.dueOwn 0 (· == c) = some o → (u.line.reportStroke c).all (fun x => (s.line.chan c).reportAt == some x.1) = true →
      startsOwn o s.dev.mode u.line →
      ∃ t, exec (.linkReportSend dt c) s = .next t ∧ launchesOwn o s.dev.mode u.line t.line ∧ t.line.clock = u.line.clock ∧ onlyLine u t)

/-- A time transfer: the request to the time parent is fixed, stays open and is sent; a request addressed to this node plans its reply at least 100 µs
after the request's end; the reply is sent at its instant; a matching reply gives offset and path delay, another counts as a failed transfer. It
formalises parts of R173, R174, R175. Where the specification leaves a point open it rests on the model's choice in logs 16, 35, 55 and 120. -/
def Obligations.TimeTransfersMeasureTheParent : Prop :=
  (∀ (dt c k : Nat) (s : State) (n p : W32) (T : Tick) (v : W16) (r : List (W16 × Nat)),
    let u := s.advance dt
    u.line.ttStroke = some (n, T) → s.line.time.parent = some p → outputsActive s.dev.mode = true → s.line.nodeId ≠ 0 → bitOf (s.line.time.row 0) 2 = true →
      (∀ o ∈ s.line.time.planned, o.type = 3 → o.launch ≠ T) → u.line.ttChannel p = some c → (s.line.chan c).entries ≠ [] →
      u.line.ownInCatch c (fmtOf (s.line.time.row 15)).1 T = true → s.line.seqs = (v, k) :: r → u.line.dueOwn 3 (fun _ => true) = none → T ≠ u.line.clock.tb →
      ∃ t o, exec (.timeTransferRequest dt) s = .next t ∧ t.line.time.planned = s.line.time.planned ++ [o]
        ∧ o.chan = c ∧ o.type = 3 ∧ o.port = none ∧ o.launch = T ∧ hopDest o.bytes = p ∧ hopSrc o.bytes = s.line.nodeId ∧ hopSeq o.bytes = v
        ∧ t.line.time.open_ = some { exch := s.line.time.exch, stroke := n, t1 := syncInstant T (s.line.chan c).rateK, parent := p }
        ∧ t.line.time.exch = s.line.time.exch + 1 ∧ t.line.ports = s.line.ports ∧ t.line.chans = s.line.chans ∧ t.line.clock = u.line.clock ∧ t.dev = s.dev
        ∧ keepsStores s t)
  ∧ (∀ (dt : Nat) (s : State) (o : OwnFrame),
    let u := s.advance dt
    u.line.dueOwn 3 (fun _ => true) = some o → u.line.ttStroke.all (fun x => s.line.time.planned.any fun p => p.type == 3 && decide (p.launch = x.2)) = true → sized s →
      startsOwn o s.dev.mode u.line →
      ∃ t, exec (.timeTransferRequest dt) s = .next t ∧ launchesOwn o s.dev.mode u.line t.line ∧ t.line.clock = u.line.clock ∧ onlyLine u t)
  ∧ (∀ (dt k : Nat) (s : State) (g : GoodFrame) (b : Tick) (v : W16) (r : List (W16 × Nat)),
    let u := s.advance dt
    let c := s.line.via g.chan
    let T := replyInstant b (g.frame.endAt + 150000) (symbolTicks (s.line.chan c).rateK)
    s.line.ttIn.find? (fun g => hdrType g.frame.hdr == 3) = some g → s.line.nodeId ≠ 0 → hopDest g.bytes = s.line.nodeId → hdrLen g.frame.hdr = 31 →
      nth g.bytes 16 0 = 1 → outputsActive s.dev.mode = true → s.line.time.gridBoundary (BitVec.ofNat 32 (field g.bytes 20 4)) = some b →
      (s.line.chan c).entries.any (fun e => e.2 == g.frame.port) = true → b - s.line.time.halfCatch ≤ T →
      headerEnd T (s.line.chan c).rateK (hdrMod g.frame.hdr) ≤ b + s.line.time.halfCatch → u.line.ownInCatch c (hdrMod g.frame.hdr) T = true → s.line.seqs = (v, k) :: r →
      ∃ t o, exec (.timeTransferRequestReceived dt) s = .next t ∧ t.line.ttIn = s.line.ttIn.erase g ∧ t.line.time.planned = s.line.time.planned ++ [o]
        ∧ o.chan = c ∧ o.type = 4 ∧ o.port = some g.frame.port ∧ o.launch = T ∧ g.frame.endAt + 150000 ≤ T ∧ hopDest o.bytes = hopSrc g.bytes
        ∧ hopSrc o.bytes = s.line.nodeId ∧ hopSeq o.bytes = v ∧ t.line.ports = s.line.ports ∧ t.line.chans = s.line.chans ∧ t.line.clock = u.line.clock
        ∧ t.dev = s.dev ∧ keepsStores s t)
  ∧ (∀ (dt : Nat) (s : State) (g : GoodFrame),
    let u := s.advance dt
    s.line.ttIn.find? (fun g => hdrType g.frame.hdr == 3) = some g → hopDest g.bytes ≠ s.line.nodeId →
      exec (.timeTransferRequestReceived dt) s = .next ({ u with line := { u.line with ttIn := s.line.ttIn.erase g } } : State).flush)
  ∧ (∀ (dt : Nat) (s : State) (o : OwnFrame),
    let u := s.advance dt
    u.line.dueOwn 4 (fun _ => true) = some o → sized s → startsOwn o s.dev.mode u.line →
      ∃ t, exec (.timeTransferReply dt) s = .next t ∧ launchesOwn o s.dev.mode u.line t.line ∧ t.line.clock = u.line.clock ∧ onlyLine u t)
  ∧ (∀ (dt : Nat) (s : State) (g : GoodFrame),
    let u := s.advance dt
    let b := g.bytes
    let t1 := nearTick u.line.clock.tb (field b 24 8)
    let t2 := nearTick u.line.clock.tb (field b 32 8)
    let t3 := nearTick u.line.clock.tb (field b 40 8)
    let t4 := syncInstant g.frame.launch g.frame.rateK
    let delay := roundDiv ((t4 - t1) - (t3 - t2)) 2
    s.line.ttIn.find? (fun g => hdrType g.frame.hdr == 4) = some g → s.line.nodeId ≠ 0 → hopDest b = s.line.nodeId → hdrLen g.frame.hdr = 55 → nth b 16 0 = 1 →
      ∃ t, exec (.timeTransferReplyReceived dt) s = .next t ∧ t.line.ttIn = s.line.ttIn.erase g ∧ t.line.time.open_ = none
        ∧ t.line.time.answers.head? = some { node := hopSrc b, stratum := (nth b 17 0).toNat, e := field b 48 2,
                                                 below := min 0xFFFF (hopE (field b 48 2) (s.line.chan g.chan).rateK) }
        ∧ (s.line.replyMatches g = false → t.line.time.ctrs = countAt 14 16 1 s.line.time.ctrs ∧ t.line.time.bcnDelays = s.line.time.bcnDelays
            ∧ t.line.time.source = s.line.time.source
            ∧ ((∀ a ∈ s.line.sched.actions, a.fixed = true) → t.line.ports = s.line.ports ∧ t.line.chans = s.line.chans ∧ onlyLine u t))
        ∧ (s.line.replyMatches g = true → t.line.time.bcnDelays = (delay :: s.line.time.bcnDelays).take 8)
        ∧ (s.line.replyMatches g = true → delayRejected s.line.time.bcnDelays delay = false → s.link.line.up = true → (u.line.noteAnswer g).time.parent = some (hopSrc b) →
            t.line.time.bcnOffset = roundDiv ((t2 - t1) - (t4 - t3)) 2)
        ∧ keepsStores s t)

/-! ## Reception -/

/-- A candidate that the acquisition declares takes a free context, displaces a weaker uncommitted one or is dropped, each counted; a header whose
codeword has an engine and passes commits a frame, one that fails goes on to the next hypothesis or frees its context, and one whose decoding goes on
keeps it; the header codeword of a displaced candidate stays in the array, and counts when it ends; at its end a committed frame frees its context,
and its codewords enter the decoder array. It formalises parts of R201, R202, R204. Where the specification leaves a point open it rests on the
model's choice in logs 4, 50, 83, 90, 92, 99, 108, 112, 113, 121 and 126. -/
def Obligations.CandidatesAndHeadersRunTheContexts : Prop :=
  (∀ (dt c : Nat) (y : SyncCand) (s : State),
    let u := s.advance dt
    let v := u.line.framesEnded c
    let x := v.chan c
    let k := lockOf y
    let ctx := Ctx.cand k u.line.clock.tb (hypotheses (x.row 3)) [] []
    c < 256 → sized s → u.line.maySearch s.dev.mode c = true → u.line.declares c y = true →
      ∃ t, exec (.syncCandidate dt c y) s = .next t
        ∧ (x.contextFor u.line.clock.tb k.square = none → t.line.chan c = { (x.countRx 0 1).countRx 2 1 with ended := (t.line.chan c).ended })
        ∧ (∀ i, x.contextFor u.line.clock.tb k.square = some (i, none) →
            t.line.chan c = { x.countRx 0 1 with ctx := x.ctx.set i (some ctx), ended := (t.line.chan c).ended } ∧ t.line.headers = v.headers)
        ∧ (∀ i n, x.contextFor u.line.clock.tb k.square = some (i, some n) →
            t.line.chan c = { ({ x.countRx 0 1 with ctx := x.ctx.set i (some ctx) } : Chan).countRx n 1 with ended := (t.line.chan c).ended }
            ∧ t.line.headers = v.headers ++ (x.headerWord u.line.clock.tb c i).toList)
        ∧ (∀ d, d ≠ c → t.line.chan d = s.line.chan d) ∧ t.line.jobs = v.jobs
        ∧ t.line.ports = s.line.ports ∧ t.line.time = s.line.time ∧ t.line.sched = s.line.sched ∧ onlyLine u t)
  ∧ (∀ (dt c : Nat) (y : SyncCand) (s : State),
    let u := s.advance dt
    (u.line.maySearch s.dev.mode c && u.line.declares c y) = false → exec (.syncCandidate dt c y) s = .next u.flush)
  ∧ (∀ (dt c i r : Nat) (y : HeaderObs) (k : Lock) (d : Tick) (todo : List Nat) (ss : List Cx) (soft : List Soft) (s : State),
    let u := s.advance dt
    let l := u.line.noteClips y.rx.clips
    let x := s.line.chan c
    let now := u.line.clock.tb
    let syms := (ss ++ y.rx.symbols).take (receivedBy x.rateK k.launch now)
    let z := (l.chan c).headerStream now k syms r
    let soft' := z.headerSoft (z.found x.cfg) r
    let on (todo : List Nat) : Option Ctx := if todo = [] then none else some (.cand k d todo syms soft')
    c < 256 → sized s → nth x.ctx i none = some (.cand k d (r :: todo) ss soft) → k.launch + ((headerDone r * symbolTicks x.rateK : Nat) : Int) ≤ now →
      (∀ h ∈ s.line.headers, h.chan ≠ c ∨ h.ctx ≠ i) → (∀ h, x.headerWord now c i = some h → u.line.headerServed h = true) →
      ∃ t, exec (.headerTest dt c i y) s = .next t
        ∧ (decodeFrom 0 0 soft' 12 true 1 [] y.iters = none →
            (t.line.chan c).ctx = x.ctx.set i (some (.cand k d (r :: todo) syms soft')) ∧ (t.line.chan c).frames = x.frames ∧ (t.line.chan c).ctrs6 = x.ctrs6)
        ∧ (∀ bits st n, decodeFrom 0 0 soft' 12 true 1 [] y.iters = some (bits, st, n) → st ≠ 0 →
            (t.line.chan c).ctx = x.ctx.set i (on todo) ∧ (t.line.chan c).frames = x.frames ∧ (t.line.chan c).ctrs6 = countAt 0 32 1 x.ctrs6)
        ∧ (∀ bits n, decodeFrom 0 0 soft' 12 true 1 [] y.iters = some (bits, 0, n) →
            let h := bitsNat (bits.take 64)
            (t.line.chan c).ctrs6 = countAt 1 32 1 (countAt 0 32 1 x.ctrs6)
            ∧ (headerCheck s.line.netId h ≠ h % 65536 → (t.line.chan c).ctx = x.ctx.set i (on todo) ∧ (t.line.chan c).frames = x.frames)
            ∧ (headerCheck s.line.netId h = h % 65536 → modAgrees (hdrMod h) r = false →
                (t.line.chan c).ctx = x.ctx.set i (on (if r = 1 then [repeats (hdrMod h)] else todo)) ∧ (t.line.chan c).frames = x.frames)
            ∧ (∀ p, x.rxPort = some p → headerCheck s.line.netId h = h % 65536 → modAgrees (hdrMod h) r = true →
                headerReserved h = false → tooLong x.rateK (hdrMod h) (hdrRate h) (hdrLift h) (hdrLen h) = false →
                (t.line.chan c).rxCount = x.rxCount + 1
                ∧ ∃ f ∈ (t.line.chan c).frames, f.rxId = x.rxCount + 1 ∧ f.hdr = h ∧ f.rep = r ∧ f.port = p ∧ f.launch = k.launch - (s.line.port p).row 4
                    ∧ f.endAt = frameEnd f.launch x.rateK (frameSymbols (hdrMod h) (hdrRate h) (hdrLift h) (hdrLen h)) ∧ f.lock = k ∧ f.syms = syms
                    ∧ (t.line.chan c).ctx = x.ctx.set i (some (.committed f.rxId (f.endAt + (s.line.port p).row 4))))
            ∧ (headerCheck s.line.netId h = h % 65536 → modAgrees (hdrMod h) r = true →
                (headerReserved h || tooLong x.rateK (hdrMod h) (hdrRate h) (hdrLift h) (hdrLen h)) = true → x.rxPort ≠ none →
                (t.line.chan c).ctx = x.ctx.set i none ∧ (t.line.chan c).frames = x.frames ∧ (t.line.chan c).rxCount = x.rxCount))
        ∧ (t.line.chan c).place = x.place ∧ (t.line.chan c).cfg = x.cfg ∧ (∀ d, d ≠ c → t.line.chan d = l.chan d)
        ∧ t.line.time = s.line.time ∧ t.line.sched = s.line.sched ∧ onlyLine u t)
  ∧ (∀ (dt c i : Nat) (y : HeaderObs) (h : HeaderWord) (s : State),
    let u := s.advance dt
    let x := s.line.chan c
    let z := h.stream y.rx.symbols
    c < 256 → sized s → s.line.headers.find? (fun h => h.chan == c && h.ctx == i) = some h → (u.line.noteClips y.rx.clips).headerServed h = true →
      ∃ t, exec (.headerTest dt c i y) s = .next t
        ∧ (∀ bits st n, decodeFrom 0 0 (z.headerSoft (z.found h.cfg) h.rep) 12 true 1 [] y.iters = some (bits, st, n) →
            t.line.headers = s.line.headers.erase h ∧ (t.line.chan c).ctrs6 = countAt 1 32 (if st = 0 then 1 else 0) (countAt 0 32 1 x.ctrs6))
        ∧ (decodeFrom 0 0 (z.headerSoft (z.found h.cfg) h.rep) 12 true 1 [] y.iters = none → t.line.headers = s.line.headers ∧ (t.line.chan c).ctrs6 = x.ctrs6)
        ∧ (t.line.chan c).ctx = x.ctx ∧ (t.line.chan c).frames = x.frames ∧ (t.line.chan c).rxCount = x.rxCount
        ∧ t.line.time = s.line.time ∧ t.line.sched = s.line.sched ∧ onlyLine u t)
  ∧ (∀ (dt c i : Nat) (y : HeaderObs) (s : State),
    let u := s.advance dt
    (∀ h ∈ s.line.headers, h.chan ≠ c ∨ h.ctx ≠ i) → (∀ h, (s.line.chan c).headerWord u.line.clock.tb c i = some h → u.line.headerServed h = false) →
      exec (.headerTest dt c i y) s = .next (u.onLine fun l => l.observe? c i y.rx))
  ∧ (∀ (dt c i : Nat) (rx : RxObs) (r : W16) (e : Tick) (s : State),
    let u := s.advance dt
    let v := u.line.observe? c i rx
    c < 256 → sized s → nth (s.line.chan c).ctx i none = some (.committed r e) →
      (u.line.clock.tb < e → exec (.committedFrameEnd dt c ⟨i, rx⟩) s = .next (u.onLine fun l => l.observe? c i rx))
      ∧ (e ≤ u.line.clock.tb →
        ∃ t, exec (.committedFrameEnd dt c ⟨i, rx⟩) s = .next t ∧ (t.line.chan c).ctx = (s.line.chan c).ctx.set i none
          ∧ (∀ f, v.frame? c r = some f → ∀ j, j < f.count →
              ∃ q ∈ t.line.jobs, q.chan = c ∧ q.rxId = r ∧ q.index = j ∧ q.cls = f.cls ∧ q.endAt = f.endAt ∧ q.soft.length = codeBits (hdrLift f.hdr))
          ∧ (t.line.chan c).frames.map (·.rxId) = (v.chan c).frames.map (·.rxId) ∧ (∀ d, d ≠ c → t.line.chan d = v.chan d) ∧ t.line.ports = v.ports
          ∧ t.line.time = s.line.time ∧ t.line.sched = s.line.sched ∧ onlyLine u t))

/-- The symbols that a wash row brings are kept, a committed frame is watched for washes, each counted, and a candidate keeps them for its commit; the
decoder array serves TYPE 0 last and no more codewords than it has engines; a codeword that ends is kept and counted, and with the last one the frame
is over: its check sends it to the relay engine or not; one whose decoding goes on, or that has no engine, changes nothing; a passage through a phase
bin averages its cells into its slot alone. It formalises parts of R50, R188, R190, R210, R211, R253, R254, R258. Where the specification leaves a
point open it rests on the model's choice in logs 4, 48, 83, 90, 92, 98, 104, 108, 113, 121, 123, 124 and 125. -/
def Obligations.WashesCodewordsAndNoiseAreKept : Prop :=
  (∀ (dt c i : Nat) (rx : RxObs) (r : W16) (e : Tick) (f : RxFrame) (s : State),
    let u := s.advance dt
    let x := s.line.chan c
    let l := u.line.noteClips rx.clips
    let syms := (f.syms ++ rx.symbols).take (min (f.total - 320) (receivedBy f.rateK f.lock.launch u.line.clock.tb))
    let runs := (({ f with syms := syms } : RxFrame).stream ((l.chan c).marked u.line.clock.tb)).found f.cfg
    let fresh := runs.length - f.spans.length
    c < 256 → sized s → nth x.ctx i none = some (.committed r e) → s.line.frame? c r = some f →
      ∃ t g, exec (.wash dt c i rx) s = .next t ∧ t.line.frame? c r = some g ∧ g.syms = syms ∧ g.hdr = f.hdr ∧ g.cws = f.cws ∧ g.endAt = f.endAt
        ∧ g.washes = min 65535 (f.washes + fresh) ∧ (t.line.chan c).ctrs7 = countAt 14 32 fresh x.ctrs7
        ∧ g.spans.map (fun p => (p.first, p.last, p.rest, p.kind))
            = runs.map (fun p => let q := f.spanOf p false; (q.first, q.last, q.rest, q.kind))
        ∧ (t.line.chan c).ctx = x.ctx ∧ (∀ d, d ≠ c → t.line.chan d = l.chan d) ∧ t.line.ports = l.ports ∧ t.line.time = s.line.time ∧ onlyLine u t)
  ∧ (∀ (dt c i : Nat) (rx : RxObs) (k : Lock) (d : Tick) (todo : List Nat) (ss : List Cx) (soft : List Soft) (s : State),
    let u := s.advance dt
    let l := u.line.noteClips rx.clips
    let x := l.chan c
    c < 256 → sized s → nth (s.line.chan c).ctx i none = some (.cand k d todo ss soft) →
      ∃ t, exec (.wash dt c i rx) s = .next t
        ∧ t.line.chan c = { x with ctx := x.ctx.set i (some (.cand k d todo ((ss ++ rx.symbols).take (receivedBy x.rateK k.launch u.line.clock.tb)) soft)) }
        ∧ (∀ d, d ≠ c → t.line.chan d = l.chan d) ∧ t.line.ports = l.ports ∧ t.line.time = s.line.time ∧ onlyLine u t)
  ∧ (∀ l : Line, (l.assign.jobs.filter (·.engine)).length ≤ l.engines ∧ l.engines ≤ 24
    ∧ (∀ j ∈ l.assign.jobs, ∀ k ∈ l.assign.jobs, j.cls = 3 → j.engine = true → k.cls = 2 → k.engine = true)
    ∧ (∀ j ∈ l.jobs, j.cls = 2 ∨ j.cls = 3 → ∃ k ∈ l.assign.jobs, k = { j with engine := k.engine })
    ∧ { l.assign with jobs := l.jobs } = l)
  ∧ (∀ (dt c : Nat) (r : W16) (y : CodewordObs) (f : RxFrame) (j : Job) (e : Bits × Nat × Nat) (s : State),
    let u := s.advance dt
    let a := u.line.assign
    let x := s.line.chan c
    let cw := f.cwEnd (x.marked u.line.clock.tb) y.index e
    let cws := f.cws.set y.index (some cw)
    let string := decodedString f.hdr (cws.map fun x => (x.map (·.bits)).getD (List.replicate (codeBits (hdrLift f.hdr)) false))
    let bytes := string.take f.len
    let check := BitVec.ofNat 32 (beNat ((string.drop f.len).take 4))
    let valid := decide (frameCheck (hopDest bytes) (hopSeq bytes) bytes = check)
    let good := valid && !hopReject (hdrType f.hdr) (hopK bytes) (hopFlood bytes)
    let settled : Prop := s.dev.mode = .island ∨ bestRank u.line.candidates = s.line.time.cox
    c < 256 → sized s → s.line.frame? c r = some f → a.jobs.find? (fun j => j.chan == c && j.rxId == r && j.index == y.index && j.engine) = some j →
      a.wordEnds f j y.iters = some e →
      ∃ t, exec (.codewordEnd dt c r y) s = .next t
        ∧ (∀ k ∈ t.line.jobs, k.chan ≠ c ∨ k.rxId ≠ r ∨ k.index ≠ y.index)
        ∧ (cws.all Option.isSome = false → (t.line.chan c).ctrs6 = countAt 7 32 e.2.2 (countAt (3 + e.2.1) 32 1 (countAt 2 32 1 x.ctrs6))
            ∧ t.line.relay.inbox = s.line.relay.inbox
            ∧ ∃ g ∈ (t.line.chan c).frames, g.rxId = r ∧ g.cws = cws ∧ g.hdr = f.hdr ∧ g.launch = f.launch ∧ g.snr = f.snr ∧ g.evm = f.evm)
        ∧ (cws.all Option.isSome = true → (t.line.chan c).frames.filter (fun g => g.rxId == r) = [] ∧ (t.line.chan c).lastEnd = max x.lastEnd f.endAt
            ∧ (good = true → ∃ g : GoodFrame, t.line.relay.inbox = s.line.relay.inbox ++ [g] ∧ g.chan = c ∧ g.bytes = bytes ∧ g.check = check)
            ∧ (good = false → t.line.relay.inbox = s.line.relay.inbox)
            ∧ (valid = true → hdrType f.hdr = 2 → t.line.time.ctrs = countAt 12 32 1 s.line.time.ctrs))
        ∧ (t.line.chan c).ctx = x.ctx ∧ (t.line.chan c).place = x.place ∧ (∀ d, d ≠ c → (t.line.chan d).frames = (s.line.chan d).frames)
        ∧ ((∀ a ∈ s.line.sched.actions, a.fixed = true) → t.line.ports = s.line.ports)
        ∧ (settled → (cws.all Option.isSome = true → good = false) →
            t.line.ports = s.line.ports ∧ t.line.time.segs = s.line.time.segs ∧ (hdrType f.hdr ≠ 2 → t.line.time = s.line.time))
        ∧ t.dev = s.dev ∧ keepsStores s t)
  ∧ (∀ (dt c : Nat) (r : W16) (y : CodewordObs) (s : State),
    let u := s.advance dt
    let a := u.line.assign
    (∀ f j, s.line.frame? c r = some f → a.jobs.find? (fun j => j.chan == c && j.rxId == r && j.index == y.index && j.engine) = some j →
      a.wordEnds f j y.iters = none) →
      exec (.codewordEnd dt c r y) s = .next (State.elect { u with line := a }).flush)
  ∧ (∀ (dt p phase : Nat) (cells : List (Nat × Nat)) (clips : List ClipSample) (s : State),
    let u := s.advance dt
    let l := u.line.noteClips clips
    ∃ t, exec (.noiseMapObservation dt p phase ⟨cells, clips⟩) s = .next t
      ∧ (∀ key, key / 32768 ≠ (s.line.port p).mapSlot → t.line.maps.lookup key = s.line.maps.lookup key)
      ∧ (l.passageEnds p phase = false → t.line.maps = s.line.maps)
      ∧ (∀ f v, cells = [(f, v)] → f < 128 → l.passageEnds p phase = true → l.mayObserve s.dev.mode p f = true →
          t.line.cellPower p phase f = some (match s.line.maps.lookup (cellKey (s.line.port p).mapSlot phase f) with
            | none => (v : Rat) / 2 ^ 64
            | some h => h + ((v : Rat) / 2 ^ 64 - h) / 2 ^ (s.line.port p).mapAvg))
      ∧ (∀ f v, cells = [(f, v)] → l.mayObserve s.dev.mode p f = false → t.line.maps = s.line.maps)
      ∧ t.line.ports = l.ports ∧ t.line.chans = l.chans ∧ t.line.time = s.line.time ∧ t.line.sched = s.line.sched ∧ onlyLine u t)

/-! ## The relay engine -/

/-- The oldest GOOD frame is taken up while the barrier is up: a duplicate goes no further and withdraws its pending legs, any other enters the cache,
teaches the distance of its SRC and is handed on and delivered; its record waits while a candidate may still meet it (R203, log 73). A frame that
meets the flood rule, or that of a unicast candidate, makes one copy with one hop less to go and one more counted: a flood FLOOD_K strokes on at the
offset heard, a leg in the slot of its distance and quality. It formalises parts of R274. Where the specification leaves a point open it rests on the
model's choice in logs 49, 51, 73 and 75. -/
def Obligations.ReceivedFramesAreTakenUpAndCopiedOnce : Prop :=
  (∀ (dt : Nat) (s : State) (g : GoodFrame) (r : List GoodFrame),
    let u := s.advance dt
    let src := hopSrc g.bytes
    let seq := hopSeq g.bytes
    let type := hdrType g.frame.hdr
    let again := decide (src = s.line.nodeId) || s.line.isDup src seq
    s.line.relay.inbox = g :: r →
      (s.line.down = true → exec (.relayEngineTakeUp dt) s = .next u.flush)
      ∧ (s.line.down = false → ∃ t, exec (.relayEngineTakeUp dt) s = .next t ∧ t.line.relay.inbox = r
          ∧ (again = true → t.line.relay.dups = s.line.relay.dups ∧ t.line.relay.hops = s.line.relay.hops ∧ t.line.links.inbox = s.line.links.inbox
              ∧ t.line.beacons = s.line.beacons ∧ t.line.ttIn = s.line.ttIn
              ∧ ∀ k ∈ t.line.relay.copies, k ∈ s.line.relay.copies ∧ ¬ (k.type = 0 ∧ k.src = src ∧ k.seq = seq ∧ u.line.clock.tb < k.launch))
          ∧ (again = false → type ≤ 2 → t.line.isDup src seq = true)
          ∧ (again = false → type ≤ 2 → hopCount g.bytes < 254 →
              ∀ e, s.line.hop? src = some e → e.static = false →
                t.line.hop? src = some { e with hops := if type = 0 then min e.hops (hopCount g.bytes + 1) else hopCount g.bytes + 1, updated := u.line.clock.tb })
          ∧ (again = false → type = 0 → hopDest g.bytes = 0xFFFFFFFF → hopToGo g.bytes = 0 → t.line.links.inbox = s.line.links.inbox ++ [g])
          ∧ (again = false → type = 2 → t.line.beacons = s.line.beacons ++ [g])
          ∧ (again = false → 3 ≤ type → t.line.ttIn = s.line.ttIn ++ [g])
          ∧ (again = false → s.line.delivers g = true → g.frame.closed = false → s.link.line.up = true →
              (∀ e ∈ (s.line.chan g.chan).ended, e.frame.rxId ≠ g.frame.rxId) →
              ∃ f, Msg.frameUp f ∈ t.link.line.flight.map (·.msg) ∧ f.kind = 1 ∧ f.chan = g.chan ∧ f.rxId = g.frame.rxId ∧ f.status = 0)
          ∧ (again = false → s.line.delivers g = true → g.frame.closed = false → g.chan < 256 → sized s →
              ∀ e ∈ (s.line.chan g.chan).ended, e.frame.rxId = g.frame.rxId →
                ({ e with owed := some ⟨0, decide (g.frame.segs > 0), g.bytes, g.check⟩ } : EndedFrame) ∈ (t.line.chan g.chan).ended)
          ∧ t.line.time = s.line.time ∧ t.line.sched = s.line.sched ∧ t.line.clock = u.line.clock ∧ onlyLine u t))
  ∧ (∀ (dt : Nat) (s : State) (g : GoodFrame) (r : List GoodFrame),
    let u := s.advance dt
    let l := u.line
    let b := g.bytes
    let f := g.frame
    let type := hdrType f.hdr
    let m := l.learn type (hopSrc b) (hopCount b + 1)
    let room (k : Copy) := l.relay.copies.length < 1024 ∧ poolFits u.poolUse (poolSize (k.len + 1)) = true
    s.line.relay.inbox = g :: r → s.line.down = false → s.line.retracts g = false → hopSrc b ≠ s.line.nodeId → s.line.isDup (hopSrc b) (hopSeq b) = false → s.line.nodeId ≠ 0 →
      hopDest b ≠ s.line.nodeId → hopToGo b ≠ 0 → hopCount b ≠ 255 → f.unconv = false →
      (∀ k ∈ s.line.relay.copies, ¬ (k.type = 0 ∧ k.src = hopSrc b ∧ k.seq = hopSeq b)) →
      (∀ grp, l.groupOf type (hopFlood b) = some grp → ∀ n, l.launchStroke f.port f.launch = some n →
        ∀ k, l.floodCopy g grp n ((l.boundary f.port n).getD 0) = some k →
        (type = 1 ∨ type = 2) → grp.relay = true → s.dev.relaysFloods = true → (l.port f.port).srcNow = 0 →
        (if hopDest b = 0xFFFFFFFF then 0 else ((m.hop? (hopDest b)).map (·.hops)).getD 0) < hopToGo b → grp.floor * 128 ≤ toSigned 16 f.snr.toNat →
        (type = 2 → l.beaconRelays g n = (true, false)) →
        l.crewFails s.dev (if type = 2 then (parseBeacon l.clock.tb (hdrLen f.hdr) b).segs else l.time.held) k ++ l.copyFails k = [] → room k →
        ∃ t, exec (.relayEngineTakeUp dt) s = .next t ∧ t.line.relay.copies = s.line.relay.copies ++ [{ k with id := s.line.relay.nextId }]
          ∧ k.type = type ∧ k.chan = s.line.via g.chan ∧ k.htg + 1 = hopToGo b ∧ k.hc = hopCount b + 1 ∧ k.stroke = strokeAdd n (hopK b) ∧ k.resident = none)
      ∧ (∀ e, m.hop? (hopDest b) = some e → type = 0 → hopDest b ≠ 0xFFFFFFFF → s.line.relay.ucRelay = true → s.dev.relaysLegs = true → e.hops < hopToGo b →
        l.relay.ucFloor * 128 ≤ toSigned 16 f.snr.toNat → l.copyFails (l.legCopy g e.hops) = [] → room (l.legCopy g e.hops) →
        ∃ t k, exec (.relayEngineTakeUp dt) s = .next t ∧ t.line.relay.copies = s.line.relay.copies ++ [k] ∧ k.id = s.line.relay.nextId ∧ k.type = 0
          ∧ k.htg = e.hops ∧ k.hc = hopCount b + 1 ∧ f.endAt + 750000 ≤ k.launch ∧ k.dest = hopDest b ∧ k.src = hopSrc b ∧ k.seq = hopSeq b))

/-- A staged copy that agrees with its check is resident with its hop header written, one that does not is dropped; a crew copy that no longer meets its
conditions 1 ms ahead, and one not resident 40 µs ahead, is dropped with its cause; at its instant a resident copy goes on air. It formalises parts of
R283, R289, R290. Where the specification leaves a point open it rests on the model's choice in logs 51 and 105. -/
def Obligations.CopiesAreCheckedAndLaunched : Prop :=
  (∀ (dt id : Nat) (staged : List Byte) (s : State) (k : Copy),
    let u := s.advance dt
    let good := decide (staged.length = k.len + 1) && decide (frameCheck k.dest k.seq staged = k.check)
    s.line.copy? id = some k → k.resident = none →
      ∃ t, exec (.relayStageCheck dt id staged) s = .next t
        ∧ (good = true → t.line.copy? id = some { k with resident := some (withCheck k.dest k.seq ((staged.set 10 (BitVec.ofNat 8 k.htg)).set 11 (BitVec.ofNat 8 k.hc))) }
            ∧ t.line.relay.drops = s.line.relay.drops)
        ∧ (good = false → t.line.copy? id = none ∧ t.line.relay.drops = countAt 11 16 1 s.line.relay.drops)
        ∧ (∀ j, j ≠ id → t.line.copy? j = s.line.copy? j) ∧ t.line.chans = s.line.chans ∧ t.line.time = s.line.time ∧ t.line.sched = s.line.sched ∧ onlyLine u t)
  ∧ (∀ (dt id : Nat) (s : State) (k : Copy),
    let u := s.advance dt
    s.line.copy? id = some k → k.type ≠ 0 → k.launch - 1500000 ≤ u.line.clock.tb →
      ∃ t, exec (.relayFixCheck dt id) s = .next t
        ∧ (u.line.crewFails s.dev s.line.time.held k = [] → t = u.flush)
        ∧ (∀ cause, lowest (u.line.crewFails s.dev s.line.time.held k) = some cause →
            t.line.copy? id = none ∧ t.line.relay.drops = countAt (cause - 1) 16 1 s.line.relay.drops)
        ∧ (∀ j, j ≠ id → t.line.copy? j = s.line.copy? j) ∧ t.line.chans = s.line.chans ∧ t.line.time = s.line.time ∧ t.line.sched = s.line.sched ∧ onlyLine u t)
  ∧ (∀ (dt id : Nat) (s : State) (k : Copy),
    let u := s.advance dt
    s.line.copy? id = some k → k.launch - 60000 ≤ u.line.clock.tb →
      ∃ t, exec (.relayResidencyCheck dt id) s = .next t
        ∧ (k.resident ≠ none → t = u.flush)
        ∧ (k.resident = none → t.line.copy? id = none ∧ t.line.relay.drops = countAt 0 16 1 s.line.relay.drops)
        ∧ (∀ j, j ≠ id → t.line.copy? j = s.line.copy? j) ∧ t.line.chans = s.line.chans ∧ t.line.time = s.line.time ∧ t.line.sched = s.line.sched ∧ onlyLine u t)
  ∧ (∀ (dt id : Nat) (leg : Bool) (s : State) (k : Copy) (bytes : List Byte),
    let u := s.advance dt
    let c := k.chan
    let h := k.hdr
    let hdr := if leg then makeHeader s.line.netId 0 (hdrMod h) (hdrRate h) (hdrLift h) (hdrLen h) (hdrSeed h)
      (s.line.unicastTxb c ((s.line.chan c).row 20)) (hdrSec h) else relayHeader s.line.netId h
    s.line.copy? id = some k → leg = decide (k.type = 0) → k.launch = u.line.clock.tb → s.line.ready = true → k.resident = some bytes → c < 256 → sized s →
      (s.line.chan c).onAir = none → u.line.classWaits c = false → tooLong (s.line.chan c).rateK (hdrMod h) (hdrRate h) (hdrLift h) k.len = false →
      s.line.viaOk c k.rx = true → u.line.hostRival k = false → u.line.reportOver c k.launch (k.launch + u.line.copyTicks k) = none →
      (u.line.airEntries s.dev.mode c ((s.line.chan c).row 20) none).any (·.started) = true →
      ∃ t o, exec (if leg then .unicastLegLaunch dt id else .relayLaunch dt id) s = .next t ∧ (t.line.chan c).onAir = some o
        ∧ o.kind = .relay k ∧ o.hdr = hdr ∧ o.bytes = bytes ∧ o.launch = k.launch ∧ o.entries = u.line.airEntries s.dev.mode c ((s.line.chan c).row 20) none ∧ o.epoch = (s.line.chan c).epoch
        ∧ t.line.copy? id = none ∧ t.line.relay.ctrs = countAt (if k.type = 0 then 8 else if k.type = 1 then 6 else 7) 32 1 s.line.relay.ctrs
        ∧ (∀ d, d ≠ c → (t.line.chan d).onAir = (s.line.chan d).onAir) ∧ t.line.time = s.line.time ∧ t.line.sched = s.line.sched ∧ onlyLine u t)

/-! ## The link and hop tables -/

/-- A valid report is kept in the entry of its sender, a false one is counted; an entry not heard for LINK_AGE strokes is STALE and goes after four times
as many, and the time parent is one that the table holds; a verdict decays; a learned distance goes after HOP_AGE. It formalises parts of R50, R64,
R257, R264, R270, R276. Where the specification leaves a point open it rests on the model's choice in logs 44, 46, 79, 101, 127 and 128. -/
def Obligations.ReportsAndAgesKeepTheTables : Prop :=
  (∀ (dt : Nat) (s : State) (g : GoodFrame) (r : List GoodFrame),
    let u := s.advance dt
    let c := g.chan
    let b := g.bytes
    let ok := reportOk (s.line.chan c).rateK (hdrLen g.frame.hdr) b
    s.line.links.inbox = g :: r → c < 256 → sized s →
      ∃ t, exec (.linkReportReceived dt) s = .next t ∧ t.line.links.inbox = r
        ∧ (ok = false → t.line.links.entries = s.line.links.entries ∧ (t.line.chan c).ctrs9 = countAt 3 16 1 (s.line.chan c).ctrs9)
        ∧ (ok = true → s.line.entry? c (hopSrc b) = none → t.line.links.entries = s.line.links.entries
            ∧ (t.line.chan c).ctrs9 = countAt 2 32 1 (s.line.chan c).ctrs9)
        ∧ (∀ e, s.line.entry? c (hopSrc b) = some e → ok = true →
            (∃ e', t.line.entry? c (hopSrc b) = some e' ∧ e'.index = e.index ∧ e'.hyp = (nth b 17 0).toNat % 8
              ∧ e'.profile = ((b.drop 24).take 8).map (·.toNat) ∧ e'.report = (reportAbout s.line.nodeId (u.line.rxStroke c) b).or e.report
              ∧ e'.snr = e.snr ∧ e'.evm = e.evm ∧ e'.pin = e.pin ∧ e'.offset = e.offset)
            ∧ ∀ x ∈ s.line.links.entries, x.index ≠ e.index → x ∈ t.line.links.entries)
        ∧ (∀ d, d ≠ c → (t.line.chan d).place = (s.line.chan d).place ∧ (t.line.chan d).frames = (s.line.chan d).frames) ∧ t.line.ports = s.line.ports
        ∧ t.line.time = s.line.time ∧ t.line.sched = s.line.sched ∧ t.dev = s.dev ∧ keepsStores s t)
  ∧ (∀ (dt i : Nat) (s : State) (e : LinkEntry),
    let u := s.advance dt
    let age := strokeDist e.heardStroke (u.line.rxStroke e.chan)
    s.line.links.entries.find? (fun e => e.index == i) = some e →
      ∃ t, exec (.linkAgeExpiry dt i) s = .next t
        ∧ ((e.stale = true ∨ age < s.line.linkAge) → t = u.flush)
        ∧ (e.stale = false → s.line.linkAge ≤ age → t.line.links.entries = s.line.links.entries.map (fun x => if x.index = i then { x with stale := true } else x)
            ∧ epochOfIndex t.line.links.epochs i = epochOfIndex s.line.links.epochs i + 1)
        ∧ t.line.ports = s.line.ports ∧ t.line.chans = s.line.chans ∧ t.line.time = s.line.time ∧ t.line.sched = s.line.sched ∧ onlyLine u t)
  ∧ (∀ (dt i : Nat) (s : State) (e : LinkEntry),
    let u := s.advance dt
    let age := strokeDist e.heardStroke (u.line.rxStroke e.chan)
    s.line.links.entries.find? (fun e => e.index == i) = some e →
      ∃ t, exec (.linkRemoval dt i) s = .next t
        ∧ (age < 4 * s.line.linkAge → t = (State.elect u).flush)
        ∧ (4 * s.line.linkAge ≤ age → t.line.links.entries = s.line.links.entries.filter (fun x => x.index != i)
            ∧ epochOfIndex t.line.links.epochs i = epochOfIndex s.line.links.epochs i + 1
            ∧ (∀ p, t.line.time.parent = some p → ∃ x ∈ t.line.links.entries, x.node = p))
        ∧ t.line.time.answers = s.line.time.answers ∧ t.line.time.source = s.line.time.source ∧ t.line.clock = u.line.clock ∧ t.dev = s.dev ∧ keepsStores s t
        ∧ ((∀ a ∈ s.line.sched.actions, a.fixed = true) → t.line.ports = s.line.ports ∧ t.line.chans = s.line.chans ∧ t.line.sched = s.line.sched ∧ onlyLine u t))
  ∧ (∀ (dt i : Nat) (s : State) (e : LinkEntry),
    let u := s.advance dt
    let now := u.line.rxStroke e.chan
    s.line.links.entries.find? (fun e => e.index == i) = some e → e.offset ≠ 0 → (((s.line.chan e.chan).row 30 : Nat) : Int) ≤ strokeDist e.offsetAt now →
      ∃ t e', exec (.verdictDecay dt i) s = .next t ∧ t.line.links.entries.find? (fun e => e.index == i) = some e' ∧ e'.offset + 1 = e.offset ∧ e'.offsetAt = now
        ∧ e'.snr = e.snr ∧ e'.evm = e.evm ∧ e'.report = e.report ∧ e'.pin = e.pin ∧ (∀ x ∈ s.line.links.entries, x.index ≠ i → x ∈ t.line.links.entries)
        ∧ t.line.ports = s.line.ports ∧ t.line.time = s.line.time ∧ t.line.sched = s.line.sched ∧ t.dev = s.dev ∧ keepsStores s t)
  ∧ (∀ (dt i : Nat) (s : State) (e : HopEntry),
    let u := s.advance dt
    let spent := !e.static && decide (((s.line.relay.hopAge * 1500000000 : Nat) : Int) ≤ u.line.clock.tb - e.updated)
    s.line.relay.hops.find? (fun e => e.index == i) = some e →
      ∃ t, exec (.hopAgeExpiry dt i) s = .next t
        ∧ (spent = false → t = u.flush)
        ∧ (spent = true → t.line.relay.hops = s.line.relay.hops.filter (fun x => x.index != i)
            ∧ epochOfIndex t.line.relay.epochs i = epochOfIndex s.line.relay.epochs i + 1)
        ∧ t.line.ports = s.line.ports ∧ t.line.chans = s.line.chans ∧ t.line.time = s.line.time ∧ t.line.sched = s.line.sched ∧ onlyLine u t)

/-! ## Serial ports -/

/-- A falling edge fixes the format of its character and stops the timeout; the character, read by the majority of three samples of each bit or by its
pulses, enters the buffer with its edge and starts the timeout anew, or is lost when 64 wait; a false start leaves no character; a low of two
character times is a break, one of STUCK_TIME a stuck line, and a high of one character time ends both. While the test port stops the host links
nothing comes in. It formalises parts of R366, R382, R383. Where the specification leaves a point open it rests on the model's choice in logs 4, 100
and 136. -/
def Obligations.SerialCharactersAreReceived : Prop :=
  (∀ (dt n : Nat) (o : EdgeObs) (s : State),
    let u := s.advance dt
    let p := s.host.sp n
    let q (t : State) := t.host.sp n
    let low := s.dev.rung = .moored ∨ s.dev.rung = .ashore
    n < 8 → sized s → s.linksStopped = false → o.port = n →
      (edgeFalls o p.ctrl = false → exec (.serialStartEdge dt o) s = .next (u.onHost (HostSide.modSp n fun p => { p with rxd := rxLevel p.ctrl o.after })))
      ∧ (edgeFalls o p.ctrl = true → p.begins n = true →
        ∃ t, exec (.serialStartEdge dt o) s = .next t ∧ (q t).edge = some u.host.follower ∧ (q t).lowSince = some u.host.follower
          ∧ (q t).edgeFormat = (p.ctrl, p.rate) ∧ (q t).rxd = rxLevel p.ctrl o.after
          ∧ (∀ x, p.timeout = some x → u.host.follower ≤ x → (q t).timeout = none ∧ (q t).stoppedTimeout = some x)
          ∧ (low → s.dev.wakeMask.getLsbD n = true → (q t).wakePending = some s.dev.rung ∧ t.dev.exit ≠ none)
          ∧ (s.dev.rung = .row → t.dev = s.dev) ∧ (q t).fifo = p.fifo ∧ (q t).queue = p.queue ∧ (∀ m, m ≠ n → t.host.sp m = s.host.sp m)
          ∧ t.line = u.line ∧ t.link = s.link ∧ keepsStores s t)
      ∧ (edgeFalls o p.ctrl = true → p.begins n = false →
        ∃ t, exec (.serialStartEdge dt o) s = .next t ∧ (q t).edge = p.edge ∧ (q t).fifo = p.fifo ∧ (q t).lineState = p.lineState
          ∧ (low → s.dev.wakeMask.getLsbD n = true → p.edge = none → p.lineState ≠ .stuck → (q t).wakePending = none ∧ t.dev.exit ≠ none)
          ∧ (low → p.lineState = .stuck → t.dev = s.dev)
          ∧ t.line = u.line ∧ t.link = s.link ∧ keepsStores s t))
  ∧ (∀ (dt n : Nat) (c : CharObs) (s : State) (e : Tick),
    let u := s.advance dt
    let p := s.host.sp n
    let q (t : State) := t.host.sp n
    let rises := changesBy c (u.host.follower - e).toNat
    let high := charBit c p.edgeFormat (stopIndex p.edgeFormat.1)
    n < 8 → sized s → s.linksStopped = false → p.edge = some e → p.lineState = .idle → charDone p.edgeFormat e ≤ u.host.follower →
      (irBad p.edgeFormat = true ∨ charFalse p.edgeFormat c = false) →
      ∃ t, exec (.serialCharacter dt n c) s = .next t ∧ (q t).edge = none
        ∧ (q t).rxd = (decide (rises.length % 2 = 1) == rxIdle p.edgeFormat.1)
        ∧ (q t).lowSince = (if high = false ∨ rises = [] then p.lowSince else none) ∧ (q t).timeout = some (p.timeoutFrom u.host.follower)
        ∧ (p.fifo.length < 64 → p.unsure = false →
            (q t).fifo = p.fifo ++ [{ entry := w (rxEntry p.edgeFormat c p.wakePending.isSome p.lostPending), edge := e, done := u.host.follower }])
        ∧ (p.fifo.length < 64 → p.unsure = true → ∃ x, (q t).fifo = p.fifo ++ [x] ∧ x.edge = e ∧ x.done = u.host.follower)
        ∧ (64 ≤ p.fifo.length → (q t).fifo = p.fifo ∧ (q t).lostPending = true ∧ (q t).lostSince = min 65535 (p.lostSince + 1))
        ∧ (q t).wakePending = none ∧ (q t).lineState = .idle ∧ (q t).ctrl = p.ctrl ∧ (q t).queue = p.queue ∧ onlySp n u t)
  ∧ (∀ (dt n : Nat) (c : CharObs) (s : State) (e : Tick),
    let u := s.advance dt
    let p := s.host.sp n
    let q (t : State) := t.host.sp n
    let spent := ∃ x, p.stoppedTimeout = some x ∧ x < u.host.follower
    n < 8 → sized s → s.linksStopped = false → p.edge = some e → p.lineState = .idle → falseAt p.edgeFormat e ≤ u.host.follower →
      charFalse p.edgeFormat c = true →
      ∃ t, exec (.serialFalseStart dt ⟨n, c⟩) s = .next t ∧ (q t).edge = none ∧ (q t).lowSince = none ∧ (q t).rxd = rxIdle p.edgeFormat.1
        ∧ (q t).timeout = (match p.stoppedTimeout with | some x => if x < u.host.follower then none else some x | none => none)
        ∧ (¬ spent → (q t).fifo = p.fifo ∧ (q t).filling = p.filling ∧ (q t).queue = p.queue)
        ∧ (spent → p.fifo = [] → (q t).filling = none) ∧ (q t).fifo.map (·.entry) = p.fifo.map (·.entry) ∧ (q t).ctrl = p.ctrl ∧ onlySp n u t)
  ∧ (∀ (dt n : Nat) (c : CharObs) (s : State) (e : Tick),
    let u := s.advance dt
    let p := s.host.sp n
    let q (t : State) := t.host.sp n
    n < 8 → sized s → s.linksStopped = false → p.lowSince = some e → p.lineState = .idle → e + charTimes p.edgeFormat 2 ≤ u.host.follower →
      lineLow p.edgeFormat c (u.host.follower - e).toNat = true →
      ∃ t, exec (.serialBreak dt ⟨n, c⟩) s = .next t ∧ (q t).lineState = .brk ∧ (q t).edge = none ∧ (q t).lowSince = some e ∧ (q t).timeout = none
        ∧ (p.ctrl.getLsbD 0 = true → p.fifo.length < 64 → ∃ x, (q t).fifo = p.fifo ++ [x] ∧ x.edge = e ∧ bitOf x.entry.toNat 11 = true)
        ∧ (p.ctrl.getLsbD 0 = false → (q t).fifo = p.fifo) ∧ (q t).queue = p.queue ∧ onlySp n u t)
  ∧ (∀ (dt n : Nat) (c : CharObs) (s : State) (e : Tick),
    let u := s.advance dt
    let p := s.host.sp n
    let q (t : State) := t.host.sp n
    n < 8 → sized s → s.linksStopped = false → p.lowSince = some e → p.mayStick c (u.host.follower - e).toNat = true →
      e + ((bitsOf p.limits.toNat 0 16 * 1500000 : Nat) : Int) ≤ u.host.follower →
      ∃ t, exec (.serialStuck dt ⟨n, c⟩) s = .next t ∧ (q t).lineState = .stuck ∧ (q t).edge = none ∧ (q t).lowSince = some e ∧ (q t).fifo = p.fifo
        ∧ onlySp n u t)
  ∧ (∀ (dt n : Nat) (c : CharObs) (s : State) (e : Tick),
    let u := s.advance dt
    let p := s.host.sp n
    let q (t : State) := t.host.sp n
    n < 8 → sized s → s.linksStopped = false → p.lowSince = some e → p.lineState ≠ .idle →
      (lineHigh p.edgeFormat c (u.host.follower - e).toNat = false → exec (.serialIdle dt ⟨n, c⟩) s = .next u)
      ∧ (lineHigh p.edgeFormat c (u.host.follower - e).toNat = true →
        ∃ t, exec (.serialIdle dt ⟨n, c⟩) s = .next t ∧ (q t).lineState = .idle ∧ (q t).edge = none ∧ (q t).lowSince = none
          ∧ (q t).rxd = rxIdle p.edgeFormat.1 ∧ (q t).fifo = p.fifo ∧ onlySp n u t))
  ∧ (∀ (dt n : Nat) (c : CharObs) (o : EdgeObs) (s : State),
    let u := s.advance dt
    s.linksStopped = true →
      exec (.serialStartEdge dt o) s = .next u ∧ exec (.serialCharacter dt n c) s = .next u ∧ exec (.serialFalseStart dt ⟨n, c⟩) s = .next u
        ∧ exec (.serialBreak dt ⟨n, c⟩) s = .next u ∧ exec (.serialStuck dt ⟨n, c⟩) s = .next u ∧ exec (.serialIdle dt ⟨n, c⟩) s = .next u)

/-- The receive DMA writes entries into the filling block; a block closes when it is full, after a break, at the timeout and when reception is switched
off, behind the last character that waits; its record waits in the port's queue, which is read word by word in the order of the reads and can be
reset; the host releases blocks. The characters of SP0 go to CP0's buffer. It formalises parts of R371, R372, R373, R374, R386. Where the
specification leaves a point open it rests on the model's choice in logs 14, 18, 21, 53 and 136. -/
def Obligations.SerialBlocksFillCloseAndRelease : Prop :=
  (∀ (dt n : Nat) (s : State) (e : RxEntry) (r : List RxEntry),
    let u := s.advance dt
    let p := s.host.sp n
    let q (t : State) := t.host.sp n
    let f := p.filling.getD { block := p.nextBlock, entries := [], firstEdge := e.edge, lastAt := e.done }
    let cause := e.cause (decide (blockEntries p.rxbufF ≤ f.entries.length + 1))
    0 < n → n < 8 → sized s → s.linksStopped = false → p.fifo = e :: r → p.lineState ≠ .stuck →
      (s.dev.rung = .row ∨ s.dev.rung = .paddle ∨ s.dev.rung = .drift) →
      (p.filling = none → p.freeBlocks = 0 → exec (.serialRxDma dt n) s = .next u)
      ∧ ((p.filling ≠ none ∨ p.freeBlocks ≠ 0) →
        (u.blocked (0x50 + n) (blockOfs p.rxbufF f.block + 2 * f.entries.length) 2 true = true → exec (.serialRxDma dt n) s = .next u)
        ∧ (u.blocked (0x50 + n) (blockOfs p.rxbufF f.block + 2 * f.entries.length) 2 true = false →
        ∃ t, exec (.serialRxDma dt n) s = .next t ∧ (q t).fifo = r
          ∧ t.hbMem = (u.writeHb (0x50 + n) (blockOfs p.rxbufF f.block + 2 * f.entries.length) ((wordBytes [e.entry]).map some)).hbMem
          ∧ (cause = none → (q t).filling = some { f with entries := f.entries ++ [e.entry], lastAt := e.done } ∧ (q t).queue = p.queue)
          ∧ (cause ≠ none → (q t).filling = none ∧ (q t).held = p.held + 1 ∧ (q t).nextBlock = (f.block + 1) % nblk p.rxbufF
              ∧ (∃ x, (q t).queue = p.queue ++ [x]) ∧ (q t).lostSince = 0)
          ∧ (∀ m, m ≠ n → t.host.sp m = s.host.sp m) ∧ t.dev = s.dev ∧ t.line = u.line ∧ t.link = s.link ∧ t.lbMem = s.lbMem ∧ t.hostRam = s.hostRam)))
  ∧ (∀ (dt : Nat) (s : State) (e : RxEntry) (r : List RxEntry),
    let u := s.advance dt
    let b : Byte := BitVec.ofNat 8 e.entry.toNat
    let inFrame : Prop := s.host.sp0Skip = false ∧ throughFlag s.host.sp0Buf ≠ []
    (s.host.sp 0).fifo = e :: r → (s.host.sp 0).lineState ≠ .stuck → (s.dev.rung = .row ∨ s.dev.rung = .paddle ∨ s.dev.rung = .drift) → sized s →
      s.linksStopped = false →
      ∃ t, exec (.serialRxDma dt 0) s = .next t ∧ (t.host.sp 0).fifo = r
        ∧ (bitsOf e.entry.toNat 9 3 ≠ 0 → t.host.sp0Buf = throughFlag s.host.sp0Buf ∧ t.host.sp0Skip = true)
        ∧ (bitsOf e.entry.toNat 9 3 = 0 → (inFrame ∨ b = sp0Flag) → s.host.sp0Buf.length < 4096 →
            t.host.sp0Buf = s.host.sp0Buf ++ [(b, e.done)] ∧ t.host.sp0Skip = (s.host.sp0Skip && b != sp0Flag))
        ∧ (bitsOf e.entry.toNat 9 3 = 0 → ¬ inFrame → b ≠ sp0Flag → t.host.sp0Buf = s.host.sp0Buf ∧ t.host.sp0Skip = s.host.sp0Skip)
        ∧ onlySp 0 u t)
  ∧ (∀ (dt n : Nat) (s : State) (x : Tick),
    let u := s.advance dt
    let p := s.host.sp n
    let q (t : State) := t.host.sp n
    n < 8 → sized s → s.linksStopped = false → p.timeout = some x →
      ∃ t, exec (.serialRxTimeout dt n) s = .next t
        ∧ (u.host.follower < x → t = u)
        ∧ (x ≤ u.host.follower → (q t).timeout = none
            ∧ (p.fifo = [] → (q t).filling = none ∧ (q t).fifo = []
                ∧ (∀ f, p.filling = some f → f.entries ≠ [] → (∃ y, (q t).queue = p.queue ++ [y]) ∧ (q t).held = p.held + 1)
                ∧ (p.filling = none → (q t).queue = p.queue ∧ (q t).held = p.held))
            ∧ (∀ es y, p.fifo = es ++ [y] → (q t).fifo = es ++ [{ y with closes := some (y.closes.getD 1) }] ∧ (q t).filling = p.filling
                ∧ (q t).queue = p.queue ∧ (q t).held = p.held))
        ∧ onlySp n u t)
  ∧ (∀ (dt n : Nat) (v : W32) (s : State),
    let u := s.advance dt
    reachable s → 0 < n → n < 8 → sized s →
      ∃ t, exec (.serialRxRelease dt n v) s = .next t ∧ (t.host.sp n).held = (s.host.sp n).held - bitsOf v.toNat 0 9
        ∧ (t.host.sp n).queue = (s.host.sp n).queue ∧ (t.host.sp n).filling = (s.host.sp n).filling ∧ onlySp n u t)
  ∧ (∀ (dt n : Nat) (s : State),
    let u := s.advance dt
    let p := s.host.sp n
    let stallEnd : Tick := u.host.follower + ((bitsOf p.rxqCtrl.toNat 7 6 * 1500 : Nat) : Int)
    reachable s → n < 8 → sized s →
      (n = 0 → exec (.serialRxqRead dt n) s = .next { u with host := { u.host with readData := 0x40000 } })
      ∧ (∀ e y, p.takeWord = some (e, y) → 0 < n → p.queueWaiting = 0 →
          exec (.serialRxqRead dt n) s = .next { u with host := (u.host.modSp n fun _ => y).returned (windowWord e) })
      ∧ (0 < n → p.queueWaiting = 0 → p.takeWord = none →
          exec (.serialRxqRead dt n) s = .next (if p.rxqCtrl.getLsbD 0 then
              { u with host := u.host.modSp n fun p => { p with queueWaiting := 1, queueStallEnd := stallEnd } }
            else { u with host := u.host.returned (windowEmpty p.queueLast.1 p.queueLast.2) }))
      ∧ (0 < n → p.queueWaiting ≠ 0 →
          exec (.serialRxqRead dt n) s = .next { u with host := u.host.modSp n fun p => { p with queueWaiting := p.queueWaiting + 1 } }))
  ∧ (∀ (dt n : Nat) (s : State),
    let u := s.advance dt
    let p := s.host.sp n
    let q (t : State) := t.host.sp n
    let stallEnd : Tick := u.host.follower + ((bitsOf p.rxqCtrl.toNat 7 6 * 1500 : Nat) : Int)
    reachable s → 0 < n → n < 8 → sized s →
      ∃ t, exec (.serialRxqReset dt n) s = .next t ∧ (q t).queue = [] ∧ (q t).queueEpoch = p.queueEpoch + 1 ∧ (q t).held = 0 ∧ (q t).filling = none
        ∧ (q t).nextBlock = 0 ∧ (q t).rxbufF = p.rxbuf ∧ (q t).fifo = p.fifo
        ∧ (q t).queueWaiting = (if p.rxqCtrl.getLsbD 0 then p.queueWaiting - 1 else 0)
        ∧ (p.rxqCtrl.getLsbD 0 = true → 2 ≤ p.queueWaiting → (q t).queueStallEnd = stallEnd)
        ∧ (p.queueWaiting ≠ 0 → (s.host.readsDone ++ [windowEmpty 0 0]) <+: t.host.readsDone) ∧ onlySp n u t)
  ∧ (∀ (dt n : Nat) (s : State),
    let u := s.advance dt
    let p := s.host.sp n
    let q (t : State) := t.host.sp n
    reachable s → n < 8 → sized s → p.ctrl.getLsbD 0 = true →
      ∃ t, exec (.serialRxDisable dt n) s = .next t ∧ (q t).ctrl = p.ctrl &&& 0xFFFFFFFE ∧ (q t).edge = none ∧ (q t).timeout = none
        ∧ (q t).lineState = p.lineState ∧ (q t).lowSince = p.lowSince
        ∧ (p.fifo = [] → (q t).filling = none ∧ (q t).fifo = [] ∧ (∀ f, p.filling = some f → f.entries ≠ [] → ∃ y, (q t).queue = p.queue ++ [y]))
        ∧ (∀ es y, p.fifo = es ++ [y] → (q t).fifo = es ++ [{ y with closes := some (y.closes.getD 3) }] ∧ (q t).filling = p.filling ∧ (q t).queue = p.queue)
        ∧ (∀ m, m ≠ n → t.host.sp m = s.host.sp m) ∧ onlyHost u t)

/-- A descriptor is queued, or dropped when 16 wait; its characters are sent one by one, those of SP0 from the frames of CP0; a break begins once the
shifter is empty and lasts at least two character times, a bit time of 1 following it; switching transmission off lets the character in the shifter
end; the driver enable falls after its tail; a format reaches each direction at its next character. It formalises parts of R369, R375, R376, R377,
R379. Where the specification leaves a point open it rests on the model's choice in logs 21, 100 and 137. -/
def Obligations.SerialCharactersAreSent : Prop :=
  (∀ (dt n : Nat) (v : W32) (s : State),
    let u := s.advance dt
    let p := s.host.sp n
    let q (t : State) := t.host.sp n
    let count := if bitsOf v.toNat 22 10 = 0 then 1024 else bitsOf v.toNat 22 10
    reachable s → 0 < n → n < 8 → sized s →
      ∃ t, exec (.serialTxDescriptor dt n v) s = .next t
        ∧ (16 ≤ p.descs.length → (q t).drop = true ∧ (q t).descs = p.descs ∧ (q t).shifter = p.shifter)
        ∧ (p.descs.length < 16 → (q t).descs = p.descs ++ [⟨bitsOf v.toNat 0 22 * 2, count, 0⟩] ∧ (q t).drop = p.drop
            ∧ (p.mayStart n = true → (∀ b ∈ s.host.mem.banks, b.handover = none) →
                (q t).shifter ≠ none ∧ (q t).txFormat = (p.ctrl, p.rate) ∧ (q t).de = decide (n < 6)))
        ∧ (q t).fifo = p.fifo ∧ (∀ m, m ≠ n → t.host.sp m = s.host.sp m) ∧ onlyHost u t)
  ∧ (∀ (dt n : Nat) (s : State) (c : BitVec 9) (d : TxDesc) (r : List TxDesc),
    let u := s.advance dt
    let p := s.host.sp n
    let q (t : State) := t.host.sp n
    0 < n → n < 8 → sized s → s.linksStopped = false → p.shifter = some c → p.descs = d :: r → p.shiftAt + charTimes p.txFormat 1 ≤ u.host.follower →
      ∃ t, exec (.serialTxCharacterEnd dt n) s = .next t ∧ (q t).ctrs = countAt 1 32 1 p.ctrs
        ∧ (d.sent + 1 < d.count → (q t).descs = { d with sent := d.sent + 1 } :: r ∧ (q t).done = p.done)
        ∧ (d.count ≤ d.sent + 1 → (q t).descs = r ∧ (q t).done = p.done + 1)
        ∧ (p.ctrl.getLsbD 21 = true → (q t).breakFrom = some u.host.follower ∧ (q t).shifter = none)
        ∧ (p.ctrl.getLsbD 21 = false → (q t).shifter = none → (q t).tailFrom = if (q t).de then some u.host.follower else none)
        ∧ (q t).fifo = p.fifo ∧ (∀ m, m ≠ n → t.host.sp m = s.host.sp m) ∧ onlyHost u t)
  ∧ (∀ (dt : Nat) (s : State) (c : BitVec 9) (f : List Byte × Nat),
    let u := s.advance dt
    let p := s.host.sp 0
    sized s → s.linksStopped = false → p.shifter = some c → s.host.sp0Out = some f → p.shiftAt + charTimes p.txFormat 1 ≤ u.host.follower →
      ∃ t, exec (.serialTxCharacterEnd dt 0) s = .next t ∧ (t.host.sp 0).ctrs = countAt 1 32 1 p.ctrs
        ∧ (f.2 + 1 < f.1.length → t.host.sp0Out = some (f.1, f.2 + 1) ∧ t.host.sp0Sent = s.host.sp0Sent)
        ∧ (f.1.length ≤ f.2 + 1 → t.host.sp0Sent = s.host.sp0Sent ++ [f.1])
        ∧ (t.host.sp 0).fifo = p.fifo ∧ (∀ m, m ≠ 0 → t.host.sp m = s.host.sp m) ∧ onlyHost u t)
  ∧ (∀ (dt : Nat) (v : W32) (s : State), exec (.serialTxDescriptor dt 0 v) s = .next (s.advance dt))
  ∧ (∀ (dt n : Nat) (s : State),
    let u := s.advance dt
    let p := s.host.sp n
    let q (t : State) := t.host.sp n
    reachable s → n < 8 → sized s → p.ctrl.getLsbD 21 = false →
      ∃ t, exec (.serialTxBreakSet dt n) s = .next t ∧ (q t).ctrl = p.ctrl ||| (1 <<< 21)
        ∧ (p.shifter = none → (q t).breakFrom = some (p.breakFrom.getD u.host.follower)) ∧ (p.shifter ≠ none → (q t).breakFrom = p.breakFrom)
        ∧ (q t).shifter = p.shifter ∧ (q t).descs = p.descs ∧ (q t).fifo = p.fifo ∧ onlySp n u t)
  ∧ (∀ (dt n : Nat) (s : State) (b : Tick),
    let u := s.advance dt
    let p := s.host.sp n
    let q (t : State) := t.host.sp n
    let past := decide (b + charTimes (p.ctrl &&& 0xFFDFFFFF, p.rate) 2 ≤ u.host.follower)
    reachable s → n < 8 → sized s → p.ctrl.getLsbD 21 = true → p.breakFrom = some b →
      ∃ t, exec (.serialTxBreakClear dt n) s = .next t ∧ (q t).ctrl = p.ctrl &&& 0xFFDFFFFF ∧ (q t).breakFrom = (if past then none else some b)
        ∧ (past = false → (q t).breakEnding = true) ∧ (past = true → p.shifter = none → (q t).shifter = none ∨ u.host.follower + sixteenths p.rate 16 ≤ (q t).shiftAt)
        ∧ (q t).descs = p.descs ∧ (q t).fifo = p.fifo ∧ (∀ m, m ≠ n → t.host.sp m = s.host.sp m) ∧ onlyHost u t)
  ∧ (∀ (dt n : Nat) (s : State) (b : Tick),
    let u := s.advance dt
    let p := s.host.sp n
    let q (t : State) := t.host.sp n
    n < 8 → sized s → s.linksStopped = false → p.breakEnding = true → p.breakFrom = some b → b + charTimes (p.ctrl, p.rate) 2 ≤ u.host.follower →
      ∃ t, exec (.serialBreakHoldEnd dt n) s = .next t ∧ (p.ctrl.getLsbD 21 = false → (q t).breakFrom = none) ∧ (q t).breakEnding = false
        ∧ (q t).descs = p.descs ∧ (q t).fifo = p.fifo ∧ (∀ m, m ≠ n → t.host.sp m = s.host.sp m) ∧ onlyHost u t)
  ∧ (∀ (dt n : Nat) (s : State),
    let u := s.advance dt
    let p := s.host.sp n
    let q (t : State) := t.host.sp n
    reachable s → n < 8 → sized s →
      ∃ t, exec (.serialTxDisable dt n) s = .next t ∧ (q t).ctrl = p.ctrl &&& 0xFFFFFFFD ∧ (q t).shifter = p.shifter ∧ (q t).descs = p.descs
        ∧ (q t).de = p.de ∧ (q t).fifo = p.fifo ∧ onlySp n u t)
  ∧ (∀ (dt n : Nat) (s : State) (x : Tick),
    let u := s.advance dt
    let p := s.host.sp n
    n < 8 → sized s → s.linksStopped = false → p.tailFrom = some x → x + sixteenths p.txFormat.2 (bitsOf p.line.toNat 10 10) ≤ u.host.follower →
      exec (.serialDeTailEnd dt n) s = .next { u with host := u.host.modSp n fun p => { p with de := false, tailFrom := none } })
  ∧ (∀ (dt n : Nat) (high : Bool) (s : State),
    let u := s.advance dt
    let p := s.host.sp n
    let q (t : State) := t.host.sp n
    n < 8 → sized s → s.linksStopped = false →
      ∃ t, exec (.serialCtsChange dt n high) s = .next t ∧ (q t).cts = (if n < 6 then p.cts else !high) ∧ (q t).descs = p.descs ∧ (q t).ctrl = p.ctrl
        ∧ (6 ≤ n → high = false → p.descs ≠ [] → ({ p with cts := true } : Serial).mayStart n = true → (∀ b ∈ s.host.mem.banks, b.handover = none) →
            (q t).shifter ≠ none)
        ∧ (q t).fifo = p.fifo ∧ (∀ m, m ≠ n → t.host.sp m = s.host.sp m) ∧ onlyHost u t)
  ∧ (∀ (dt n : Nat) (rateReg : Bool) (v : W32) (s : State),
    let u := s.advance dt
    let p := s.host.sp n
    let q (t : State) := t.host.sp n
    reachable s → n < 8 → sized s →
      ∃ t, exec (.serialFormatChange dt n rateReg v) s = .next t ∧ (q t).edgeFormat = p.edgeFormat
        ∧ (rateReg = true → q t = { p with rate := v }) ∧ (rateReg = false → (q t).ctrl = v ∧ (q t).rate = p.rate ∧ (q t).descs = p.descs)
        ∧ (p.shifter ≠ none → (q t).txFormat = p.txFormat ∧ (q t).shifter = p.shifter)
        ∧ (q t).fifo.map (·.entry) = p.fifo.map (·.entry) ∧ (∀ m, m ≠ n → t.host.sp m = s.host.sp m) ∧ onlyHost u t)

/-! ## Reset, sizes, judgement -/

/-- Right after power-up the device is in BOOT with epoch 1 at ROW with all its parts there, no firmware runs, the barrier is down, the timebase stands at
0 undisciplined in stratum 15, every line port is disabled and muted, no channel is placed, node ID and network ID are 0, no queue, ring, slot or
memory cell holds anything. It formalises parts of R38, R117, R119, R131, R318, R407, R418, R456, R520. Where the specification leaves a point open it
rests on the model's choice in logs 9, 10, 11, 12, 13, 15 and 40. -/
def Obligations.ResetLeavesTheSpecState : Prop :=
  let s := State.reset
  sized s ∧ canonical s ∧ s.pending = []
    ∧ s.dev.mode = .boot ∧ s.dev.modeEpoch = 1 ∧ s.dev.rung = .row ∧ s.dev.alarmLatched = 0
    ∧ s.host.running = false ∧ s.line.running = false ∧ s.link.host.up = false ∧ s.link.line.up = false
    ∧ s.line.clock.tb = 0 ∧ s.line.clock.disciplined = false ∧ s.line.time.source = 3 ∧ s.line.time.stratumNow = 15 ∧ s.line.errorBound s.dev.mode = 0xFFFF
    ∧ s.line.nodeId = 0 ∧ s.line.netId = 0
    ∧ (∀ q ∈ s.line.ports, q.on = false ∧ q.muted = true ∧ q.fault = false ∧ q.drven = false)
    ∧ (∀ x ∈ s.line.chans, x.place = none ∧ x.onAir = none ∧ x.frames = [] ∧ x.ctx = [none, none])
    ∧ s.line.sched.actions = [] ∧ s.line.relay.copies = [] ∧ s.line.links.entries = []
    ∧ (∀ q ∈ s.host.queues, q.pkts = [] ∧ q.hold = [] ∧ q.epoch = 0)
    ∧ (∀ k ∈ s.host.keys, k.state = .empty ∧ k.key = [])
    ∧ s.host.txq = [] ∧ s.host.accepted = []

/-- Every step from a state whose ports, channels, queues, rings, slots, engines and banks have the sizes of the block leaves them those sizes. -/
def Obligations.StepKeepsTheSizes : Prop :=
  ∀ s t : State, sized s → step s = .next t → sized t

/-- What is judged before the rules of a command, in the order of R303: QUARANTINED, MODE, BARRIER, then EPOCH_STALE. A command so answered changes
nothing but its acceptance and the replies, and what the command processors read next; one that comes in with its row is accepted, not read without
room for its reply, or turned away at 512 outstanding (log 131); below ROW, and before host firmware runs, only RUNG_SET or nothing is served. It
formalises parts of R303, R315, R486. Where the specification leaves a point open it rests on the model's choice in logs 19, 23, 24, 87, 88 and 131. -/
def Obligations.CommandsAreJudgedInOrder : Prop :=
  (∀ (info : CmdInfo) (s : State),
    (s.judge info = some .quarantined ↔ s.dev.mode = .quarantine ∧ info.reduced = false)
    ∧ (s.judge info = some .mode ↔ ¬ (s.dev.mode = .quarantine ∧ info.reduced = false) ∧ s.dev.inSet info.modes = false)
    ∧ (s.judge info = some .barrier ↔ ¬ (s.dev.mode = .quarantine ∧ info.reduced = false) ∧ s.dev.inSet info.modes = true ∧ info.lineSide = true
        ∧ (s.line.ready = false ∨ s.link.host.up = false ∨ s.dev.mode = .safe)))
  ∧ (∀ (info : CmdInfo) (cmd : Cmd) (unit : State → EpochRef) (rules : State → Answer) (s : State) (st : Status),
    s.serves info.opcode = true → s.host.holds info.opcode cmd = true → s.inTurn false (acceptance info cmd s) (unit s) = true → s.judge info = some st →
      s.runH info cmd unit rules = (s.answerH info (acceptance info cmd s) (unit s) st []).readInputs)
  ∧ (∀ (info : CmdInfo) (cmd : Cmd) (unit : State → EpochRef) (rules : State → Answer) (s : State),
    s.serves info.opcode = true → s.host.holds info.opcode cmd = true → s.inTurn false (acceptance info cmd s) (unit s) = true → s.judge info = none →
      epochDiffers cmd (unit s).epoch = true →
      s.runH info cmd unit rules = (s.answerH info (acceptance info cmd s) (unit s) .epochStale []).readInputs)
  ∧ (∀ (info : CmdInfo) (cmd : Cmd) (unit : State → EpochRef) (rules : State → Answer) (s : State),
    s.host.holds info.opcode cmd = true → s.inTurn false (acceptance info cmd s) (unit s) = false → s.runH info cmd unit rules = s)
  ∧ (∀ (info : CmdInfo) (cmd : Cmd) (unit : State → EpochRef) (rules : State → Answer) (s : State),
    let v := s.readInputs
    let a : Accepted := { cmd := cmd, opcode := info.opcode, at_ := v.host.follower, crossed := false, src := (0, 0) }
    s.serves info.opcode = true → s.host.holds info.opcode cmd = false → v.host.holds info.opcode cmd = false →
      (v.host.room cmd.via = false → s.runH info cmd unit rules = v)
      ∧ (v.host.room cmd.via = true → v.host.full = false →
          s.runH info cmd unit rules = (v.onHost fun h => { h with accepted := h.accepted ++ [a] }).runH info cmd unit rules)
      ∧ (v.host.room cmd.via = true → v.host.full = true → cmd.via = .ring0 ∨ cmd.via = .ring1 → s.runH info cmd unit rules = v)
      ∧ (v.host.room cmd.via = true → v.host.full = true → cmd.via = .udp ∨ cmd.via = .sp0 →
          s.runH info cmd unit rules = (v.onHost (HostSide.countTransport 2)).answerH info a (unit v) .busy []))
  ∧ (∀ (info : CmdInfo) (cmd : Cmd) (sched : Bool) (unit : State → EpochRef) (rules : Accepted → State → Answer) (s : State) (st : Status),
    s.arrived info.opcode cmd = none → s.serves info.opcode = true → s.host.holds info.opcode cmd = true →
      s.inTurn true (acceptance info cmd s) (unit s) = true → s.judge info = some st →
      s.runL info cmd sched unit rules = (s.answerH info (acceptance info cmd s) { unit s with src := 0x8010 + cpOf cmd.via } st []).readInputs)
  ∧ (∀ (info : CmdInfo) (cmd : Cmd) (sched : Bool) (unit : State → EpochRef) (rules : Accepted → State → Answer) (s : State),
    s.arrived info.opcode cmd = none → s.host.waits info.opcode cmd = true → s.runL info cmd sched unit rules = s)
  ∧ (∀ (info : CmdInfo) (cmd : Cmd) (sched : Bool) (unit : State → EpochRef) (rules : Accepted → State → Answer) (s : State),
    let b := { acceptance info cmd s with crossed := true }
    let t := s.runL info cmd sched unit rules
    crosses info cmd (unit s) s →
      t.link.host = s.link.host.send s.host.follower (.cmdLine b) ∧ b ∈ t.host.accepted ∧ t.line = s.line ∧ t.link.line = s.link.line ∧ t.dev = s.dev ∧ keepsStores s t)
  ∧ (∀ (info : CmdInfo) (cmd : Cmd) (unit : State → EpochRef) (rules : Accepted → State → Answer) (s : State) (got : Accepted × BarrierEnd),
    let c := crossing got s
    s.arrived info.opcode cmd = some got → s.line.actionDue (unit s).kind (unit s).unit = false → epochDiffers cmd (unit c).epoch = true →
      s.runL info cmd false unit rules = c.answerL info got.1 (unit c) .epochStale [] c)
  ∧ (∀ (info : CmdInfo) (a : Accepted) (r : EpochRef) (st : Status) (ws : List W16) (s : State),
    let t := s.answerH info a r st ws
    t.dev = s.dev ∧ t.line = s.line ∧ t.link = s.link ∧ keepsStores s t ∧ (∀ n, n ≠ 0 → t.host.sp n = s.host.sp n) ∧ t.host.engines = s.host.engines
      ∧ t.host.txq = s.host.txq ∧ t.host.follower = s.host.follower)
  ∧ (∀ (op : Nat) (s : State), s.serves op = true ↔ s.host.running = true ∧ (s.dev.rung = .row ∨ op = 0x006))

/-! ## Counters and the timebase -/

/-- A SAT counter counts to its maximum and holds it; an event there sets the overflow bit and leaves the value; the clear flag and a read that clears
return both to 0. It formalises R73. -/
def Obligations.SaturatingCountersHoldTheirMaximum : Prop :=
  (∀ (n : Nat) (c : Ctr), c.val ≤ 2 ^ n - 1 →
    (c.val < 2 ^ n - 1 → satAdd n 1 c = { val := c.val + 1, ovf := c.ovf })
    ∧ (c.val = 2 ^ n - 1 → satAdd n 1 c = { val := c.val, ovf := true })
    ∧ (∀ k, c.val ≤ (satAdd n k c).val ∧ (satAdd n k c).val ≤ 2 ^ n - 1 ∧ (c.ovf = true → (satAdd n k c).ovf = true))
    ∧ (∀ cs : List Ctr, (∀ x ∈ clearAll true cs, x.val = 0 ∧ x.ovf = false) ∧ clearAll false cs = cs))
  ∧ (∀ (dt n : Nat) (s : State), reachable s → sized s → n < 6 →
      ∃ t, exec (.queueLostRead dt n) s = .next t ∧ (t.host.queue n).lost.val = 0 ∧ (t.host.queue n).lost.ovf = false)
  ∧ (∀ (dt n : Nat) (s : State), reachable s → sized s → n < 8 →
      ∃ t, exec (.cuStatusRead dt n) s = .next t ∧ (t.host.cu n).misCount.val = 0 ∧ (t.host.cu n).misCount.ovf = false)

/-- The timebase is the integer part of one accumulator that adds 1 + c and the phase term each cycle, as every NCO does, split the passing of time as one
may; it never decreases; the phase term is at most 50 × 10^-6, keeps the rate within 200 × 10^-6, and adds up to the offset that is slewed; on the
coarse rungs the count shown is a multiple of 30. The host reference, without TIME_SYNC, runs within 50 × 10^-6 of the timebase. It formalises parts
of R39, R40, R483. Where the specification leaves a point open it rests on the model's choice in logs 1, 16, 32 and 115. -/
def Obligations.TimebaseAccumulatesItsRate : Prop :=
  (∀ (coarse : Bool) (dt : Nat) (k : Clock), k.tb ≤ (k.advance coarse dt).tb)
  ∧ (∀ (dt : Nat) (k : Clock), k.coarse = 0 → k.c.natAbs ≤ 858993 →
      (k.advance false dt).tb = k.tb + (k.frac + dt * (2 ^ 32 + k.c) + k.phaseGain dt) / 2 ^ 32)
  ∧ (∀ (coarse : Bool) (dt : Nat) (k : Clock), k.c.natAbs ≤ 858993 →
      ((k.advance coarse dt).nco : Int) = k.nco + dt * (2 ^ 32 + k.c) + k.phaseGain dt)
  ∧ (∀ (coarse : Bool) (a b : Nat) (k : Clock), k.slew = 0 → k.c.natAbs ≤ 858993 → (k.advance coarse a).advance coarse b = k.advance coarse (a + b))
  ∧ (∀ (coarse : Bool) (dt : Nat) (k : Clock), (k.phaseGain dt).natAbs ≤ dt * 214748 ∧ (k.slew = 0 → k.phaseGain dt = 0)
      ∧ (k.advance coarse dt).slewLeft + (k.phaseGain dt).natAbs = k.slewLeft
      ∧ (k.c.natAbs ≤ 858993 → (0 < k.slew → k.c + k.phaseTerm ≤ 858993) ∧ (k.slew < 0 → -858993 ≤ k.c - k.phaseTerm)))
  ∧ (∀ (dt : Nat) (k : Clock), (k.advance true dt).coarse < 30 ∧ (k.advance true dt).tb % 2 ^ 64 % 30 = 0)
  ∧ (∀ (n : Nat) (h : HostSide), (h.drift n).natAbs ≤ n * 214748 / 2 ^ 32)
  ∧ (∀ (ticks : Nat) (h : HostSide), h.followerAhead = 0 → h.followerBehind = 0 → h.followerCoarse = 0 →
      (h.advanceFollower false true ticks).follower = h.follower + ticks
      ∧ (h.advanceFollower false false ticks).follower
          = h.follower + ((ticks + (h.drift (h.followerFree + ticks) - h.drift h.followerFree)).toNat : Nat))
  ∧ (∀ (dt : Nat) (s : State), s.line.clock.tb ≤ (s.advance dt).line.clock.tb ∧ s.host.follower ≤ (s.advance dt).host.follower)

/-! ## The frame to the bit -/

/-- Symbols peak 8 + m symbol periods after the launch, and a frame of D data symbols ends 15 periods after its 320 + D + ceil(D / 31) symbols. The signal
of a frame is 0 outside that span; an ending leaves nothing 750 ticks after it began; its first 320 symbols are SYNC, eight units of one sequence and
two of its negative; its carrier begins at F times L and advances by F for every tick that the rate gives. It formalises R142, R145. Where the
specification leaves a point open it rests on the model's choice in log 90. -/
def Obligations.FramesLastAsTheirSymbolsSay : Prop :=
  (∀ (l : Tick) (k m mod rate lift len : Nat),
    let ts : Int := 375 * 2 ^ k
    let d := dataSymbols mod rate lift len
    let n := frameSymbols mod rate lift len
    pulsePeak l k m = l + (m + 8) * ts
    ∧ (n : Rat) = 320 + d + ⌈(d : Rat) / 31⌉
    ∧ frameEnd l k n = l + (n + 15) * ts
    ∧ frameEnd l k n = l + (frameTicks k mod rate lift len : Int))
  ∧ (∀ (o : OnAir) (e : TxEntry) (nco : Nat) (t : Tick), t < o.launch ∨ frameEnd o.launch o.rateK o.symbols < t → o.signal e nco t = 0)
  ∧ (∀ (o : OnAir) (e : TxEntry) (nco cause : Nat) (b t : Tick), e.ended = some (b, cause) → b + 750 ≤ t - e.trim → o.signal e nco t = 0)
  ∧ (∀ (o : OnAir) (m : Nat), m < 320 →
      o.symbol m = rootOf ((64 - (m % 32) ^ 2 % 64 + if m < 256 then 0 else 32) % 64))
  ∧ (∀ o : OnAir, o.theta o.nco = (((o.f.toNat * o.launch) % 2 ^ 32 : Int) : Rat) / 2 ^ 32)
  ∧ (∀ (o : OnAir) (n k : Nat), o.nco ≤ n → o.theta (n + k) - o.theta n = (o.f.toNat : Rat) * k / 2 ^ 64)

/-- Position t of the interleaved stream of C codewords carries the bit that R157 names, and every bit is carried once. It formalises R157. -/
def Obligations.InterleavingPermutesTheBits : Prop :=
  (∀ (n t : Nat) (words : List Bits), (∀ x ∈ words, x.length = n) → t < words.length * n →
    ∃ x, words[t % words.length]? = some x ∧ (interleave n words)[t]? = x[(73 * (t / words.length) + 17 * (t % words.length)) % n]?)
  ∧ (∀ (n : Nat) (words : List Bits), (interleave n words).length = words.length * n)
  ∧ (∀ (n c t u : Nat), (n = 352 ∨ ∃ lift, lift < 4 ∧ n = codeBits lift) → t < c * n → u < c * n → t % c = u % c →
      (73 * (t / c) + 17 * (t % c)) % n = (73 * (u / c) + 17 * (u % c)) % n → t = u)

/-- A PHY header gives back every field at every value it admits, its reserved bits are 0, and its check is the CRC over network ID and bits 63:16. It
formalises parts of R149, R150, R153. -/
def Obligations.HeadersCarryTheirFields : Prop :=
  ∀ (net : W16) (type mod rate lift len seed txb : Nat) (sec : Bool),
    type < 8 → mod < 16 → rate < 4 → lift < 4 → len < 2 ^ 15 → seed < 2 ^ 12 → txb < 16 →
      let h := makeHeader net type mod rate lift len seed txb sec
      hdrType h = type ∧ hdrMod h = mod ∧ hdrRate h = rate ∧ hdrLift h = lift ∧ hdrLen h = len ∧ hdrSeed h = seed ∧ hdrTxb h = txb ∧ hdrSec h = sec
        ∧ bitsOf h 62 2 = 0 ∧ bitsOf h 16 3 = 0 ∧ h < 2 ^ 64
        ∧ h % 65536 = crc16 (beBytes 2 net.toNat ++ beBytes 6 (h / 65536)) ∧ headerCheck net h = h % 65536
        ∧ (headerReserved h = true ↔ 4 < type ∨ 7 < mod ∨ len < 15)

/-- The payload string that a frame was sent with comes back from the codewords that carry it, for every header and every string of its length. It
formalises parts of R155, R179, R182, R185. -/
def Obligations.DecodingGivesTheSentString : Prop :=
  ∀ (h : Nat) (bytes : List Byte), bytes.length = hdrLen h + 5 → decodedString h (payloadWords h bytes) = bytes

/-- A codeword made from its information bits begins with them and meets every parity check of its rate and lift; so a header that is sent is read back.
It formalises parts of R151, R176, R177, R178. -/
def Obligations.EncodedWordsPassTheirChecks : Prop :=
  (∀ (rate lift : Nat) (info : Bits), rate < 4 → lift < 4 → info.length = infoBits rate lift →
    (encodeWord rate lift info).take (infoBits rate lift) = info ∧ codewordOk rate lift (encodeWord rate lift info) = true)
  ∧ ∀ h : Nat, h < 2 ^ 64 →
    let word := encodeWord 0 0 (natBits 64 h ++ List.replicate 224 false)
    bitsNat (word.take 64) = h ∧ (word.drop 64).take 224 = List.replicate 224 false ∧ badChecks 0 0 word = 0
end

