-- ==== Sys2Proof/Laws/State.lean ====
section
/-! SUPPORT. What each named update of the state leaves in each field (simp), so that no later proof unfolds a record update. -/

namespace Sys2Proof.Machine

/-! ## Time passes (R39, R43) -/

@[simp] theorem State.advance_dev (dt : Nat) (s : State) : (s.advance dt).dev = s.dev := rfl
@[simp] theorem State.advance_link (dt : Nat) (s : State) : (s.advance dt).link = s.link := rfl
@[simp] theorem State.advance_hbMem (dt : Nat) (s : State) : (s.advance dt).hbMem = s.hbMem := rfl
@[simp] theorem State.advance_lbMem (dt : Nat) (s : State) : (s.advance dt).lbMem = s.lbMem := rfl
@[simp] theorem State.advance_hostRam (dt : Nat) (s : State) : (s.advance dt).hostRam = s.hostRam := rfl
@[simp] theorem State.advance_pending (dt : Nat) (s : State) : (s.advance dt).pending = s.pending := rfl

@[simp] theorem State.advance_line_ports (dt : Nat) (s : State) : (s.advance dt).line.ports = s.line.ports := by
  simp only [State.advance]; split <;> rfl
@[simp] theorem State.advance_line_chans (dt : Nat) (s : State) : (s.advance dt).line.chans = s.line.chans := by
  simp only [State.advance]; split <;> rfl
@[simp] theorem State.advance_line_time (dt : Nat) (s : State) : (s.advance dt).line.time = s.line.time := by
  simp only [State.advance]; split <;> rfl
@[simp] theorem State.advance_line_sched (dt : Nat) (s : State) : (s.advance dt).line.sched = s.line.sched := by
  simp only [State.advance]; split <;> rfl
@[simp] theorem State.advance_line_relay (dt : Nat) (s : State) : (s.advance dt).line.relay = s.line.relay := by
  simp only [State.advance]; split <;> rfl
@[simp] theorem State.advance_line_links (dt : Nat) (s : State) : (s.advance dt).line.links = s.line.links := by
  simp only [State.advance]; split <;> rfl
@[simp] theorem State.advance_line_jobs (dt : Nat) (s : State) : (s.advance dt).line.jobs = s.line.jobs := by
  simp only [State.advance]; split <;> rfl
@[simp] theorem State.advance_line_headers (dt : Nat) (s : State) : (s.advance dt).line.headers = s.line.headers := by
  simp only [State.advance]; split <;> rfl
@[simp] theorem State.advance_line_maps (dt : Nat) (s : State) : (s.advance dt).line.maps = s.line.maps := by
  simp only [State.advance]; split <;> rfl
@[simp] theorem State.advance_line_mapCtrs (dt : Nat) (s : State) : (s.advance dt).line.mapCtrs = s.line.mapCtrs := by
  simp only [State.advance]; split <;> rfl
@[simp] theorem State.advance_line_mem (dt : Nat) (s : State) : (s.advance dt).line.mem = s.line.mem := by
  simp only [State.advance]; split <;> rfl
@[simp] theorem State.advance_line_stamps (dt : Nat) (s : State) : (s.advance dt).line.stamps = s.line.stamps := by
  simp only [State.advance]; split <;> rfl
@[simp] theorem State.advance_line_adjusted (dt : Nat) (s : State) : (s.advance dt).line.adjusted = s.line.adjusted := by
  simp only [State.advance]; split <;> rfl
@[simp] theorem State.advance_line_nodeId (dt : Nat) (s : State) : (s.advance dt).line.nodeId = s.line.nodeId := by
  simp only [State.advance]; split <;> rfl
@[simp] theorem State.advance_line_netId (dt : Nat) (s : State) : (s.advance dt).line.netId = s.line.netId := by
  simp only [State.advance]; split <;> rfl
@[simp] theorem State.advance_line_stageAhead (dt : Nat) (s : State) : (s.advance dt).line.stageAhead = s.line.stageAhead := by
  simp only [State.advance]; split <;> rfl
@[simp] theorem State.advance_line_linkAge (dt : Nat) (s : State) : (s.advance dt).line.linkAge = s.line.linkAge := by
  simp only [State.advance]; split <;> rfl
@[simp] theorem State.advance_line_reportLog (dt : Nat) (s : State) : (s.advance dt).line.reportLog = s.line.reportLog := by
  simp only [State.advance]; split <;> rfl
@[simp] theorem State.advance_line_seqs (dt : Nat) (s : State) : (s.advance dt).line.seqs = s.line.seqs := by
  simp only [State.advance]; split <;> rfl
@[simp] theorem State.advance_line_beacons (dt : Nat) (s : State) : (s.advance dt).line.beacons = s.line.beacons := by
  simp only [State.advance]; split <;> rfl
@[simp] theorem State.advance_line_ttIn (dt : Nat) (s : State) : (s.advance dt).line.ttIn = s.line.ttIn := by
  simp only [State.advance]; split <;> rfl
@[simp] theorem State.advance_line_running (dt : Nat) (s : State) : (s.advance dt).line.running = s.line.running := by
  simp only [State.advance]; split <;> rfl
@[simp] theorem State.advance_line_ready (dt : Nat) (s : State) : (s.advance dt).line.ready = s.line.ready := by
  simp only [State.advance]; split <;> rfl
@[simp] theorem State.advance_line_bootId (dt : Nat) (s : State) : (s.advance dt).line.bootId = s.line.bootId := by
  simp only [State.advance]; split <;> rfl
@[simp] theorem State.advance_line_release (dt : Nat) (s : State) : (s.advance dt).line.release = s.line.release := by
  simp only [State.advance]; split <;> rfl
@[simp] theorem State.advance_line_lastReset (dt : Nat) (s : State) : (s.advance dt).line.lastReset = s.line.lastReset := by
  simp only [State.advance]; split <;> rfl
@[simp] theorem State.advance_line_down (dt : Nat) (s : State) : (s.advance dt).line.down = s.line.down := by
  simp only [State.advance]; split <;> rfl
@[simp] theorem State.advance_line_margins (dt : Nat) (s : State) : (s.advance dt).line.margins = s.line.margins := by
  simp only [State.advance]; split <;> rfl
@[simp] theorem State.advance_line_marginLow (dt : Nat) (s : State) : (s.advance dt).line.marginLow = s.line.marginLow := by
  simp only [State.advance]; split <;> rfl
@[simp] theorem State.advance_line_marginOwed (dt : Nat) (s : State) : (s.advance dt).line.marginOwed = s.line.marginOwed := by
  simp only [State.advance]; split <;> rfl
@[simp] theorem State.advance_line_marginOkFrom (dt : Nat) (s : State) : (s.advance dt).line.marginOkFrom = s.line.marginOkFrom := by
  simp only [State.advance]; split <;> rfl
@[simp] theorem State.advance_line_fw (dt : Nat) (s : State) : (s.advance dt).line.fw = s.line.fw := by
  simp only [State.advance]; split <;> rfl
@[simp] theorem State.advance_line_out (dt : Nat) (s : State) : (s.advance dt).line.out = s.line.out := by
  simp only [State.advance]; split <;> rfl
@[simp] theorem State.advance_line_hold (dt : Nat) (s : State) : (s.advance dt).line.hold = s.line.hold := by
  simp only [State.advance]; split <;> rfl
@[simp] theorem State.advance_line_holdLost (dt : Nat) (s : State) : (s.advance dt).line.holdLost = s.line.holdLost := by
  simp only [State.advance]; split <;> rfl
@[simp] theorem State.advance_line_holdDiscarded (dt : Nat) (s : State) : (s.advance dt).line.holdDiscarded = s.line.holdDiscarded := by
  simp only [State.advance]; split <;> rfl

@[simp] theorem HostSide.advanceFollower_running (c y : Bool) (n : Nat) (h : HostSide) : (h.advanceFollower c y n).running = h.running := rfl
@[simp] theorem HostSide.advanceFollower_bootId (c y : Bool) (n : Nat) (h : HostSide) : (h.advanceFollower c y n).bootId = h.bootId := rfl
@[simp] theorem HostSide.advanceFollower_inSync (c y : Bool) (n : Nat) (h : HostSide) : (h.advanceFollower c y n).inSync = h.inSync := rfl
@[simp] theorem HostSide.advanceFollower_firstSync (c y : Bool) (n : Nat) (h : HostSide) : (h.advanceFollower c y n).firstSync = h.firstSync := rfl
@[simp] theorem HostSide.advanceFollower_lastSync (c y : Bool) (n : Nat) (h : HostSide) : (h.advanceFollower c y n).lastSync = h.lastSync := rfl
@[simp] theorem HostSide.advanceFollower_syncStep (c y : Bool) (n : Nat) (h : HostSide) : (h.advanceFollower c y n).syncStep = h.syncStep := rfl
@[simp] theorem HostSide.advanceFollower_timeHi (c y : Bool) (n : Nat) (h : HostSide) : (h.advanceFollower c y n).timeHi = h.timeHi := rfl
@[simp] theorem HostSide.advanceFollower_ppsOut (c y : Bool) (n : Nat) (h : HostSide) : (h.advanceFollower c y n).ppsOut = h.ppsOut := rfl
@[simp] theorem HostSide.advanceFollower_accepted (c y : Bool) (n : Nat) (h : HostSide) : (h.advanceFollower c y n).accepted = h.accepted := rfl
@[simp] theorem HostSide.advanceFollower_queues (c y : Bool) (n : Nat) (h : HostSide) : (h.advanceFollower c y n).queues = h.queues := rfl
@[simp] theorem HostSide.advanceFollower_txq (c y : Bool) (n : Nat) (h : HostSide) : (h.advanceFollower c y n).txq = h.txq := rfl
@[simp] theorem HostSide.advanceFollower_txHwm (c y : Bool) (n : Nat) (h : HostSide) : (h.advanceFollower c y n).txHwm = h.txHwm := rfl
@[simp] theorem HostSide.advanceFollower_cuts (c y : Bool) (n : Nat) (h : HostSide) : (h.advanceFollower c y n).cuts = h.cuts := rfl
@[simp] theorem HostSide.advanceFollower_rxOrder (c y : Bool) (n : Nat) (h : HostSide) : (h.advanceFollower c y n).rxOrder = h.rxOrder := rfl
@[simp] theorem HostSide.advanceFollower_notes (c y : Bool) (n : Nat) (h : HostSide) : (h.advanceFollower c y n).notes = h.notes := rfl
@[simp] theorem HostSide.advanceFollower_downAt (c y : Bool) (n : Nat) (h : HostSide) : (h.advanceFollower c y n).downAt = h.downAt := rfl
@[simp] theorem HostSide.advanceFollower_discarded (c y : Bool) (n : Nat) (h : HostSide) : (h.advanceFollower c y n).discarded = h.discarded := rfl
@[simp] theorem HostSide.advanceFollower_ints (c y : Bool) (n : Nat) (h : HostSide) : (h.advanceFollower c y n).ints = h.ints := rfl
@[simp] theorem HostSide.advanceFollower_pci (c y : Bool) (n : Nat) (h : HostSide) : (h.advanceFollower c y n).pci = h.pci := rfl
@[simp] theorem HostSide.advanceFollower_jtag (c y : Bool) (n : Nat) (h : HostSide) : (h.advanceFollower c y n).jtag = h.jtag := rfl
@[simp] theorem HostSide.advanceFollower_tdo (c y : Bool) (n : Nat) (h : HostSide) : (h.advanceFollower c y n).tdo = h.tdo := rfl
@[simp] theorem HostSide.advanceFollower_rings (c y : Bool) (n : Nat) (h : HostSide) : (h.advanceFollower c y n).rings = h.rings := rfl
@[simp] theorem HostSide.advanceFollower_eth (c y : Bool) (n : Nat) (h : HostSide) : (h.advanceFollower c y n).eth = h.eth := rfl
@[simp] theorem HostSide.advanceFollower_ptp (c y : Bool) (n : Nat) (h : HostSide) : (h.advanceFollower c y n).ptp = h.ptp := rfl
@[simp] theorem HostSide.advanceFollower_serials (c y : Bool) (n : Nat) (h : HostSide) : (h.advanceFollower c y n).serials = h.serials := rfl
@[simp] theorem HostSide.advanceFollower_sp0Buf (c y : Bool) (n : Nat) (h : HostSide) : (h.advanceFollower c y n).sp0Buf = h.sp0Buf := rfl
@[simp] theorem HostSide.advanceFollower_sp0Skip (c y : Bool) (n : Nat) (h : HostSide) : (h.advanceFollower c y n).sp0Skip = h.sp0Skip := rfl
@[simp] theorem HostSide.advanceFollower_sp0Out (c y : Bool) (n : Nat) (h : HostSide) : (h.advanceFollower c y n).sp0Out = h.sp0Out := rfl
@[simp] theorem HostSide.advanceFollower_sp0Sent (c y : Bool) (n : Nat) (h : HostSide) : (h.advanceFollower c y n).sp0Sent = h.sp0Sent := rfl
@[simp] theorem HostSide.advanceFollower_keys (c y : Bool) (n : Nat) (h : HostSide) : (h.advanceFollower c y n).keys = h.keys := rfl
@[simp] theorem HostSide.advanceFollower_engines (c y : Bool) (n : Nat) (h : HostSide) : (h.advanceFollower c y n).engines = h.engines := rfl
@[simp] theorem HostSide.advanceFollower_cipherQ (c y : Bool) (n : Nat) (h : HostSide) : (h.advanceFollower c y n).cipherQ = h.cipherQ := rfl
@[simp] theorem HostSide.advanceFollower_ceStatus (c y : Bool) (n : Nat) (h : HostSide) : (h.advanceFollower c y n).ceStatus = h.ceStatus := rfl
@[simp] theorem HostSide.advanceFollower_ceIe (c y : Bool) (n : Nat) (h : HostSide) : (h.advanceFollower c y n).ceIe = h.ceIe := rfl
@[simp] theorem HostSide.advanceFollower_cus (c y : Bool) (n : Nat) (h : HostSide) : (h.advanceFollower c y n).cus = h.cus := rfl
@[simp] theorem HostSide.advanceFollower_mem (c y : Bool) (n : Nat) (h : HostSide) : (h.advanceFollower c y n).mem = h.mem := rfl
@[simp] theorem HostSide.advanceFollower_flash (c y : Bool) (n : Nat) (h : HostSide) : (h.advanceFollower c y n).flash = h.flash := rfl
@[simp] theorem HostSide.advanceFollower_stamps (c y : Bool) (n : Nat) (h : HostSide) : (h.advanceFollower c y n).stamps = h.stamps := rfl
@[simp] theorem HostSide.advanceFollower_adjusted (c y : Bool) (n : Nat) (h : HostSide) : (h.advanceFollower c y n).adjusted = h.adjusted := rfl
@[simp] theorem HostSide.advanceFollower_seqNext (c y : Bool) (n : Nat) (h : HostSide) : (h.advanceFollower c y n).seqNext = h.seqNext := rfl
@[simp] theorem HostSide.advanceFollower_transport (c y : Bool) (n : Nat) (h : HostSide) : (h.advanceFollower c y n).transport = h.transport := rfl
@[simp] theorem HostSide.advanceFollower_margins (c y : Bool) (n : Nat) (h : HostSide) : (h.advanceFollower c y n).margins = h.margins := rfl
@[simp] theorem HostSide.advanceFollower_marginLow (c y : Bool) (n : Nat) (h : HostSide) : (h.advanceFollower c y n).marginLow = h.marginLow := rfl
@[simp] theorem HostSide.advanceFollower_marginOwed (c y : Bool) (n : Nat) (h : HostSide) : (h.advanceFollower c y n).marginOwed = h.marginOwed := rfl
@[simp] theorem HostSide.advanceFollower_marginOkFrom (c y : Bool) (n : Nat) (h : HostSide) : (h.advanceFollower c y n).marginOkFrom = h.marginOkFrom := rfl
@[simp] theorem HostSide.advanceFollower_readData (c y : Bool) (n : Nat) (h : HostSide) : (h.advanceFollower c y n).readData = h.readData := rfl
@[simp] theorem HostSide.advanceFollower_readsDone (c y : Bool) (n : Nat) (h : HostSide) : (h.advanceFollower c y n).readsDone = h.readsDone := rfl
@[simp] theorem HostSide.advanceFollower_readBytes (c y : Bool) (n : Nat) (h : HostSide) : (h.advanceFollower c y n).readBytes = h.readBytes := rfl
@[simp] theorem HostSide.advanceFollower_nodeIdSeen (c y : Bool) (n : Nat) (h : HostSide) : (h.advanceFollower c y n).nodeIdSeen = h.nodeIdSeen := rfl
@[simp] theorem HostSide.advanceFollower_freeCtr (c y : Bool) (n : Nat) (h : HostSide) : (h.advanceFollower c y n).freeCtr = h.freeCtr := rfl

@[simp] theorem State.advance_host_running (dt : Nat) (s : State) : (s.advance dt).host.running = s.host.running := by
  simp only [State.advance]; split <;> rfl
@[simp] theorem State.advance_host_bootId (dt : Nat) (s : State) : (s.advance dt).host.bootId = s.host.bootId := by
  simp only [State.advance]; split <;> rfl
@[simp] theorem State.advance_host_inSync (dt : Nat) (s : State) : (s.advance dt).host.inSync = s.host.inSync := by
  simp only [State.advance]; split <;> rfl
@[simp] theorem State.advance_host_firstSync (dt : Nat) (s : State) : (s.advance dt).host.firstSync = s.host.firstSync := by
  simp only [State.advance]; split <;> rfl
@[simp] theorem State.advance_host_lastSync (dt : Nat) (s : State) : (s.advance dt).host.lastSync = s.host.lastSync := by
  simp only [State.advance]; split <;> rfl
@[simp] theorem State.advance_host_syncStep (dt : Nat) (s : State) : (s.advance dt).host.syncStep = s.host.syncStep := by
  simp only [State.advance]; split <;> rfl
@[simp] theorem State.advance_host_timeHi (dt : Nat) (s : State) : (s.advance dt).host.timeHi = s.host.timeHi := by
  simp only [State.advance]; split <;> rfl
@[simp] theorem State.advance_host_ppsOut (dt : Nat) (s : State) : (s.advance dt).host.ppsOut = s.host.ppsOut := by
  simp only [State.advance]; split <;> rfl
@[simp] theorem State.advance_host_accepted (dt : Nat) (s : State) : (s.advance dt).host.accepted = s.host.accepted := by
  simp only [State.advance]; split <;> rfl
@[simp] theorem State.advance_host_queues (dt : Nat) (s : State) : (s.advance dt).host.queues = s.host.queues := by
  simp only [State.advance]; split <;> rfl
@[simp] theorem State.advance_host_txq (dt : Nat) (s : State) : (s.advance dt).host.txq = s.host.txq := by
  simp only [State.advance]; split <;> rfl
@[simp] theorem State.advance_host_txHwm (dt : Nat) (s : State) : (s.advance dt).host.txHwm = s.host.txHwm := by
  simp only [State.advance]; split <;> rfl
@[simp] theorem State.advance_host_cuts (dt : Nat) (s : State) : (s.advance dt).host.cuts = s.host.cuts := by
  simp only [State.advance]; split <;> rfl
@[simp] theorem State.advance_host_rxOrder (dt : Nat) (s : State) : (s.advance dt).host.rxOrder = s.host.rxOrder := by
  simp only [State.advance]; split <;> rfl
@[simp] theorem State.advance_host_notes (dt : Nat) (s : State) : (s.advance dt).host.notes = s.host.notes := by
  simp only [State.advance]; split <;> rfl
@[simp] theorem State.advance_host_downAt (dt : Nat) (s : State) : (s.advance dt).host.downAt = s.host.downAt := by
  simp only [State.advance]; split <;> rfl
@[simp] theorem State.advance_host_discarded (dt : Nat) (s : State) : (s.advance dt).host.discarded = s.host.discarded := by
  simp only [State.advance]; split <;> rfl
@[simp] theorem State.advance_host_ints (dt : Nat) (s : State) : (s.advance dt).host.ints = s.host.ints := by
  simp only [State.advance]; split <;> rfl
@[simp] theorem State.advance_host_pci (dt : Nat) (s : State) : (s.advance dt).host.pci = s.host.pci := by
  simp only [State.advance]; split <;> rfl
@[simp] theorem State.advance_host_jtag (dt : Nat) (s : State) : (s.advance dt).host.jtag = s.host.jtag := by
  simp only [State.advance]; split <;> rfl
@[simp] theorem State.advance_host_tdo (dt : Nat) (s : State) : (s.advance dt).host.tdo = s.host.tdo := by
  simp only [State.advance]; split <;> rfl
@[simp] theorem State.advance_host_rings (dt : Nat) (s : State) : (s.advance dt).host.rings = s.host.rings := by
  simp only [State.advance]; split <;> rfl
@[simp] theorem State.advance_host_eth (dt : Nat) (s : State) : (s.advance dt).host.eth = s.host.eth := by
  simp only [State.advance]; split <;> rfl
@[simp] theorem State.advance_host_ptp (dt : Nat) (s : State) : (s.advance dt).host.ptp = s.host.ptp := by
  simp only [State.advance]; split <;> rfl
@[simp] theorem State.advance_host_serials (dt : Nat) (s : State) : (s.advance dt).host.serials = s.host.serials := by
  simp only [State.advance]; split <;> rfl
@[simp] theorem State.advance_host_sp0Buf (dt : Nat) (s : State) : (s.advance dt).host.sp0Buf = s.host.sp0Buf := by
  simp only [State.advance]; split <;> rfl
@[simp] theorem State.advance_host_sp0Skip (dt : Nat) (s : State) : (s.advance dt).host.sp0Skip = s.host.sp0Skip := by
  simp only [State.advance]; split <;> rfl
@[simp] theorem State.advance_host_sp0Out (dt : Nat) (s : State) : (s.advance dt).host.sp0Out = s.host.sp0Out := by
  simp only [State.advance]; split <;> rfl
@[simp] theorem State.advance_host_sp0Sent (dt : Nat) (s : State) : (s.advance dt).host.sp0Sent = s.host.sp0Sent := by
  simp only [State.advance]; split <;> rfl
@[simp] theorem State.advance_host_keys (dt : Nat) (s : State) : (s.advance dt).host.keys = s.host.keys := by
  simp only [State.advance]; split <;> rfl
@[simp] theorem State.advance_host_engines (dt : Nat) (s : State) : (s.advance dt).host.engines = s.host.engines := by
  simp only [State.advance]; split <;> rfl
@[simp] theorem State.advance_host_cipherQ (dt : Nat) (s : State) : (s.advance dt).host.cipherQ = s.host.cipherQ := by
  simp only [State.advance]; split <;> rfl
@[simp] theorem State.advance_host_ceStatus (dt : Nat) (s : State) : (s.advance dt).host.ceStatus = s.host.ceStatus := by
  simp only [State.advance]; split <;> rfl
@[simp] theorem State.advance_host_ceIe (dt : Nat) (s : State) : (s.advance dt).host.ceIe = s.host.ceIe := by
  simp only [State.advance]; split <;> rfl
@[simp] theorem State.advance_host_cus (dt : Nat) (s : State) : (s.advance dt).host.cus = s.host.cus := by
  simp only [State.advance]; split <;> rfl
@[simp] theorem State.advance_host_mem (dt : Nat) (s : State) : (s.advance dt).host.mem = s.host.mem := by
  simp only [State.advance]; split <;> rfl
@[simp] theorem State.advance_host_flash (dt : Nat) (s : State) : (s.advance dt).host.flash = s.host.flash := by
  simp only [State.advance]; split <;> rfl
@[simp] theorem State.advance_host_stamps (dt : Nat) (s : State) : (s.advance dt).host.stamps = s.host.stamps := by
  simp only [State.advance]; split <;> rfl
@[simp] theorem State.advance_host_adjusted (dt : Nat) (s : State) : (s.advance dt).host.adjusted = s.host.adjusted := by
  simp only [State.advance]; split <;> rfl
@[simp] theorem State.advance_host_seqNext (dt : Nat) (s : State) : (s.advance dt).host.seqNext = s.host.seqNext := by
  simp only [State.advance]; split <;> rfl
@[simp] theorem State.advance_host_transport (dt : Nat) (s : State) : (s.advance dt).host.transport = s.host.transport := by
  simp only [State.advance]; split <;> rfl
@[simp] theorem State.advance_host_margins (dt : Nat) (s : State) : (s.advance dt).host.margins = s.host.margins := by
  simp only [State.advance]; split <;> rfl
@[simp] theorem State.advance_host_marginLow (dt : Nat) (s : State) : (s.advance dt).host.marginLow = s.host.marginLow := by
  simp only [State.advance]; split <;> rfl
@[simp] theorem State.advance_host_marginOwed (dt : Nat) (s : State) : (s.advance dt).host.marginOwed = s.host.marginOwed := by
  simp only [State.advance]; split <;> rfl
@[simp] theorem State.advance_host_marginOkFrom (dt : Nat) (s : State) : (s.advance dt).host.marginOkFrom = s.host.marginOkFrom := by
  simp only [State.advance]; split <;> rfl
@[simp] theorem State.advance_host_readData (dt : Nat) (s : State) : (s.advance dt).host.readData = s.host.readData := by
  simp only [State.advance]; split <;> rfl
@[simp] theorem State.advance_host_readsDone (dt : Nat) (s : State) : (s.advance dt).host.readsDone = s.host.readsDone := by
  simp only [State.advance]; split <;> rfl
@[simp] theorem State.advance_host_readBytes (dt : Nat) (s : State) : (s.advance dt).host.readBytes = s.host.readBytes := by
  simp only [State.advance]; split <;> rfl
@[simp] theorem State.advance_host_nodeIdSeen (dt : Nat) (s : State) : (s.advance dt).host.nodeIdSeen = s.host.nodeIdSeen := by
  simp only [State.advance]; split <;> rfl
@[simp] theorem State.advance_host_freeCtr (dt : Nat) (s : State) : (s.advance dt).host.freeCtr = s.host.freeCtr := by
  simp only [State.advance]; split <;> rfl

/-! ## The two sides apart -/

@[simp] theorem State.onHost_dev (f : HostSide → HostSide) (s : State) : (s.onHost f).dev = s.dev := rfl
@[simp] theorem State.onHost_line (f : HostSide → HostSide) (s : State) : (s.onHost f).line = s.line := rfl
@[simp] theorem State.onHost_link (f : HostSide → HostSide) (s : State) : (s.onHost f).link = s.link := rfl
@[simp] theorem State.onHost_hbMem (f : HostSide → HostSide) (s : State) : (s.onHost f).hbMem = s.hbMem := rfl
@[simp] theorem State.onHost_lbMem (f : HostSide → HostSide) (s : State) : (s.onHost f).lbMem = s.lbMem := rfl
@[simp] theorem State.onHost_hostRam (f : HostSide → HostSide) (s : State) : (s.onHost f).hostRam = s.hostRam := rfl
@[simp] theorem State.onHost_pending (f : HostSide → HostSide) (s : State) : (s.onHost f).pending = s.pending := rfl
@[simp] theorem State.onHost_host (f : HostSide → HostSide) (s : State) : (s.onHost f).host = f s.host := rfl

@[simp] theorem State.flush_dev (s : State) : s.flush.dev = s.dev := by
  simp only [State.flush]; split <;> rfl
@[simp] theorem State.flush_host (s : State) : s.flush.host = s.host := by
  simp only [State.flush]; split <;> rfl
@[simp] theorem State.flush_hbMem (s : State) : s.flush.hbMem = s.hbMem := by
  simp only [State.flush]; split <;> rfl
@[simp] theorem State.flush_lbMem (s : State) : s.flush.lbMem = s.lbMem := by
  simp only [State.flush]; split <;> rfl
@[simp] theorem State.flush_hostRam (s : State) : s.flush.hostRam = s.hostRam := by
  simp only [State.flush]; split <;> rfl
@[simp] theorem State.flush_pending (s : State) : s.flush.pending = s.pending := by
  simp only [State.flush]; split <;> rfl

@[simp] theorem State.onLine_dev (f : Line → Line) (s : State) : (s.onLine f).dev = s.dev := by
  simp [State.onLine]
@[simp] theorem State.onLine_host (f : Line → Line) (s : State) : (s.onLine f).host = s.host := by
  simp [State.onLine]
@[simp] theorem State.onLine_hbMem (f : Line → Line) (s : State) : (s.onLine f).hbMem = s.hbMem := by
  simp [State.onLine]
@[simp] theorem State.onLine_lbMem (f : Line → Line) (s : State) : (s.onLine f).lbMem = s.lbMem := by
  simp [State.onLine]
@[simp] theorem State.onLine_hostRam (f : Line → Line) (s : State) : (s.onLine f).hostRam = s.hostRam := by
  simp [State.onLine]
@[simp] theorem State.onLine_pending (f : Line → Line) (s : State) : (s.onLine f).pending = s.pending := by
  simp [State.onLine]

/-- Keeping a message touches the hold and its counter alone. -/
theorem Line.holdMsg_foldl_eq (ms : List Msg) (l : Line) :
    ∃ h n, ms.foldl (fun l m => l.holdMsg m) l = { l with hold := h, holdLost := n } := by
  induction ms generalizing l with
  | nil => exact ⟨l.hold, l.holdLost, rfl⟩
  | cons m t ih =>
    simp only [List.foldl_cons]
    obtain ⟨h, n, e⟩ := ih (l.holdMsg m)
    refine ⟨h, n, e.trans ?_⟩
    simp only [Line.holdMsg]
    split
    · rfl
    · split <;> rfl

@[simp] theorem State.flush_line_ports (s : State) : s.flush.line.ports = s.line.ports := by
  simp only [State.flush]; split
  · rfl
  · obtain ⟨h, n, e⟩ := Line.holdMsg_foldl_eq s.line.out { s.line with out := [] }
    simp only [e]
@[simp] theorem State.flush_line_chans (s : State) : s.flush.line.chans = s.line.chans := by
  simp only [State.flush]; split
  · rfl
  · obtain ⟨h, n, e⟩ := Line.holdMsg_foldl_eq s.line.out { s.line with out := [] }
    simp only [e]
@[simp] theorem State.flush_line_time (s : State) : s.flush.line.time = s.line.time := by
  simp only [State.flush]; split
  · rfl
  · obtain ⟨h, n, e⟩ := Line.holdMsg_foldl_eq s.line.out { s.line with out := [] }
    simp only [e]
@[simp] theorem State.flush_line_sched (s : State) : s.flush.line.sched = s.line.sched := by
  simp only [State.flush]; split
  · rfl
  · obtain ⟨h, n, e⟩ := Line.holdMsg_foldl_eq s.line.out { s.line with out := [] }
    simp only [e]
@[simp] theorem State.flush_line_relay (s : State) : s.flush.line.relay = s.line.relay := by
  simp only [State.flush]; split
  · rfl
  · obtain ⟨h, n, e⟩ := Line.holdMsg_foldl_eq s.line.out { s.line with out := [] }
    simp only [e]
@[simp] theorem State.flush_line_links (s : State) : s.flush.line.links = s.line.links := by
  simp only [State.flush]; split
  · rfl
  · obtain ⟨h, n, e⟩ := Line.holdMsg_foldl_eq s.line.out { s.line with out := [] }
    simp only [e]
@[simp] theorem State.flush_line_jobs (s : State) : s.flush.line.jobs = s.line.jobs := by
  simp only [State.flush]; split
  · rfl
  · obtain ⟨h, n, e⟩ := Line.holdMsg_foldl_eq s.line.out { s.line with out := [] }
    simp only [e]
@[simp] theorem State.flush_line_headers (s : State) : s.flush.line.headers = s.line.headers := by
  simp only [State.flush]; split
  · rfl
  · obtain ⟨h, n, e⟩ := Line.holdMsg_foldl_eq s.line.out { s.line with out := [] }
    simp only [e]
@[simp] theorem State.flush_line_maps (s : State) : s.flush.line.maps = s.line.maps := by
  simp only [State.flush]; split
  · rfl
  · obtain ⟨h, n, e⟩ := Line.holdMsg_foldl_eq s.line.out { s.line with out := [] }
    simp only [e]
@[simp] theorem State.flush_line_mapCtrs (s : State) : s.flush.line.mapCtrs = s.line.mapCtrs := by
  simp only [State.flush]; split
  · rfl
  · obtain ⟨h, n, e⟩ := Line.holdMsg_foldl_eq s.line.out { s.line with out := [] }
    simp only [e]
@[simp] theorem State.flush_line_mem (s : State) : s.flush.line.mem = s.line.mem := by
  simp only [State.flush]; split
  · rfl
  · obtain ⟨h, n, e⟩ := Line.holdMsg_foldl_eq s.line.out { s.line with out := [] }
    simp only [e]
@[simp] theorem State.flush_line_clock (s : State) : s.flush.line.clock = s.line.clock := by
  simp only [State.flush]; split
  · rfl
  · obtain ⟨h, n, e⟩ := Line.holdMsg_foldl_eq s.line.out { s.line with out := [] }
    simp only [e]
@[simp] theorem State.flush_line_stamps (s : State) : s.flush.line.stamps = s.line.stamps := by
  simp only [State.flush]; split
  · rfl
  · obtain ⟨h, n, e⟩ := Line.holdMsg_foldl_eq s.line.out { s.line with out := [] }
    simp only [e]
@[simp] theorem State.flush_line_adjusted (s : State) : s.flush.line.adjusted = s.line.adjusted := by
  simp only [State.flush]; split
  · rfl
  · obtain ⟨h, n, e⟩ := Line.holdMsg_foldl_eq s.line.out { s.line with out := [] }
    simp only [e]
@[simp] theorem State.flush_line_nodeId (s : State) : s.flush.line.nodeId = s.line.nodeId := by
  simp only [State.flush]; split
  · rfl
  · obtain ⟨h, n, e⟩ := Line.holdMsg_foldl_eq s.line.out { s.line with out := [] }
    simp only [e]
@[simp] theorem State.flush_line_netId (s : State) : s.flush.line.netId = s.line.netId := by
  simp only [State.flush]; split
  · rfl
  · obtain ⟨h, n, e⟩ := Line.holdMsg_foldl_eq s.line.out { s.line with out := [] }
    simp only [e]
@[simp] theorem State.flush_line_stageAhead (s : State) : s.flush.line.stageAhead = s.line.stageAhead := by
  simp only [State.flush]; split
  · rfl
  · obtain ⟨h, n, e⟩ := Line.holdMsg_foldl_eq s.line.out { s.line with out := [] }
    simp only [e]
@[simp] theorem State.flush_line_linkAge (s : State) : s.flush.line.linkAge = s.line.linkAge := by
  simp only [State.flush]; split
  · rfl
  · obtain ⟨h, n, e⟩ := Line.holdMsg_foldl_eq s.line.out { s.line with out := [] }
    simp only [e]
@[simp] theorem State.flush_line_reportLog (s : State) : s.flush.line.reportLog = s.line.reportLog := by
  simp only [State.flush]; split
  · rfl
  · obtain ⟨h, n, e⟩ := Line.holdMsg_foldl_eq s.line.out { s.line with out := [] }
    simp only [e]
@[simp] theorem State.flush_line_seqs (s : State) : s.flush.line.seqs = s.line.seqs := by
  simp only [State.flush]; split
  · rfl
  · obtain ⟨h, n, e⟩ := Line.holdMsg_foldl_eq s.line.out { s.line with out := [] }
    simp only [e]
@[simp] theorem State.flush_line_beacons (s : State) : s.flush.line.beacons = s.line.beacons := by
  simp only [State.flush]; split
  · rfl
  · obtain ⟨h, n, e⟩ := Line.holdMsg_foldl_eq s.line.out { s.line with out := [] }
    simp only [e]
@[simp] theorem State.flush_line_ttIn (s : State) : s.flush.line.ttIn = s.line.ttIn := by
  simp only [State.flush]; split
  · rfl
  · obtain ⟨h, n, e⟩ := Line.holdMsg_foldl_eq s.line.out { s.line with out := [] }
    simp only [e]
@[simp] theorem State.flush_line_running (s : State) : s.flush.line.running = s.line.running := by
  simp only [State.flush]; split
  · rfl
  · obtain ⟨h, n, e⟩ := Line.holdMsg_foldl_eq s.line.out { s.line with out := [] }
    simp only [e]
@[simp] theorem State.flush_line_ready (s : State) : s.flush.line.ready = s.line.ready := by
  simp only [State.flush]; split
  · rfl
  · obtain ⟨h, n, e⟩ := Line.holdMsg_foldl_eq s.line.out { s.line with out := [] }
    simp only [e]
@[simp] theorem State.flush_line_bootId (s : State) : s.flush.line.bootId = s.line.bootId := by
  simp only [State.flush]; split
  · rfl
  · obtain ⟨h, n, e⟩ := Line.holdMsg_foldl_eq s.line.out { s.line with out := [] }
    simp only [e]
@[simp] theorem State.flush_line_release (s : State) : s.flush.line.release = s.line.release := by
  simp only [State.flush]; split
  · rfl
  · obtain ⟨h, n, e⟩ := Line.holdMsg_foldl_eq s.line.out { s.line with out := [] }
    simp only [e]
@[simp] theorem State.flush_line_lastReset (s : State) : s.flush.line.lastReset = s.line.lastReset := by
  simp only [State.flush]; split
  · rfl
  · obtain ⟨h, n, e⟩ := Line.holdMsg_foldl_eq s.line.out { s.line with out := [] }
    simp only [e]
@[simp] theorem State.flush_line_down (s : State) : s.flush.line.down = s.line.down := by
  simp only [State.flush]; split
  · rfl
  · obtain ⟨h, n, e⟩ := Line.holdMsg_foldl_eq s.line.out { s.line with out := [] }
    simp only [e]
@[simp] theorem State.flush_line_margins (s : State) : s.flush.line.margins = s.line.margins := by
  simp only [State.flush]; split
  · rfl
  · obtain ⟨h, n, e⟩ := Line.holdMsg_foldl_eq s.line.out { s.line with out := [] }
    simp only [e]
@[simp] theorem State.flush_line_marginLow (s : State) : s.flush.line.marginLow = s.line.marginLow := by
  simp only [State.flush]; split
  · rfl
  · obtain ⟨h, n, e⟩ := Line.holdMsg_foldl_eq s.line.out { s.line with out := [] }
    simp only [e]
@[simp] theorem State.flush_line_marginOwed (s : State) : s.flush.line.marginOwed = s.line.marginOwed := by
  simp only [State.flush]; split
  · rfl
  · obtain ⟨h, n, e⟩ := Line.holdMsg_foldl_eq s.line.out { s.line with out := [] }
    simp only [e]
@[simp] theorem State.flush_line_marginOkFrom (s : State) : s.flush.line.marginOkFrom = s.line.marginOkFrom := by
  simp only [State.flush]; split
  · rfl
  · obtain ⟨h, n, e⟩ := Line.holdMsg_foldl_eq s.line.out { s.line with out := [] }
    simp only [e]
@[simp] theorem State.flush_line_fw (s : State) : s.flush.line.fw = s.line.fw := by
  simp only [State.flush]; split
  · rfl
  · obtain ⟨h, n, e⟩ := Line.holdMsg_foldl_eq s.line.out { s.line with out := [] }
    simp only [e]
@[simp] theorem State.flush_line_holdDiscarded (s : State) : s.flush.line.holdDiscarded = s.line.holdDiscarded := by
  simp only [State.flush]; split
  · rfl
  · obtain ⟨h, n, e⟩ := Line.holdMsg_foldl_eq s.line.out { s.line with out := [] }
    simp only [e]

/-- Sending touches the flight alone. -/
theorem BarrierEnd.send_foldl_eq (t : Tick) (ms : List Msg) (e : BarrierEnd) :
    ms.foldl (fun e m => e.send t m) e = { e with flight := e.flight ++ ms.map (fun m => ⟨m, t, 0, false⟩) } := by
  induction ms generalizing e with
  | nil => simp
  | cons m r ih => rw [List.foldl_cons, ih]; simp [BarrierEnd.send]

@[simp] theorem State.flush_link_host (s : State) : s.flush.link.host = s.link.host := by
  simp only [State.flush]; split <;> rfl
@[simp] theorem State.flush_link_ctrs (s : State) : s.flush.link.ctrs = s.link.ctrs := by
  simp only [State.flush]; split <;> rfl
@[simp] theorem State.flush_link_timingUp (s : State) : s.flush.link.timingUp = s.link.timingUp := by
  simp only [State.flush]; split <;> rfl
@[simp] theorem State.flush_link_suspended (s : State) : s.flush.link.suspended = s.link.suspended := by
  simp only [State.flush]; split <;> rfl
@[simp] theorem State.flush_link_line_up (s : State) : s.flush.link.line.up = s.link.line.up := by
  simp only [State.flush]; split
  · simp [BarrierEnd.send_foldl_eq]
  · rfl
/-- A flush leaves nothing to send. -/
@[simp] theorem State.flush_line_out (s : State) : s.flush.line.out = [] := by
  simp only [State.flush]; split
  · rfl
  · obtain ⟨h, n, e⟩ := Line.holdMsg_foldl_eq s.line.out { s.line with out := [] }
    simp only [e]

/-! ## Registers through BAR0 -/

@[simp] theorem State.bar0H_dev (f : HostSide → HostSide) (s : State) : (s.bar0H f).dev = s.dev := by
  simp only [State.bar0H, State.bar0]; split <;> rfl
@[simp] theorem State.bar0H_line (f : HostSide → HostSide) (s : State) : (s.bar0H f).line = s.line := by
  simp only [State.bar0H, State.bar0]; split <;> rfl
@[simp] theorem State.bar0H_link (f : HostSide → HostSide) (s : State) : (s.bar0H f).link = s.link := by
  simp only [State.bar0H, State.bar0]; split <;> rfl
@[simp] theorem State.bar0H_hbMem (f : HostSide → HostSide) (s : State) : (s.bar0H f).hbMem = s.hbMem := by
  simp only [State.bar0H, State.bar0]; split <;> rfl
@[simp] theorem State.bar0H_lbMem (f : HostSide → HostSide) (s : State) : (s.bar0H f).lbMem = s.lbMem := by
  simp only [State.bar0H, State.bar0]; split <;> rfl
@[simp] theorem State.bar0H_hostRam (f : HostSide → HostSide) (s : State) : (s.bar0H f).hostRam = s.hostRam := by
  simp only [State.bar0H, State.bar0]; split <;> rfl
@[simp] theorem State.bar0H_pending (f : HostSide → HostSide) (s : State) : (s.bar0H f).pending = s.pending := by
  simp only [State.bar0H, State.bar0]; split <;> rfl

/-! ## Replies (R301) -/

@[simp] theorem State.answerH_dev (i : CmdInfo) (a : Accepted) (r : EpochRef) (st : Status) (ws : List W16) (s : State) :
    (s.answerH i a r st ws).dev = s.dev := rfl
@[simp] theorem State.answerH_line (i : CmdInfo) (a : Accepted) (r : EpochRef) (st : Status) (ws : List W16) (s : State) :
    (s.answerH i a r st ws).line = s.line := rfl
@[simp] theorem State.answerH_link (i : CmdInfo) (a : Accepted) (r : EpochRef) (st : Status) (ws : List W16) (s : State) :
    (s.answerH i a r st ws).link = s.link := rfl
@[simp] theorem State.answerH_hbMem (i : CmdInfo) (a : Accepted) (r : EpochRef) (st : Status) (ws : List W16) (s : State) :
    (s.answerH i a r st ws).hbMem = s.hbMem := rfl
@[simp] theorem State.answerH_lbMem (i : CmdInfo) (a : Accepted) (r : EpochRef) (st : Status) (ws : List W16) (s : State) :
    (s.answerH i a r st ws).lbMem = s.lbMem := rfl
@[simp] theorem State.answerH_hostRam (i : CmdInfo) (a : Accepted) (r : EpochRef) (st : Status) (ws : List W16) (s : State) :
    (s.answerH i a r st ws).hostRam = s.hostRam := rfl
@[simp] theorem State.answerH_pending (i : CmdInfo) (a : Accepted) (r : EpochRef) (st : Status) (ws : List W16) (s : State) :
    (s.answerH i a r st ws).pending = s.pending := rfl
@[simp] theorem State.answerL_dev (i : CmdInfo) (a : Accepted) (r : EpochRef) (st : Status) (ws : List W16) (s b : State) :
    (s.answerL i a r st ws b).dev = s.dev := by
  simp [State.answerL, State.answerWith]
@[simp] theorem State.answerL_host (i : CmdInfo) (a : Accepted) (r : EpochRef) (st : Status) (ws : List W16) (s b : State) :
    (s.answerL i a r st ws b).host = s.host := by
  simp [State.answerL, State.answerWith]
@[simp] theorem State.answerL_hbMem (i : CmdInfo) (a : Accepted) (r : EpochRef) (st : Status) (ws : List W16) (s b : State) :
    (s.answerL i a r st ws b).hbMem = s.hbMem := by
  simp [State.answerL, State.answerWith]
@[simp] theorem State.answerL_lbMem (i : CmdInfo) (a : Accepted) (r : EpochRef) (st : Status) (ws : List W16) (s b : State) :
    (s.answerL i a r st ws b).lbMem = s.lbMem := by
  simp [State.answerL, State.answerWith]
@[simp] theorem State.answerL_hostRam (i : CmdInfo) (a : Accepted) (r : EpochRef) (st : Status) (ws : List W16) (s b : State) :
    (s.answerL i a r st ws b).hostRam = s.hostRam := by
  simp [State.answerL, State.answerWith]
@[simp] theorem State.answerL_pending (i : CmdInfo) (a : Accepted) (r : EpochRef) (st : Status) (ws : List W16) (s b : State) :
    (s.answerL i a r st ws b).pending = s.pending := by
  simp [State.answerL, State.answerWith]

/-! ## Timestamps and messages of the line side -/

@[simp] theorem Line.stamp_ports (src : Nat) (t : Tick) (l : Line) : (l.stamp src t).2.2.ports = l.ports := rfl
@[simp] theorem Line.stamp_chans (src : Nat) (t : Tick) (l : Line) : (l.stamp src t).2.2.chans = l.chans := rfl
@[simp] theorem Line.stamp_time (src : Nat) (t : Tick) (l : Line) : (l.stamp src t).2.2.time = l.time := rfl
@[simp] theorem Line.stamp_sched (src : Nat) (t : Tick) (l : Line) : (l.stamp src t).2.2.sched = l.sched := rfl
@[simp] theorem Line.stamp_relay (src : Nat) (t : Tick) (l : Line) : (l.stamp src t).2.2.relay = l.relay := rfl
@[simp] theorem Line.stamp_links (src : Nat) (t : Tick) (l : Line) : (l.stamp src t).2.2.links = l.links := rfl
@[simp] theorem Line.stamp_jobs (src : Nat) (t : Tick) (l : Line) : (l.stamp src t).2.2.jobs = l.jobs := rfl
@[simp] theorem Line.stamp_headers (src : Nat) (t : Tick) (l : Line) : (l.stamp src t).2.2.headers = l.headers := rfl
@[simp] theorem Line.stamp_maps (src : Nat) (t : Tick) (l : Line) : (l.stamp src t).2.2.maps = l.maps := rfl
@[simp] theorem Line.stamp_mapCtrs (src : Nat) (t : Tick) (l : Line) : (l.stamp src t).2.2.mapCtrs = l.mapCtrs := rfl
@[simp] theorem Line.stamp_mem (src : Nat) (t : Tick) (l : Line) : (l.stamp src t).2.2.mem = l.mem := rfl
@[simp] theorem Line.stamp_clock (src : Nat) (t : Tick) (l : Line) : (l.stamp src t).2.2.clock = l.clock := rfl
@[simp] theorem Line.stamp_nodeId (src : Nat) (t : Tick) (l : Line) : (l.stamp src t).2.2.nodeId = l.nodeId := rfl
@[simp] theorem Line.stamp_netId (src : Nat) (t : Tick) (l : Line) : (l.stamp src t).2.2.netId = l.netId := rfl
@[simp] theorem Line.stamp_stageAhead (src : Nat) (t : Tick) (l : Line) : (l.stamp src t).2.2.stageAhead = l.stageAhead := rfl
@[simp] theorem Line.stamp_linkAge (src : Nat) (t : Tick) (l : Line) : (l.stamp src t).2.2.linkAge = l.linkAge := rfl
@[simp] theorem Line.stamp_reportLog (src : Nat) (t : Tick) (l : Line) : (l.stamp src t).2.2.reportLog = l.reportLog := rfl
@[simp] theorem Line.stamp_seqs (src : Nat) (t : Tick) (l : Line) : (l.stamp src t).2.2.seqs = l.seqs := rfl
@[simp] theorem Line.stamp_beacons (src : Nat) (t : Tick) (l : Line) : (l.stamp src t).2.2.beacons = l.beacons := rfl
@[simp] theorem Line.stamp_ttIn (src : Nat) (t : Tick) (l : Line) : (l.stamp src t).2.2.ttIn = l.ttIn := rfl
@[simp] theorem Line.stamp_running (src : Nat) (t : Tick) (l : Line) : (l.stamp src t).2.2.running = l.running := rfl
@[simp] theorem Line.stamp_ready (src : Nat) (t : Tick) (l : Line) : (l.stamp src t).2.2.ready = l.ready := rfl
@[simp] theorem Line.stamp_bootId (src : Nat) (t : Tick) (l : Line) : (l.stamp src t).2.2.bootId = l.bootId := rfl
@[simp] theorem Line.stamp_release (src : Nat) (t : Tick) (l : Line) : (l.stamp src t).2.2.release = l.release := rfl
@[simp] theorem Line.stamp_lastReset (src : Nat) (t : Tick) (l : Line) : (l.stamp src t).2.2.lastReset = l.lastReset := rfl
@[simp] theorem Line.stamp_down (src : Nat) (t : Tick) (l : Line) : (l.stamp src t).2.2.down = l.down := rfl
@[simp] theorem Line.stamp_margins (src : Nat) (t : Tick) (l : Line) : (l.stamp src t).2.2.margins = l.margins := rfl
@[simp] theorem Line.stamp_marginLow (src : Nat) (t : Tick) (l : Line) : (l.stamp src t).2.2.marginLow = l.marginLow := rfl
@[simp] theorem Line.stamp_marginOwed (src : Nat) (t : Tick) (l : Line) : (l.stamp src t).2.2.marginOwed = l.marginOwed := rfl
@[simp] theorem Line.stamp_marginOkFrom (src : Nat) (t : Tick) (l : Line) : (l.stamp src t).2.2.marginOkFrom = l.marginOkFrom := rfl
@[simp] theorem Line.stamp_fw (src : Nat) (t : Tick) (l : Line) : (l.stamp src t).2.2.fw = l.fw := rfl
@[simp] theorem Line.stamp_out (src : Nat) (t : Tick) (l : Line) : (l.stamp src t).2.2.out = l.out := rfl
@[simp] theorem Line.stamp_hold (src : Nat) (t : Tick) (l : Line) : (l.stamp src t).2.2.hold = l.hold := rfl
@[simp] theorem Line.stamp_holdLost (src : Nat) (t : Tick) (l : Line) : (l.stamp src t).2.2.holdLost = l.holdLost := rfl
@[simp] theorem Line.stamp_holdDiscarded (src : Nat) (t : Tick) (l : Line) : (l.stamp src t).2.2.holdDiscarded = l.holdDiscarded := rfl
@[simp] theorem Line.eventAt_ports (t : Tick) (c src k : Nat) (ch : Bool) (ep : W16) (u : Nat) (ws : List W16) (l : Line) :
    (l.eventAt t c src k ch ep u ws).ports = l.ports := rfl
@[simp] theorem Line.eventAt_chans (t : Tick) (c src k : Nat) (ch : Bool) (ep : W16) (u : Nat) (ws : List W16) (l : Line) :
    (l.eventAt t c src k ch ep u ws).chans = l.chans := rfl
@[simp] theorem Line.eventAt_time (t : Tick) (c src k : Nat) (ch : Bool) (ep : W16) (u : Nat) (ws : List W16) (l : Line) :
    (l.eventAt t c src k ch ep u ws).time = l.time := rfl
@[simp] theorem Line.eventAt_sched (t : Tick) (c src k : Nat) (ch : Bool) (ep : W16) (u : Nat) (ws : List W16) (l : Line) :
    (l.eventAt t c src k ch ep u ws).sched = l.sched := rfl
@[simp] theorem Line.eventAt_relay (t : Tick) (c src k : Nat) (ch : Bool) (ep : W16) (u : Nat) (ws : List W16) (l : Line) :
    (l.eventAt t c src k ch ep u ws).relay = l.relay := rfl
@[simp] theorem Line.eventAt_links (t : Tick) (c src k : Nat) (ch : Bool) (ep : W16) (u : Nat) (ws : List W16) (l : Line) :
    (l.eventAt t c src k ch ep u ws).links = l.links := rfl
@[simp] theorem Line.eventAt_jobs (t : Tick) (c src k : Nat) (ch : Bool) (ep : W16) (u : Nat) (ws : List W16) (l : Line) :
    (l.eventAt t c src k ch ep u ws).jobs = l.jobs := rfl
@[simp] theorem Line.eventAt_headers (t : Tick) (c src k : Nat) (ch : Bool) (ep : W16) (u : Nat) (ws : List W16) (l : Line) :
    (l.eventAt t c src k ch ep u ws).headers = l.headers := rfl
@[simp] theorem Line.eventAt_maps (t : Tick) (c src k : Nat) (ch : Bool) (ep : W16) (u : Nat) (ws : List W16) (l : Line) :
    (l.eventAt t c src k ch ep u ws).maps = l.maps := rfl
@[simp] theorem Line.eventAt_mapCtrs (t : Tick) (c src k : Nat) (ch : Bool) (ep : W16) (u : Nat) (ws : List W16) (l : Line) :
    (l.eventAt t c src k ch ep u ws).mapCtrs = l.mapCtrs := rfl
@[simp] theorem Line.eventAt_mem (t : Tick) (c src k : Nat) (ch : Bool) (ep : W16) (u : Nat) (ws : List W16) (l : Line) :
    (l.eventAt t c src k ch ep u ws).mem = l.mem := rfl
@[simp] theorem Line.eventAt_clock (t : Tick) (c src k : Nat) (ch : Bool) (ep : W16) (u : Nat) (ws : List W16) (l : Line) :
    (l.eventAt t c src k ch ep u ws).clock = l.clock := rfl
@[simp] theorem Line.eventAt_nodeId (t : Tick) (c src k : Nat) (ch : Bool) (ep : W16) (u : Nat) (ws : List W16) (l : Line) :
    (l.eventAt t c src k ch ep u ws).nodeId = l.nodeId := rfl
@[simp] theorem Line.eventAt_netId (t : Tick) (c src k : Nat) (ch : Bool) (ep : W16) (u : Nat) (ws : List W16) (l : Line) :
    (l.eventAt t c src k ch ep u ws).netId = l.netId := rfl
@[simp] theorem Line.eventAt_stageAhead (t : Tick) (c src k : Nat) (ch : Bool) (ep : W16) (u : Nat) (ws : List W16) (l : Line) :
    (l.eventAt t c src k ch ep u ws).stageAhead = l.stageAhead := rfl
@[simp] theorem Line.eventAt_linkAge (t : Tick) (c src k : Nat) (ch : Bool) (ep : W16) (u : Nat) (ws : List W16) (l : Line) :
    (l.eventAt t c src k ch ep u ws).linkAge = l.linkAge := rfl
@[simp] theorem Line.eventAt_reportLog (t : Tick) (c src k : Nat) (ch : Bool) (ep : W16) (u : Nat) (ws : List W16) (l : Line) :
    (l.eventAt t c src k ch ep u ws).reportLog = l.reportLog := rfl
@[simp] theorem Line.eventAt_seqs (t : Tick) (c src k : Nat) (ch : Bool) (ep : W16) (u : Nat) (ws : List W16) (l : Line) :
    (l.eventAt t c src k ch ep u ws).seqs = l.seqs := rfl
@[simp] theorem Line.eventAt_beacons (t : Tick) (c src k : Nat) (ch : Bool) (ep : W16) (u : Nat) (ws : List W16) (l : Line) :
    (l.eventAt t c src k ch ep u ws).beacons = l.beacons := rfl
@[simp] theorem Line.eventAt_ttIn (t : Tick) (c src k : Nat) (ch : Bool) (ep : W16) (u : Nat) (ws : List W16) (l : Line) :
    (l.eventAt t c src k ch ep u ws).ttIn = l.ttIn := rfl
@[simp] theorem Line.eventAt_running (t : Tick) (c src k : Nat) (ch : Bool) (ep : W16) (u : Nat) (ws : List W16) (l : Line) :
    (l.eventAt t c src k ch ep u ws).running = l.running := rfl
@[simp] theorem Line.eventAt_ready (t : Tick) (c src k : Nat) (ch : Bool) (ep : W16) (u : Nat) (ws : List W16) (l : Line) :
    (l.eventAt t c src k ch ep u ws).ready = l.ready := rfl
@[simp] theorem Line.eventAt_bootId (t : Tick) (c src k : Nat) (ch : Bool) (ep : W16) (u : Nat) (ws : List W16) (l : Line) :
    (l.eventAt t c src k ch ep u ws).bootId = l.bootId := rfl
@[simp] theorem Line.eventAt_release (t : Tick) (c src k : Nat) (ch : Bool) (ep : W16) (u : Nat) (ws : List W16) (l : Line) :
    (l.eventAt t c src k ch ep u ws).release = l.release := rfl
@[simp] theorem Line.eventAt_lastReset (t : Tick) (c src k : Nat) (ch : Bool) (ep : W16) (u : Nat) (ws : List W16) (l : Line) :
    (l.eventAt t c src k ch ep u ws).lastReset = l.lastReset := rfl
@[simp] theorem Line.eventAt_down (t : Tick) (c src k : Nat) (ch : Bool) (ep : W16) (u : Nat) (ws : List W16) (l : Line) :
    (l.eventAt t c src k ch ep u ws).down = l.down := rfl
@[simp] theorem Line.eventAt_margins (t : Tick) (c src k : Nat) (ch : Bool) (ep : W16) (u : Nat) (ws : List W16) (l : Line) :
    (l.eventAt t c src k ch ep u ws).margins = l.margins := rfl
@[simp] theorem Line.eventAt_marginLow (t : Tick) (c src k : Nat) (ch : Bool) (ep : W16) (u : Nat) (ws : List W16) (l : Line) :
    (l.eventAt t c src k ch ep u ws).marginLow = l.marginLow := rfl
@[simp] theorem Line.eventAt_marginOwed (t : Tick) (c src k : Nat) (ch : Bool) (ep : W16) (u : Nat) (ws : List W16) (l : Line) :
    (l.eventAt t c src k ch ep u ws).marginOwed = l.marginOwed := rfl
@[simp] theorem Line.eventAt_marginOkFrom (t : Tick) (c src k : Nat) (ch : Bool) (ep : W16) (u : Nat) (ws : List W16) (l : Line) :
    (l.eventAt t c src k ch ep u ws).marginOkFrom = l.marginOkFrom := rfl
@[simp] theorem Line.eventAt_fw (t : Tick) (c src k : Nat) (ch : Bool) (ep : W16) (u : Nat) (ws : List W16) (l : Line) :
    (l.eventAt t c src k ch ep u ws).fw = l.fw := rfl
@[simp] theorem Line.eventAt_hold (t : Tick) (c src k : Nat) (ch : Bool) (ep : W16) (u : Nat) (ws : List W16) (l : Line) :
    (l.eventAt t c src k ch ep u ws).hold = l.hold := rfl
@[simp] theorem Line.eventAt_holdLost (t : Tick) (c src k : Nat) (ch : Bool) (ep : W16) (u : Nat) (ws : List W16) (l : Line) :
    (l.eventAt t c src k ch ep u ws).holdLost = l.holdLost := rfl
@[simp] theorem Line.eventAt_holdDiscarded (t : Tick) (c src k : Nat) (ch : Bool) (ep : W16) (u : Nat) (ws : List W16) (l : Line) :
    (l.eventAt t c src k ch ep u ws).holdDiscarded = l.holdDiscarded := rfl
@[simp] theorem Line.event_ports (c src k : Nat) (ch : Bool) (ep : W16) (u : Nat) (ws : List W16) (l : Line) :
    (l.event c src k ch ep u ws).ports = l.ports := rfl
@[simp] theorem Line.event_chans (c src k : Nat) (ch : Bool) (ep : W16) (u : Nat) (ws : List W16) (l : Line) :
    (l.event c src k ch ep u ws).chans = l.chans := rfl
@[simp] theorem Line.event_time (c src k : Nat) (ch : Bool) (ep : W16) (u : Nat) (ws : List W16) (l : Line) :
    (l.event c src k ch ep u ws).time = l.time := rfl
@[simp] theorem Line.event_sched (c src k : Nat) (ch : Bool) (ep : W16) (u : Nat) (ws : List W16) (l : Line) :
    (l.event c src k ch ep u ws).sched = l.sched := rfl
@[simp] theorem Line.event_relay (c src k : Nat) (ch : Bool) (ep : W16) (u : Nat) (ws : List W16) (l : Line) :
    (l.event c src k ch ep u ws).relay = l.relay := rfl
@[simp] theorem Line.event_links (c src k : Nat) (ch : Bool) (ep : W16) (u : Nat) (ws : List W16) (l : Line) :
    (l.event c src k ch ep u ws).links = l.links := rfl
@[simp] theorem Line.event_jobs (c src k : Nat) (ch : Bool) (ep : W16) (u : Nat) (ws : List W16) (l : Line) :
    (l.event c src k ch ep u ws).jobs = l.jobs := rfl
@[simp] theorem Line.event_headers (c src k : Nat) (ch : Bool) (ep : W16) (u : Nat) (ws : List W16) (l : Line) :
    (l.event c src k ch ep u ws).headers = l.headers := rfl
@[simp] theorem Line.event_maps (c src k : Nat) (ch : Bool) (ep : W16) (u : Nat) (ws : List W16) (l : Line) :
    (l.event c src k ch ep u ws).maps = l.maps := rfl
@[simp] theorem Line.event_mapCtrs (c src k : Nat) (ch : Bool) (ep : W16) (u : Nat) (ws : List W16) (l : Line) :
    (l.event c src k ch ep u ws).mapCtrs = l.mapCtrs := rfl
@[simp] theorem Line.event_mem (c src k : Nat) (ch : Bool) (ep : W16) (u : Nat) (ws : List W16) (l : Line) :
    (l.event c src k ch ep u ws).mem = l.mem := rfl
@[simp] theorem Line.event_clock (c src k : Nat) (ch : Bool) (ep : W16) (u : Nat) (ws : List W16) (l : Line) :
    (l.event c src k ch ep u ws).clock = l.clock := rfl
@[simp] theorem Line.event_nodeId (c src k : Nat) (ch : Bool) (ep : W16) (u : Nat) (ws : List W16) (l : Line) :
    (l.event c src k ch ep u ws).nodeId = l.nodeId := rfl
@[simp] theorem Line.event_netId (c src k : Nat) (ch : Bool) (ep : W16) (u : Nat) (ws : List W16) (l : Line) :
    (l.event c src k ch ep u ws).netId = l.netId := rfl
@[simp] theorem Line.event_stageAhead (c src k : Nat) (ch : Bool) (ep : W16) (u : Nat) (ws : List W16) (l : Line) :
    (l.event c src k ch ep u ws).stageAhead = l.stageAhead := rfl
@[simp] theorem Line.event_linkAge (c src k : Nat) (ch : Bool) (ep : W16) (u : Nat) (ws : List W16) (l : Line) :
    (l.event c src k ch ep u ws).linkAge = l.linkAge := rfl
@[simp] theorem Line.event_reportLog (c src k : Nat) (ch : Bool) (ep : W16) (u : Nat) (ws : List W16) (l : Line) :
    (l.event c src k ch ep u ws).reportLog = l.reportLog := rfl
@[simp] theorem Line.event_seqs (c src k : Nat) (ch : Bool) (ep : W16) (u : Nat) (ws : List W16) (l : Line) :
    (l.event c src k ch ep u ws).seqs = l.seqs := rfl
@[simp] theorem Line.event_beacons (c src k : Nat) (ch : Bool) (ep : W16) (u : Nat) (ws : List W16) (l : Line) :
    (l.event c src k ch ep u ws).beacons = l.beacons := rfl
@[simp] theorem Line.event_ttIn (c src k : Nat) (ch : Bool) (ep : W16) (u : Nat) (ws : List W16) (l : Line) :
    (l.event c src k ch ep u ws).ttIn = l.ttIn := rfl
@[simp] theorem Line.event_running (c src k : Nat) (ch : Bool) (ep : W16) (u : Nat) (ws : List W16) (l : Line) :
    (l.event c src k ch ep u ws).running = l.running := rfl
@[simp] theorem Line.event_ready (c src k : Nat) (ch : Bool) (ep : W16) (u : Nat) (ws : List W16) (l : Line) :
    (l.event c src k ch ep u ws).ready = l.ready := rfl
@[simp] theorem Line.event_bootId (c src k : Nat) (ch : Bool) (ep : W16) (u : Nat) (ws : List W16) (l : Line) :
    (l.event c src k ch ep u ws).bootId = l.bootId := rfl
@[simp] theorem Line.event_release (c src k : Nat) (ch : Bool) (ep : W16) (u : Nat) (ws : List W16) (l : Line) :
    (l.event c src k ch ep u ws).release = l.release := rfl
@[simp] theorem Line.event_lastReset (c src k : Nat) (ch : Bool) (ep : W16) (u : Nat) (ws : List W16) (l : Line) :
    (l.event c src k ch ep u ws).lastReset = l.lastReset := rfl
@[simp] theorem Line.event_down (c src k : Nat) (ch : Bool) (ep : W16) (u : Nat) (ws : List W16) (l : Line) :
    (l.event c src k ch ep u ws).down = l.down := rfl
@[simp] theorem Line.event_margins (c src k : Nat) (ch : Bool) (ep : W16) (u : Nat) (ws : List W16) (l : Line) :
    (l.event c src k ch ep u ws).margins = l.margins := rfl
@[simp] theorem Line.event_marginLow (c src k : Nat) (ch : Bool) (ep : W16) (u : Nat) (ws : List W16) (l : Line) :
    (l.event c src k ch ep u ws).marginLow = l.marginLow := rfl
@[simp] theorem Line.event_marginOwed (c src k : Nat) (ch : Bool) (ep : W16) (u : Nat) (ws : List W16) (l : Line) :
    (l.event c src k ch ep u ws).marginOwed = l.marginOwed := rfl
@[simp] theorem Line.event_marginOkFrom (c src k : Nat) (ch : Bool) (ep : W16) (u : Nat) (ws : List W16) (l : Line) :
    (l.event c src k ch ep u ws).marginOkFrom = l.marginOkFrom := rfl
@[simp] theorem Line.event_fw (c src k : Nat) (ch : Bool) (ep : W16) (u : Nat) (ws : List W16) (l : Line) :
    (l.event c src k ch ep u ws).fw = l.fw := rfl
@[simp] theorem Line.event_hold (c src k : Nat) (ch : Bool) (ep : W16) (u : Nat) (ws : List W16) (l : Line) :
    (l.event c src k ch ep u ws).hold = l.hold := rfl
@[simp] theorem Line.event_holdLost (c src k : Nat) (ch : Bool) (ep : W16) (u : Nat) (ws : List W16) (l : Line) :
    (l.event c src k ch ep u ws).holdLost = l.holdLost := rfl
@[simp] theorem Line.event_holdDiscarded (c src k : Nat) (ch : Bool) (ep : W16) (u : Nat) (ws : List W16) (l : Line) :
    (l.event c src k ch ep u ws).holdDiscarded = l.holdDiscarded := rfl
@[simp] theorem Line.emit_ports (m : Msg) (l : Line) : (l.emit m).ports = l.ports := rfl
@[simp] theorem Line.emit_chans (m : Msg) (l : Line) : (l.emit m).chans = l.chans := rfl
@[simp] theorem Line.emit_time (m : Msg) (l : Line) : (l.emit m).time = l.time := rfl
@[simp] theorem Line.emit_sched (m : Msg) (l : Line) : (l.emit m).sched = l.sched := rfl
@[simp] theorem Line.emit_relay (m : Msg) (l : Line) : (l.emit m).relay = l.relay := rfl
@[simp] theorem Line.emit_links (m : Msg) (l : Line) : (l.emit m).links = l.links := rfl
@[simp] theorem Line.emit_jobs (m : Msg) (l : Line) : (l.emit m).jobs = l.jobs := rfl
@[simp] theorem Line.emit_headers (m : Msg) (l : Line) : (l.emit m).headers = l.headers := rfl
@[simp] theorem Line.emit_maps (m : Msg) (l : Line) : (l.emit m).maps = l.maps := rfl
@[simp] theorem Line.emit_mapCtrs (m : Msg) (l : Line) : (l.emit m).mapCtrs = l.mapCtrs := rfl
@[simp] theorem Line.emit_mem (m : Msg) (l : Line) : (l.emit m).mem = l.mem := rfl
@[simp] theorem Line.emit_clock (m : Msg) (l : Line) : (l.emit m).clock = l.clock := rfl
@[simp] theorem Line.emit_stamps (m : Msg) (l : Line) : (l.emit m).stamps = l.stamps := rfl
@[simp] theorem Line.emit_adjusted (m : Msg) (l : Line) : (l.emit m).adjusted = l.adjusted := rfl
@[simp] theorem Line.emit_nodeId (m : Msg) (l : Line) : (l.emit m).nodeId = l.nodeId := rfl
@[simp] theorem Line.emit_netId (m : Msg) (l : Line) : (l.emit m).netId = l.netId := rfl
@[simp] theorem Line.emit_stageAhead (m : Msg) (l : Line) : (l.emit m).stageAhead = l.stageAhead := rfl
@[simp] theorem Line.emit_linkAge (m : Msg) (l : Line) : (l.emit m).linkAge = l.linkAge := rfl
@[simp] theorem Line.emit_reportLog (m : Msg) (l : Line) : (l.emit m).reportLog = l.reportLog := rfl
@[simp] theorem Line.emit_seqs (m : Msg) (l : Line) : (l.emit m).seqs = l.seqs := rfl
@[simp] theorem Line.emit_beacons (m : Msg) (l : Line) : (l.emit m).beacons = l.beacons := rfl
@[simp] theorem Line.emit_ttIn (m : Msg) (l : Line) : (l.emit m).ttIn = l.ttIn := rfl
@[simp] theorem Line.emit_running (m : Msg) (l : Line) : (l.emit m).running = l.running := rfl
@[simp] theorem Line.emit_ready (m : Msg) (l : Line) : (l.emit m).ready = l.ready := rfl
@[simp] theorem Line.emit_bootId (m : Msg) (l : Line) : (l.emit m).bootId = l.bootId := rfl
@[simp] theorem Line.emit_release (m : Msg) (l : Line) : (l.emit m).release = l.release := rfl
@[simp] theorem Line.emit_lastReset (m : Msg) (l : Line) : (l.emit m).lastReset = l.lastReset := rfl
@[simp] theorem Line.emit_down (m : Msg) (l : Line) : (l.emit m).down = l.down := rfl
@[simp] theorem Line.emit_margins (m : Msg) (l : Line) : (l.emit m).margins = l.margins := rfl
@[simp] theorem Line.emit_marginLow (m : Msg) (l : Line) : (l.emit m).marginLow = l.marginLow := rfl
@[simp] theorem Line.emit_marginOwed (m : Msg) (l : Line) : (l.emit m).marginOwed = l.marginOwed := rfl
@[simp] theorem Line.emit_marginOkFrom (m : Msg) (l : Line) : (l.emit m).marginOkFrom = l.marginOkFrom := rfl
@[simp] theorem Line.emit_fw (m : Msg) (l : Line) : (l.emit m).fw = l.fw := rfl
@[simp] theorem Line.emit_hold (m : Msg) (l : Line) : (l.emit m).hold = l.hold := rfl
@[simp] theorem Line.emit_holdLost (m : Msg) (l : Line) : (l.emit m).holdLost = l.holdLost := rfl
@[simp] theorem Line.emit_holdDiscarded (m : Msg) (l : Line) : (l.emit m).holdDiscarded = l.holdDiscarded := rfl

end Sys2Proof.Machine
end

