-- ==== Sys2Proof/Laws/Commands.lean ====
section
/-! SUPPORT. What judging and answering a command can do: one lemma for each side, cited by the claims about command rows. -/

namespace Sys2Proof.Laws

open Sys2Proof.Machine Sys2Proof.Safety

/-- A command that waits already is taken up as it is. -/
theorem takeCmd_held (info : CmdInfo) (cmd : Cmd) (r : State → EpochRef) (s : State) (h : s.host.holds info.opcode cmd = true) :
    s.takeCmd info cmd r = s := by
  simp [State.takeCmd, h]

/-- A command of side H that its rules answer OK or ACCEPTED has their effect and their reply. -/
theorem runH_done (info : CmdInfo) (cmd : Cmd) (unit : State → EpochRef) (rules : State → Answer) (s : State) (st : Status) (ws : List W16)
    (t : State) (ht : taken info cmd (unit s) s) (hr : rules s = ⟨st, ws, t⟩) (hf : fits cmd ws.length s)
    (hs : st = .ok ∨ st = .accepted) :
    s.runH info cmd unit rules = (t.answerSince info (acceptance info cmd s) (unit t) st ws s).readInputs := by
  obtain ⟨h1, h0, h4, h2, h3⟩ := ht
  have hf' : s.host.replyFits cmd.via (16 + ws.length) = true := hf
  have hw : resultWords st ws = ws := by rcases hs with rfl | rfl <;> simp [resultWords]
  simp only [acceptance] at h4
  simp [State.runH, takeCmd_held _ _ _ _ h0, State.runHeld, h0, h1, h2, h3, h4, hr, Answer.fit, hf', Answer.effect, hs, hw, acceptance]

/-- A command of side H that R303 refuses leaves the host side as it is, but for its reply. -/
theorem runH_refused (info : CmdInfo) (cmd : Cmd) (unit : State → EpochRef) (rules : State → Answer) (s : State) (st : Status)
    (h1 : s.serves info.opcode = true) (h0 : s.host.holds info.opcode cmd = true)
    (h2 : s.inTurn false (acceptance info cmd s) (unit s) = true) (h3 : s.judge info = some st) :
    s.runH info cmd unit rules = (s.answerH info (acceptance info cmd s) (unit s) st []).readInputs := by
  simp only [acceptance] at h2
  simp [State.runH, takeCmd_held _ _ _ _ h0, State.runHeld, h0, h1, h2, h3, acceptance]

/-- A command of side H whose expected epoch differs is answered EPOCH_STALE. -/
theorem runH_stale (info : CmdInfo) (cmd : Cmd) (unit : State → EpochRef) (rules : State → Answer) (s : State)
    (h1 : s.serves info.opcode = true) (h0 : s.host.holds info.opcode cmd = true)
    (h2 : s.inTurn false (acceptance info cmd s) (unit s) = true) (h3 : s.judge info = none) (h4 : epochDiffers cmd (unit s).epoch = true) :
    s.runH info cmd unit rules = (s.answerH info (acceptance info cmd s) (unit s) .epochStale []).readInputs := by
  simp only [acceptance] at h2
  simp [State.runH, takeCmd_held _ _ _ _ h0, State.runHeld, h0, h1, h2, h3, h4, acceptance]

/-- A command of side H whose turn has not come waits: nothing changes. -/
theorem runH_waits (info : CmdInfo) (cmd : Cmd) (unit : State → EpochRef) (rules : State → Answer) (s : State)
    (h0 : s.host.holds info.opcode cmd = true) (h : s.inTurn false (acceptance info cmd s) (unit s) = false) :
    s.runH info cmd unit rules = s := by
  simp only [acceptance] at h
  simp [State.runH, takeCmd_held _ _ _ _ h0, State.runHeld, h0, h]

/-- The CMD_LINE that has arrived for a row carries the row's command. -/
theorem arrived_cmd (op : Nat) (cmd : Cmd) (s : State) (got : Accepted × BarrierEnd) (h : s.arrived op cmd = some got) : got.1.cmd = cmd := by
  simp only [State.arrived] at h
  split at h
  · split at h
    · rename_i hc; cases h; exact hc.2.1
    · cases h
  · cases h

/-- A command of side L whose CMD_LINE has arrived, and which its rules answer OK or ACCEPTED, has their effect and their reply. -/
theorem runWith_done (info : CmdInfo) (cmd : Cmd) (sched : Bool) (expect : State → EpochRef) (reply : State → State → EpochRef)
    (rules : Accepted → State → Answer) (s : State) (got : Accepted × BarrierEnd) (st : Status) (ws : List W16) (t : State)
    (h1 : s.arrived info.opcode cmd = some got)
    (h2 : sched = true ∨ s.line.actionDue (expect s).kind (expect s).unit = false ∧ epochDiffers cmd (expect (crossing got s)).epoch = false)
    (hr : rules got.1 (crossing got s) = ⟨st, ws, t⟩) (hf : fits cmd ws.length (crossing got s)) (hs : st = .ok ∨ st = .accepted) :
    s.runWith info cmd sched expect reply rules = t.answerL info got.1 (reply (crossing got s) t) st ws (crossing got s) := by
  have hc := arrived_cmd _ _ _ _ h1
  have hf' : (crossing got s).host.replyFits got.1.cmd.via (16 + ws.length) = true := by rw [hc]; exact hf
  have hw : resultWords st ws = ws := by rcases hs with rfl | rfl <;> simp [resultWords]
  have e1 : (!sched && s.line.actionDue (expect s).kind (expect s).unit) = false := by rcases h2 with h | h <;> simp [h]
  have e2 : (!sched && epochDiffers got.1.cmd (expect (crossing got s)).epoch) = false := by rw [hc]; rcases h2 with h | h <;> simp [h]
  simp only [State.runWith, h1, e1]
  change (crossing got s).executeL info got.1 sched expect reply rules = _
  simp only [State.executeL, e2, hr, Answer.fit]
  rw [if_pos hf']
  simp [Answer.effect, hs, hw]

/-- A command of side L that is admitted and has not been sent crosses (R22, R452). -/
theorem runWith_crosses (info : CmdInfo) (cmd : Cmd) (sched : Bool) (expect : State → EpochRef) (reply : State → State → EpochRef)
    (rules : Accepted → State → Answer) (s : State) (h : crosses info cmd (expect s) s) :
    s.runWith info cmd sched expect reply rules = s.cross (acceptance info cmd s) := by
  obtain ⟨h1, h2, h3, h0, h4, h5⟩ := h
  simp only [acceptance] at h4
  simp [State.runWith, State.sendOn, takeCmd_held _ _ _ _ h0, State.sendHeld, h0, h1, h2, h3, h4, h5, acceptance]

/-- A command of side L that R303 refuses on the host side does not cross. -/
theorem runWith_refused (info : CmdInfo) (cmd : Cmd) (sched : Bool) (expect : State → EpochRef) (reply : State → State → EpochRef)
    (rules : Accepted → State → Answer) (s : State) (st : Status) (h1 : s.arrived info.opcode cmd = none) (h2 : s.serves info.opcode = true)
    (h3 : s.host.waits info.opcode cmd = false) (h0 : s.host.holds info.opcode cmd = true)
    (h4 : s.inTurn true (acceptance info cmd s) (expect s) = true) (h5 : s.judge info = some st) :
    s.runWith info cmd sched expect reply rules =
      (s.answerH info (acceptance info cmd s) (State.asCp cmd (fun s => reply s s) s) st []).readInputs := by
  simp only [acceptance] at h4
  simp [State.runWith, State.sendOn, takeCmd_held _ _ _ _ h0, State.sendHeld, h0, h1, h2, h3, h4, h5, acceptance]

/-- A command of side L of one unit, arrived and answered OK. -/
theorem runL_done (info : CmdInfo) (cmd : Cmd) (unit : State → EpochRef) (rules : Accepted → State → Answer) (s : State)
    (got : Accepted × BarrierEnd) (ws : List W16) (t : State) (ht : takenL info cmd (unit s) got s) (hu : unit (crossing got s) = unit s)
    (hr : rules got.1 (crossing got s) = ⟨.ok, ws, t⟩) (hf : fits cmd ws.length (crossing got s)) :
    s.runL info cmd false unit rules = t.answerL info got.1 (unit t) .ok ws (crossing got s) :=
  runWith_done info cmd false unit (fun _ => unit) rules s got .ok ws t ht.1 (.inr ⟨ht.2.1, hu ▸ ht.2.2⟩) hr hf (.inl rfl)

/-- A scheduled command, arrived and accepted. -/
theorem runL_accepted (info : CmdInfo) (cmd : Cmd) (unit : State → EpochRef) (rules : Accepted → State → Answer) (s : State)
    (got : Accepted × BarrierEnd) (ws : List W16) (t : State) (h1 : s.arrived info.opcode cmd = some got)
    (hr : rules got.1 (crossing got s) = ⟨.accepted, ws, t⟩) (hf : fits cmd ws.length (crossing got s)) :
    s.runL info cmd true unit rules = t.answerL info got.1 (unit t) .accepted ws (crossing got s) :=
  runWith_done info cmd true unit (fun _ => unit) rules s got .accepted ws t h1 (.inl rfl) hr hf (.inr rfl)

/-- A command that is not served waits: nothing changes. -/
theorem runH_unserved (info : CmdInfo) (cmd : Cmd) (unit : State → EpochRef) (rules : State → Answer) (s : State)
    (h1 : s.serves info.opcode = false) : s.runH info cmd unit rules = s := by
  simp [State.runH, State.takeCmd, State.runHeld, h1]

/-- The same for a command of side L that has not crossed. -/
theorem runWith_unserved (info : CmdInfo) (cmd : Cmd) (sched : Bool) (expect : State → EpochRef) (reply : State → State → EpochRef)
    (rules : Accepted → State → Answer) (s : State) (h1 : s.arrived info.opcode cmd = none) (h2 : s.serves info.opcode = false) :
    s.runWith info cmd sched expect reply rules = s := by
  simp [State.runWith, State.sendOn, State.takeCmd, State.sendHeld, h1, h2]

/-- A register access that reaches the host side has its effect there and nowhere else. -/
theorem bar0H_reachable (f : HostSide → HostSide) (s : State) (h : reachable s) : s.bar0H f = { s with host := f s.host } := by
  obtain ⟨h1, h2, h3⟩ := h
  simp [State.bar0H, State.bar0, h1, h2, h3]

/-- The test port stays as time passes. -/
@[simp] theorem linksStopped_advance (dt : Nat) (s : State) : (s.advance dt).linksStopped = s.linksStopped := by
  simp [State.linksStopped, HostSide.linksStopped]

/-- Time passing moves nothing that a register access is judged by. -/
@[simp] theorem reachable_advance (dt : Nat) (s : State) : reachable (s.advance dt) ↔ reachable s := by
  simp [reachable, State.hostOn]

/-- An effect of the line side alone touches nothing else. -/
theorem onlyLine_onLine (f : Line → Line) (s : State) : onlyLine s (s.onLine f) := by
  simp [onlyLine, State.onLine]

/-- The acceptance that a row executes carries the row's command. -/
theorem acceptance_cmd (info : CmdInfo) (cmd : Cmd) (u : State) : (acceptance info cmd u).cmd = cmd := by
  simp only [HostSide.acceptedFor]
  split
  · rename_i a h
    have := List.find?_some h
    simp at this
    exact this.1.1
  · rfl

/-- A scheduled command whose action is judged acceptable leaves it queued, and answers its result words. -/
theorem schedule_done (u c : State) (acc : Accepted) (spec : LaunchSpec) (k : ActKind) (ref : Nat) (b : Machine.Action)
    (hj : u.line.judgeAction (draft acc spec k ref u) = (.accepted, some b)) (hc : c.line = u.line) :
    c.schedule acc spec k ref = ⟨.accepted, b.words, queued b c⟩ := by
  have : draft acc spec k ref u = draft acc spec k ref c := by simp [draft, hc]
  rw [this, ← hc] at hj
  simp only [State.schedule]
  simp only [draft] at hj
  rw [hj]

/-! ## What the passing of time leaves of what a command reads -/

@[simp] theorem linePresent_advance (dt : Nat) (s : State) : (s.advance dt).linePresent = s.linePresent := by simp [State.linePresent]
@[simp] theorem hostOn_advance (dt : Nat) (s : State) : (s.advance dt).hostOn = s.hostOn := rfl
@[simp] theorem serves_advance (dt op : Nat) (s : State) : (s.advance dt).serves op = s.serves op := by simp [State.serves]
@[simp] theorem judge_advance (info : CmdInfo) (dt : Nat) (s : State) : (s.advance dt).judge info = s.judge info := by simp [State.judge]
@[simp] theorem key_advance (dt n : Nat) (s : State) : (s.advance dt).host.key n = s.host.key n := by simp [HostSide.key]
@[simp] theorem sp_advance (dt n : Nat) (s : State) : (s.advance dt).host.sp n = s.host.sp n := by simp [HostSide.sp]
@[simp] theorem queue_advance (dt n : Nat) (s : State) : (s.advance dt).host.queue n = s.host.queue n := by simp [HostSide.queue]
@[simp] theorem bank_advance (dt n : Nat) (s : State) : (s.advance dt).host.bank n = s.host.bank n := by simp [HostSide.bank]
@[simp] theorem ring_advance (dt n : Nat) (s : State) : (s.advance dt).host.ring n = s.host.ring n := by simp [HostSide.ring]
@[simp] theorem engine_advance (dt n : Nat) (s : State) : (s.advance dt).host.engine n = s.host.engine n := by simp [HostSide.engine]

end Sys2Proof.Laws
end

