-- ==== Sys2Proof/Laws/HostOps.lean ====
section
/-! SUPPORT. What the shared operations of the host side leave as it is (simp): interrupts, queues, events and replies. Each operation has one lemma, that it
leaves the rest of the host side (`rest`, `restQ`), and from it a lemma for each field. -/

namespace Sys2Proof.Machine

/-- The host side without what a packet that enters a queue may change: queues, interrupts, bank counters, the causes that its placing shows and the free values spent. -/
def HostSide.restQ (h : HostSide) : HostSide := { h with queues := [], ints := Ints.reset, mem := HostMem.reset, ceStatus := 0, freeCtr := 0 }

/-- The host side without what a record that is stamped, placed and delivered may change: also the Ethernet port, what SP0 sends, and the timestamps. -/
def HostSide.rest (h : HostSide) : HostSide :=
  { h.restQ with eth := HostSide.reset.eth, sp0Out := none, serials := [], stamps := [], adjusted := Ctr.zero }

/-- What leaves `restQ` leaves `rest`. -/
theorem HostSide.rest_of_restQ {g h : HostSide} (e : g.restQ = h.restQ) : g.rest = h.rest := by simp only [HostSide.rest, e]

theorem HostSide.modInts_restQ (f : Bool → Ints → Ints) (h : HostSide) : (h.modInts f).restQ = h.restQ := rfl
theorem HostSide.raise_restQ (b : Nat) (h : HostSide) : (h.raise b).restQ = h.restQ := rfl
theorem HostSide.raiseIf_restQ (on : Bool) (b : Nat) (h : HostSide) : (h.raiseIf on b).restQ = h.restQ := by cases on <;> rfl
theorem HostSide.modQueue_restQ (n : Nat) (f : Queue → Queue) (h : HostSide) : (h.modQueue n f).restQ = h.restQ := rfl
theorem HostSide.countFault_restQ (m b : Nat) (h : HostSide) : (h.countFault m b).restQ = h.restQ := rfl
theorem HostSide.countFaults_restQ (bs : List Nat) (h : HostSide) : (bs.foldl (fun h b => h.countFault 0x24 b) h).restQ = h.restQ := by
  induction bs generalizing h with
  | nil => rfl
  | cons b t ih => rw [List.foldl_cons, ih, HostSide.countFault_restQ]
theorem HostSide.freeWords_restQ (n : Nat) (h : HostSide) : (h.freeWords n).2.restQ = h.restQ := rfl
theorem HostSide.stored_restQ (n : Nat) (p : Packet) (h : HostSide) : (h.stored n p).2.restQ = h.restQ := by
  simp only [HostSide.stored]; split
  · rfl
  · rw [HostSide.countFaults_restQ, HostSide.freeWords_restQ]
theorem HostSide.fetched_restQ (n : Nat) (ws : List W16) (h : HostSide) : (h.fetched n ws).2.restQ = h.restQ := by
  simp only [HostSide.fetched]; split
  · rfl
  · split
    · rw [HostSide.countFaults_restQ]
    · rw [HostSide.freeWords_restQ, HostSide.countFaults_restQ]
theorem HostSide.memStatus_restQ (b : Nat) (h : HostSide) : (h.memStatus b).restQ = h.restQ := by simp only [HostSide.memStatus]; rw [HostSide.raiseIf_restQ]; rfl
theorem HostSide.ceRaise_restQ (b : Nat) (h : HostSide) : (h.ceRaise b).restQ = h.restQ := by simp only [HostSide.ceRaise]; rw [HostSide.raiseIf_restQ]; rfl
theorem HostSide.notePlaced_restQ (p : Packet) (h : HostSide) : (h.notePlaced p).restQ = h.restQ := by
  have m (bs : List Nat) : ∀ h : HostSide, (bs.foldl (fun h b => h.memStatus b) h).restQ = h.restQ := by
    induction bs with
    | nil => exact fun _ => rfl
    | cons b t ih => exact fun h => by rw [List.foldl_cons, ih, HostSide.memStatus_restQ]
  have c (bs : List Nat) : ∀ h : HostSide, (bs.foldl (fun h b => h.ceRaise b) h).restQ = h.restQ := by
    induction bs with
    | nil => exact fun _ => rfl
    | cons b t ih => exact fun h => by rw [List.foldl_cons, ih, HostSide.ceRaise_restQ]
  simp only [HostSide.notePlaced]; rw [c, m]
theorem HostSide.enqueue_restQ (n : Nat) (p : Packet) (h : HostSide) : (h.enqueue n p).restQ = h.restQ := by
  simp only [HostSide.enqueue]; rw [HostSide.notePlaced_restQ, HostSide.raiseIf_restQ, HostSide.modQueue_restQ, HostSide.stored_restQ]
theorem HostSide.lose_restQ (n : Nat) (h : HostSide) : (h.lose n).restQ = h.restQ := by
  simp only [HostSide.lose]; rw [HostSide.raiseIf_restQ, HostSide.modQueue_restQ]
theorem HostSide.holdPacket_restQ (n : Nat) (p : Packet) (h : HostSide) : (h.holdPacket n p).restQ = h.restQ := rfl
theorem HostSide.place_restQ (n : Nat) (p : Packet) (h : HostSide) : (h.place n p).restQ = h.restQ := by
  simp only [HostSide.place]; split
  · exact HostSide.enqueue_restQ n p h
  · split
    · rfl
    · exact HostSide.lose_restQ n h

theorem HostSide.modSp_rest (n : Nat) (f : Serial → Serial) (h : HostSide) : (h.modSp n f).rest = h.rest := rfl
theorem HostSide.sp0Load_rest (h : HostSide) : h.sp0Load.rest = h.rest := by
  simp only [HostSide.sp0Load]; split
  · rfl
  · split <;> rfl
theorem HostSide.deliverDatagram_rest (n : Nat) (p : QPacket) (h : HostSide) : (h.deliverDatagram n p).rest = h.rest := by
  have e : ((h.modQueue n (Queue.takeWhole p)).fetched n p.words).2.rest = h.rest :=
    HostSide.rest_of_restQ ((HostSide.fetched_restQ _ _ _).trans (HostSide.modQueue_restQ n _ h))
  simp only [HostSide.deliverDatagram]; split
  · exact e
  · split
    · exact e
    · exact (HostSide.rest_of_restQ (HostSide.lose_restQ n _)).trans e
theorem HostSide.deliverDatagrams_rest (n : Nat) (ps : List QPacket) (h : HostSide) :
    (ps.foldl (fun h p => h.deliverDatagram n p) h).rest = h.rest := by
  induction ps generalizing h with
  | nil => rfl
  | cons p t ih => rw [List.foldl_cons, ih, HostSide.deliverDatagram_rest]
theorem HostSide.deliverSerial_rest (n : Nat) (p : QPacket) (h : HostSide) : (h.deliverSerial n p).rest = h.rest := by
  have e : ((h.modQueue n (Queue.takeWhole p)).fetched n p.words).2.rest = h.rest :=
    HostSide.rest_of_restQ ((HostSide.fetched_restQ _ _ _).trans (HostSide.modQueue_restQ n _ h))
  simp only [HostSide.deliverSerial]; rw [HostSide.sp0Load_rest]
  exact e
theorem HostSide.deliver_rest (n : Nat) (h : HostSide) : (h.deliver n).rest = h.rest := by
  simp only [HostSide.deliver]; split
  · rfl
  · split
    · rfl
    · split
      · exact HostSide.deliverDatagrams_rest n _ h
      · rfl
    · split
      · rfl
      · split
        · rfl
        · exact HostSide.deliverSerial_rest n _ h
theorem HostSide.place_rest (n : Nat) (p : Packet) (h : HostSide) : (h.place n p).rest = h.rest := HostSide.rest_of_restQ (HostSide.place_restQ n p h)
theorem HostSide.stamp_rest (src : Nat) (t : Tick) (h : HostSide) : (h.stamp src t).2.2.rest = h.rest := rfl
theorem HostSide.eventAt_rest (t : Tick) (c src k : Nat) (ch : Bool) (ep : W16) (u : Nat) (ws : List W16) (h : HostSide) :
    (h.eventAt t c src k ch ep u ws).rest = h.rest := by
  simp only [HostSide.eventAt]; rw [HostSide.deliver_rest, HostSide.place_rest, HostSide.stamp_rest]
theorem HostSide.event_rest (c src k : Nat) (ch : Bool) (ep : W16) (u : Nat) (ws : List W16) (h : HostSide) :
    (h.event c src k ch ep u ws).rest = h.rest := HostSide.eventAt_rest _ _ _ _ _ _ _ _ h
theorem HostSide.sendReply_rest (a : Accepted) (ws : List W16) (h : HostSide) : (h.sendReply a ws).rest = (h.answered a).rest := by
  simp only [HostSide.sendReply]; split
  · exact HostSide.place_rest _ _ _
  · exact HostSide.place_rest _ _ _
  · rw [HostSide.deliver_rest, HostSide.place_rest]
  · rw [HostSide.deliver_rest, HostSide.place_rest]

@[simp] theorem HostSide.raise_running (b : Nat) (h : HostSide) : (h.raise b).running = h.running := rfl
@[simp] theorem HostSide.raise_bootId (b : Nat) (h : HostSide) : (h.raise b).bootId = h.bootId := rfl
@[simp] theorem HostSide.raise_follower (b : Nat) (h : HostSide) : (h.raise b).follower = h.follower := rfl
@[simp] theorem HostSide.raise_followerCoarse (b : Nat) (h : HostSide) : (h.raise b).followerCoarse = h.followerCoarse := rfl
@[simp] theorem HostSide.raise_followerFree (b : Nat) (h : HostSide) : (h.raise b).followerFree = h.followerFree := rfl
@[simp] theorem HostSide.raise_followerAhead (b : Nat) (h : HostSide) : (h.raise b).followerAhead = h.followerAhead := rfl
@[simp] theorem HostSide.raise_followerBehind (b : Nat) (h : HostSide) : (h.raise b).followerBehind = h.followerBehind := rfl
@[simp] theorem HostSide.raise_inSync (b : Nat) (h : HostSide) : (h.raise b).inSync = h.inSync := rfl
@[simp] theorem HostSide.raise_firstSync (b : Nat) (h : HostSide) : (h.raise b).firstSync = h.firstSync := rfl
@[simp] theorem HostSide.raise_lastSync (b : Nat) (h : HostSide) : (h.raise b).lastSync = h.lastSync := rfl
@[simp] theorem HostSide.raise_syncStep (b : Nat) (h : HostSide) : (h.raise b).syncStep = h.syncStep := rfl
@[simp] theorem HostSide.raise_timeHi (b : Nat) (h : HostSide) : (h.raise b).timeHi = h.timeHi := rfl
@[simp] theorem HostSide.raise_ppsOut (b : Nat) (h : HostSide) : (h.raise b).ppsOut = h.ppsOut := rfl
@[simp] theorem HostSide.raise_accepted (b : Nat) (h : HostSide) : (h.raise b).accepted = h.accepted := rfl
@[simp] theorem HostSide.raise_queues (b : Nat) (h : HostSide) : (h.raise b).queues = h.queues := rfl
@[simp] theorem HostSide.raise_txq (b : Nat) (h : HostSide) : (h.raise b).txq = h.txq := rfl
@[simp] theorem HostSide.raise_txHwm (b : Nat) (h : HostSide) : (h.raise b).txHwm = h.txHwm := rfl
@[simp] theorem HostSide.raise_cuts (b : Nat) (h : HostSide) : (h.raise b).cuts = h.cuts := rfl
@[simp] theorem HostSide.raise_rxOrder (b : Nat) (h : HostSide) : (h.raise b).rxOrder = h.rxOrder := rfl
@[simp] theorem HostSide.raise_notes (b : Nat) (h : HostSide) : (h.raise b).notes = h.notes := rfl
@[simp] theorem HostSide.raise_downAt (b : Nat) (h : HostSide) : (h.raise b).downAt = h.downAt := rfl
@[simp] theorem HostSide.raise_discarded (b : Nat) (h : HostSide) : (h.raise b).discarded = h.discarded := rfl
@[simp] theorem HostSide.raise_pci (b : Nat) (h : HostSide) : (h.raise b).pci = h.pci := rfl
@[simp] theorem HostSide.raise_jtag (b : Nat) (h : HostSide) : (h.raise b).jtag = h.jtag := rfl
@[simp] theorem HostSide.raise_tdo (b : Nat) (h : HostSide) : (h.raise b).tdo = h.tdo := rfl
@[simp] theorem HostSide.raise_rings (b : Nat) (h : HostSide) : (h.raise b).rings = h.rings := rfl
@[simp] theorem HostSide.raise_eth (b : Nat) (h : HostSide) : (h.raise b).eth = h.eth := rfl
@[simp] theorem HostSide.raise_ptp (b : Nat) (h : HostSide) : (h.raise b).ptp = h.ptp := rfl
@[simp] theorem HostSide.raise_serials (b : Nat) (h : HostSide) : (h.raise b).serials = h.serials := rfl
@[simp] theorem HostSide.raise_sp0Buf (b : Nat) (h : HostSide) : (h.raise b).sp0Buf = h.sp0Buf := rfl
@[simp] theorem HostSide.raise_sp0Skip (b : Nat) (h : HostSide) : (h.raise b).sp0Skip = h.sp0Skip := rfl
@[simp] theorem HostSide.raise_sp0Out (b : Nat) (h : HostSide) : (h.raise b).sp0Out = h.sp0Out := rfl
@[simp] theorem HostSide.raise_sp0Sent (b : Nat) (h : HostSide) : (h.raise b).sp0Sent = h.sp0Sent := rfl
@[simp] theorem HostSide.raise_keys (b : Nat) (h : HostSide) : (h.raise b).keys = h.keys := rfl
@[simp] theorem HostSide.raise_engines (b : Nat) (h : HostSide) : (h.raise b).engines = h.engines := rfl
@[simp] theorem HostSide.raise_cipherQ (b : Nat) (h : HostSide) : (h.raise b).cipherQ = h.cipherQ := rfl
@[simp] theorem HostSide.raise_ceStatus (b : Nat) (h : HostSide) : (h.raise b).ceStatus = h.ceStatus := rfl
@[simp] theorem HostSide.raise_ceIe (b : Nat) (h : HostSide) : (h.raise b).ceIe = h.ceIe := rfl
@[simp] theorem HostSide.raise_cus (b : Nat) (h : HostSide) : (h.raise b).cus = h.cus := rfl
@[simp] theorem HostSide.raise_mem (b : Nat) (h : HostSide) : (h.raise b).mem = h.mem := rfl
@[simp] theorem HostSide.raise_flash (b : Nat) (h : HostSide) : (h.raise b).flash = h.flash := rfl
@[simp] theorem HostSide.raise_stamps (b : Nat) (h : HostSide) : (h.raise b).stamps = h.stamps := rfl
@[simp] theorem HostSide.raise_adjusted (b : Nat) (h : HostSide) : (h.raise b).adjusted = h.adjusted := rfl
@[simp] theorem HostSide.raise_seqNext (b : Nat) (h : HostSide) : (h.raise b).seqNext = h.seqNext := rfl
@[simp] theorem HostSide.raise_transport (b : Nat) (h : HostSide) : (h.raise b).transport = h.transport := rfl
@[simp] theorem HostSide.raise_margins (b : Nat) (h : HostSide) : (h.raise b).margins = h.margins := rfl
@[simp] theorem HostSide.raise_marginLow (b : Nat) (h : HostSide) : (h.raise b).marginLow = h.marginLow := rfl
@[simp] theorem HostSide.raise_marginOwed (b : Nat) (h : HostSide) : (h.raise b).marginOwed = h.marginOwed := rfl
@[simp] theorem HostSide.raise_marginOkFrom (b : Nat) (h : HostSide) : (h.raise b).marginOkFrom = h.marginOkFrom := rfl
@[simp] theorem HostSide.raise_readData (b : Nat) (h : HostSide) : (h.raise b).readData = h.readData := rfl
@[simp] theorem HostSide.raise_readsDone (b : Nat) (h : HostSide) : (h.raise b).readsDone = h.readsDone := rfl
@[simp] theorem HostSide.raise_readBytes (b : Nat) (h : HostSide) : (h.raise b).readBytes = h.readBytes := rfl
@[simp] theorem HostSide.raise_nodeIdSeen (b : Nat) (h : HostSide) : (h.raise b).nodeIdSeen = h.nodeIdSeen := rfl
@[simp] theorem HostSide.raise_freeCtr (b : Nat) (h : HostSide) : (h.raise b).freeCtr = h.freeCtr := rfl

@[simp] theorem HostSide.raiseIf_running (on : Bool) (b : Nat) (h : HostSide) : (h.raiseIf on b).running = h.running := by
  cases on <;> rfl
@[simp] theorem HostSide.raiseIf_bootId (on : Bool) (b : Nat) (h : HostSide) : (h.raiseIf on b).bootId = h.bootId := by
  cases on <;> rfl
@[simp] theorem HostSide.raiseIf_follower (on : Bool) (b : Nat) (h : HostSide) : (h.raiseIf on b).follower = h.follower := by
  cases on <;> rfl
@[simp] theorem HostSide.raiseIf_followerCoarse (on : Bool) (b : Nat) (h : HostSide) : (h.raiseIf on b).followerCoarse = h.followerCoarse := by
  cases on <;> rfl
@[simp] theorem HostSide.raiseIf_followerFree (on : Bool) (b : Nat) (h : HostSide) : (h.raiseIf on b).followerFree = h.followerFree := by
  cases on <;> rfl
@[simp] theorem HostSide.raiseIf_followerAhead (on : Bool) (b : Nat) (h : HostSide) : (h.raiseIf on b).followerAhead = h.followerAhead := by
  cases on <;> rfl
@[simp] theorem HostSide.raiseIf_followerBehind (on : Bool) (b : Nat) (h : HostSide) : (h.raiseIf on b).followerBehind = h.followerBehind := by
  cases on <;> rfl
@[simp] theorem HostSide.raiseIf_inSync (on : Bool) (b : Nat) (h : HostSide) : (h.raiseIf on b).inSync = h.inSync := by
  cases on <;> rfl
@[simp] theorem HostSide.raiseIf_firstSync (on : Bool) (b : Nat) (h : HostSide) : (h.raiseIf on b).firstSync = h.firstSync := by
  cases on <;> rfl
@[simp] theorem HostSide.raiseIf_lastSync (on : Bool) (b : Nat) (h : HostSide) : (h.raiseIf on b).lastSync = h.lastSync := by
  cases on <;> rfl
@[simp] theorem HostSide.raiseIf_syncStep (on : Bool) (b : Nat) (h : HostSide) : (h.raiseIf on b).syncStep = h.syncStep := by
  cases on <;> rfl
@[simp] theorem HostSide.raiseIf_timeHi (on : Bool) (b : Nat) (h : HostSide) : (h.raiseIf on b).timeHi = h.timeHi := by
  cases on <;> rfl
@[simp] theorem HostSide.raiseIf_ppsOut (on : Bool) (b : Nat) (h : HostSide) : (h.raiseIf on b).ppsOut = h.ppsOut := by
  cases on <;> rfl
@[simp] theorem HostSide.raiseIf_accepted (on : Bool) (b : Nat) (h : HostSide) : (h.raiseIf on b).accepted = h.accepted := by
  cases on <;> rfl
@[simp] theorem HostSide.raiseIf_queues (on : Bool) (b : Nat) (h : HostSide) : (h.raiseIf on b).queues = h.queues := by
  cases on <;> rfl
@[simp] theorem HostSide.raiseIf_txq (on : Bool) (b : Nat) (h : HostSide) : (h.raiseIf on b).txq = h.txq := by
  cases on <;> rfl
@[simp] theorem HostSide.raiseIf_txHwm (on : Bool) (b : Nat) (h : HostSide) : (h.raiseIf on b).txHwm = h.txHwm := by
  cases on <;> rfl
@[simp] theorem HostSide.raiseIf_cuts (on : Bool) (b : Nat) (h : HostSide) : (h.raiseIf on b).cuts = h.cuts := by
  cases on <;> rfl
@[simp] theorem HostSide.raiseIf_rxOrder (on : Bool) (b : Nat) (h : HostSide) : (h.raiseIf on b).rxOrder = h.rxOrder := by
  cases on <;> rfl
@[simp] theorem HostSide.raiseIf_notes (on : Bool) (b : Nat) (h : HostSide) : (h.raiseIf on b).notes = h.notes := by
  cases on <;> rfl
@[simp] theorem HostSide.raiseIf_downAt (on : Bool) (b : Nat) (h : HostSide) : (h.raiseIf on b).downAt = h.downAt := by
  cases on <;> rfl
@[simp] theorem HostSide.raiseIf_discarded (on : Bool) (b : Nat) (h : HostSide) : (h.raiseIf on b).discarded = h.discarded := by
  cases on <;> rfl
@[simp] theorem HostSide.raiseIf_pci (on : Bool) (b : Nat) (h : HostSide) : (h.raiseIf on b).pci = h.pci := by
  cases on <;> rfl
@[simp] theorem HostSide.raiseIf_jtag (on : Bool) (b : Nat) (h : HostSide) : (h.raiseIf on b).jtag = h.jtag := by
  cases on <;> rfl
@[simp] theorem HostSide.raiseIf_tdo (on : Bool) (b : Nat) (h : HostSide) : (h.raiseIf on b).tdo = h.tdo := by
  cases on <;> rfl
@[simp] theorem HostSide.raiseIf_rings (on : Bool) (b : Nat) (h : HostSide) : (h.raiseIf on b).rings = h.rings := by
  cases on <;> rfl
@[simp] theorem HostSide.raiseIf_eth (on : Bool) (b : Nat) (h : HostSide) : (h.raiseIf on b).eth = h.eth := by
  cases on <;> rfl
@[simp] theorem HostSide.raiseIf_ptp (on : Bool) (b : Nat) (h : HostSide) : (h.raiseIf on b).ptp = h.ptp := by
  cases on <;> rfl
@[simp] theorem HostSide.raiseIf_serials (on : Bool) (b : Nat) (h : HostSide) : (h.raiseIf on b).serials = h.serials := by
  cases on <;> rfl
@[simp] theorem HostSide.raiseIf_sp0Buf (on : Bool) (b : Nat) (h : HostSide) : (h.raiseIf on b).sp0Buf = h.sp0Buf := by
  cases on <;> rfl
@[simp] theorem HostSide.raiseIf_sp0Skip (on : Bool) (b : Nat) (h : HostSide) : (h.raiseIf on b).sp0Skip = h.sp0Skip := by
  cases on <;> rfl
@[simp] theorem HostSide.raiseIf_sp0Out (on : Bool) (b : Nat) (h : HostSide) : (h.raiseIf on b).sp0Out = h.sp0Out := by
  cases on <;> rfl
@[simp] theorem HostSide.raiseIf_sp0Sent (on : Bool) (b : Nat) (h : HostSide) : (h.raiseIf on b).sp0Sent = h.sp0Sent := by
  cases on <;> rfl
@[simp] theorem HostSide.raiseIf_keys (on : Bool) (b : Nat) (h : HostSide) : (h.raiseIf on b).keys = h.keys := by
  cases on <;> rfl
@[simp] theorem HostSide.raiseIf_engines (on : Bool) (b : Nat) (h : HostSide) : (h.raiseIf on b).engines = h.engines := by
  cases on <;> rfl
@[simp] theorem HostSide.raiseIf_cipherQ (on : Bool) (b : Nat) (h : HostSide) : (h.raiseIf on b).cipherQ = h.cipherQ := by
  cases on <;> rfl
@[simp] theorem HostSide.raiseIf_ceStatus (on : Bool) (b : Nat) (h : HostSide) : (h.raiseIf on b).ceStatus = h.ceStatus := by
  cases on <;> rfl
@[simp] theorem HostSide.raiseIf_ceIe (on : Bool) (b : Nat) (h : HostSide) : (h.raiseIf on b).ceIe = h.ceIe := by
  cases on <;> rfl
@[simp] theorem HostSide.raiseIf_cus (on : Bool) (b : Nat) (h : HostSide) : (h.raiseIf on b).cus = h.cus := by
  cases on <;> rfl
@[simp] theorem HostSide.raiseIf_mem (on : Bool) (b : Nat) (h : HostSide) : (h.raiseIf on b).mem = h.mem := by
  cases on <;> rfl
@[simp] theorem HostSide.raiseIf_flash (on : Bool) (b : Nat) (h : HostSide) : (h.raiseIf on b).flash = h.flash := by
  cases on <;> rfl
@[simp] theorem HostSide.raiseIf_stamps (on : Bool) (b : Nat) (h : HostSide) : (h.raiseIf on b).stamps = h.stamps := by
  cases on <;> rfl
@[simp] theorem HostSide.raiseIf_adjusted (on : Bool) (b : Nat) (h : HostSide) : (h.raiseIf on b).adjusted = h.adjusted := by
  cases on <;> rfl
@[simp] theorem HostSide.raiseIf_seqNext (on : Bool) (b : Nat) (h : HostSide) : (h.raiseIf on b).seqNext = h.seqNext := by
  cases on <;> rfl
@[simp] theorem HostSide.raiseIf_transport (on : Bool) (b : Nat) (h : HostSide) : (h.raiseIf on b).transport = h.transport := by
  cases on <;> rfl
@[simp] theorem HostSide.raiseIf_margins (on : Bool) (b : Nat) (h : HostSide) : (h.raiseIf on b).margins = h.margins := by
  cases on <;> rfl
@[simp] theorem HostSide.raiseIf_marginLow (on : Bool) (b : Nat) (h : HostSide) : (h.raiseIf on b).marginLow = h.marginLow := by
  cases on <;> rfl
@[simp] theorem HostSide.raiseIf_marginOwed (on : Bool) (b : Nat) (h : HostSide) : (h.raiseIf on b).marginOwed = h.marginOwed := by
  cases on <;> rfl
@[simp] theorem HostSide.raiseIf_marginOkFrom (on : Bool) (b : Nat) (h : HostSide) : (h.raiseIf on b).marginOkFrom = h.marginOkFrom := by
  cases on <;> rfl
@[simp] theorem HostSide.raiseIf_readData (on : Bool) (b : Nat) (h : HostSide) : (h.raiseIf on b).readData = h.readData := by
  cases on <;> rfl
@[simp] theorem HostSide.raiseIf_readsDone (on : Bool) (b : Nat) (h : HostSide) : (h.raiseIf on b).readsDone = h.readsDone := by
  cases on <;> rfl
@[simp] theorem HostSide.raiseIf_readBytes (on : Bool) (b : Nat) (h : HostSide) : (h.raiseIf on b).readBytes = h.readBytes := by
  cases on <;> rfl
@[simp] theorem HostSide.raiseIf_nodeIdSeen (on : Bool) (b : Nat) (h : HostSide) : (h.raiseIf on b).nodeIdSeen = h.nodeIdSeen := by
  cases on <;> rfl
@[simp] theorem HostSide.raiseIf_freeCtr (on : Bool) (b : Nat) (h : HostSide) : (h.raiseIf on b).freeCtr = h.freeCtr := by
  cases on <;> rfl

@[simp] theorem HostSide.modQueue_running (n : Nat) (f : Queue → Queue) (h : HostSide) : (h.modQueue n f).running = h.running := rfl
@[simp] theorem HostSide.modQueue_bootId (n : Nat) (f : Queue → Queue) (h : HostSide) : (h.modQueue n f).bootId = h.bootId := rfl
@[simp] theorem HostSide.modQueue_follower (n : Nat) (f : Queue → Queue) (h : HostSide) : (h.modQueue n f).follower = h.follower := rfl
@[simp] theorem HostSide.modQueue_followerCoarse (n : Nat) (f : Queue → Queue) (h : HostSide) : (h.modQueue n f).followerCoarse = h.followerCoarse := rfl
@[simp] theorem HostSide.modQueue_followerFree (n : Nat) (f : Queue → Queue) (h : HostSide) : (h.modQueue n f).followerFree = h.followerFree := rfl
@[simp] theorem HostSide.modQueue_followerAhead (n : Nat) (f : Queue → Queue) (h : HostSide) : (h.modQueue n f).followerAhead = h.followerAhead := rfl
@[simp] theorem HostSide.modQueue_followerBehind (n : Nat) (f : Queue → Queue) (h : HostSide) : (h.modQueue n f).followerBehind = h.followerBehind := rfl
@[simp] theorem HostSide.modQueue_inSync (n : Nat) (f : Queue → Queue) (h : HostSide) : (h.modQueue n f).inSync = h.inSync := rfl
@[simp] theorem HostSide.modQueue_firstSync (n : Nat) (f : Queue → Queue) (h : HostSide) : (h.modQueue n f).firstSync = h.firstSync := rfl
@[simp] theorem HostSide.modQueue_lastSync (n : Nat) (f : Queue → Queue) (h : HostSide) : (h.modQueue n f).lastSync = h.lastSync := rfl
@[simp] theorem HostSide.modQueue_syncStep (n : Nat) (f : Queue → Queue) (h : HostSide) : (h.modQueue n f).syncStep = h.syncStep := rfl
@[simp] theorem HostSide.modQueue_timeHi (n : Nat) (f : Queue → Queue) (h : HostSide) : (h.modQueue n f).timeHi = h.timeHi := rfl
@[simp] theorem HostSide.modQueue_ppsOut (n : Nat) (f : Queue → Queue) (h : HostSide) : (h.modQueue n f).ppsOut = h.ppsOut := rfl
@[simp] theorem HostSide.modQueue_accepted (n : Nat) (f : Queue → Queue) (h : HostSide) : (h.modQueue n f).accepted = h.accepted := rfl
@[simp] theorem HostSide.modQueue_txq (n : Nat) (f : Queue → Queue) (h : HostSide) : (h.modQueue n f).txq = h.txq := rfl
@[simp] theorem HostSide.modQueue_txHwm (n : Nat) (f : Queue → Queue) (h : HostSide) : (h.modQueue n f).txHwm = h.txHwm := rfl
@[simp] theorem HostSide.modQueue_cuts (n : Nat) (f : Queue → Queue) (h : HostSide) : (h.modQueue n f).cuts = h.cuts := rfl
@[simp] theorem HostSide.modQueue_rxOrder (n : Nat) (f : Queue → Queue) (h : HostSide) : (h.modQueue n f).rxOrder = h.rxOrder := rfl
@[simp] theorem HostSide.modQueue_notes (n : Nat) (f : Queue → Queue) (h : HostSide) : (h.modQueue n f).notes = h.notes := rfl
@[simp] theorem HostSide.modQueue_downAt (n : Nat) (f : Queue → Queue) (h : HostSide) : (h.modQueue n f).downAt = h.downAt := rfl
@[simp] theorem HostSide.modQueue_discarded (n : Nat) (f : Queue → Queue) (h : HostSide) : (h.modQueue n f).discarded = h.discarded := rfl
@[simp] theorem HostSide.modQueue_ints (n : Nat) (f : Queue → Queue) (h : HostSide) : (h.modQueue n f).ints = h.ints := rfl
@[simp] theorem HostSide.modQueue_pci (n : Nat) (f : Queue → Queue) (h : HostSide) : (h.modQueue n f).pci = h.pci := rfl
@[simp] theorem HostSide.modQueue_jtag (n : Nat) (f : Queue → Queue) (h : HostSide) : (h.modQueue n f).jtag = h.jtag := rfl
@[simp] theorem HostSide.modQueue_tdo (n : Nat) (f : Queue → Queue) (h : HostSide) : (h.modQueue n f).tdo = h.tdo := rfl
@[simp] theorem HostSide.modQueue_rings (n : Nat) (f : Queue → Queue) (h : HostSide) : (h.modQueue n f).rings = h.rings := rfl
@[simp] theorem HostSide.modQueue_eth (n : Nat) (f : Queue → Queue) (h : HostSide) : (h.modQueue n f).eth = h.eth := rfl
@[simp] theorem HostSide.modQueue_ptp (n : Nat) (f : Queue → Queue) (h : HostSide) : (h.modQueue n f).ptp = h.ptp := rfl
@[simp] theorem HostSide.modQueue_serials (n : Nat) (f : Queue → Queue) (h : HostSide) : (h.modQueue n f).serials = h.serials := rfl
@[simp] theorem HostSide.modQueue_sp0Buf (n : Nat) (f : Queue → Queue) (h : HostSide) : (h.modQueue n f).sp0Buf = h.sp0Buf := rfl
@[simp] theorem HostSide.modQueue_sp0Skip (n : Nat) (f : Queue → Queue) (h : HostSide) : (h.modQueue n f).sp0Skip = h.sp0Skip := rfl
@[simp] theorem HostSide.modQueue_sp0Out (n : Nat) (f : Queue → Queue) (h : HostSide) : (h.modQueue n f).sp0Out = h.sp0Out := rfl
@[simp] theorem HostSide.modQueue_sp0Sent (n : Nat) (f : Queue → Queue) (h : HostSide) : (h.modQueue n f).sp0Sent = h.sp0Sent := rfl
@[simp] theorem HostSide.modQueue_keys (n : Nat) (f : Queue → Queue) (h : HostSide) : (h.modQueue n f).keys = h.keys := rfl
@[simp] theorem HostSide.modQueue_engines (n : Nat) (f : Queue → Queue) (h : HostSide) : (h.modQueue n f).engines = h.engines := rfl
@[simp] theorem HostSide.modQueue_cipherQ (n : Nat) (f : Queue → Queue) (h : HostSide) : (h.modQueue n f).cipherQ = h.cipherQ := rfl
@[simp] theorem HostSide.modQueue_ceStatus (n : Nat) (f : Queue → Queue) (h : HostSide) : (h.modQueue n f).ceStatus = h.ceStatus := rfl
@[simp] theorem HostSide.modQueue_ceIe (n : Nat) (f : Queue → Queue) (h : HostSide) : (h.modQueue n f).ceIe = h.ceIe := rfl
@[simp] theorem HostSide.modQueue_cus (n : Nat) (f : Queue → Queue) (h : HostSide) : (h.modQueue n f).cus = h.cus := rfl
@[simp] theorem HostSide.modQueue_mem (n : Nat) (f : Queue → Queue) (h : HostSide) : (h.modQueue n f).mem = h.mem := rfl
@[simp] theorem HostSide.modQueue_flash (n : Nat) (f : Queue → Queue) (h : HostSide) : (h.modQueue n f).flash = h.flash := rfl
@[simp] theorem HostSide.modQueue_stamps (n : Nat) (f : Queue → Queue) (h : HostSide) : (h.modQueue n f).stamps = h.stamps := rfl
@[simp] theorem HostSide.modQueue_adjusted (n : Nat) (f : Queue → Queue) (h : HostSide) : (h.modQueue n f).adjusted = h.adjusted := rfl
@[simp] theorem HostSide.modQueue_seqNext (n : Nat) (f : Queue → Queue) (h : HostSide) : (h.modQueue n f).seqNext = h.seqNext := rfl
@[simp] theorem HostSide.modQueue_transport (n : Nat) (f : Queue → Queue) (h : HostSide) : (h.modQueue n f).transport = h.transport := rfl
@[simp] theorem HostSide.modQueue_margins (n : Nat) (f : Queue → Queue) (h : HostSide) : (h.modQueue n f).margins = h.margins := rfl
@[simp] theorem HostSide.modQueue_marginLow (n : Nat) (f : Queue → Queue) (h : HostSide) : (h.modQueue n f).marginLow = h.marginLow := rfl
@[simp] theorem HostSide.modQueue_marginOwed (n : Nat) (f : Queue → Queue) (h : HostSide) : (h.modQueue n f).marginOwed = h.marginOwed := rfl
@[simp] theorem HostSide.modQueue_marginOkFrom (n : Nat) (f : Queue → Queue) (h : HostSide) : (h.modQueue n f).marginOkFrom = h.marginOkFrom := rfl
@[simp] theorem HostSide.modQueue_readData (n : Nat) (f : Queue → Queue) (h : HostSide) : (h.modQueue n f).readData = h.readData := rfl
@[simp] theorem HostSide.modQueue_readsDone (n : Nat) (f : Queue → Queue) (h : HostSide) : (h.modQueue n f).readsDone = h.readsDone := rfl
@[simp] theorem HostSide.modQueue_readBytes (n : Nat) (f : Queue → Queue) (h : HostSide) : (h.modQueue n f).readBytes = h.readBytes := rfl
@[simp] theorem HostSide.modQueue_nodeIdSeen (n : Nat) (f : Queue → Queue) (h : HostSide) : (h.modQueue n f).nodeIdSeen = h.nodeIdSeen := rfl
@[simp] theorem HostSide.modQueue_freeCtr (n : Nat) (f : Queue → Queue) (h : HostSide) : (h.modQueue n f).freeCtr = h.freeCtr := rfl

@[simp] theorem HostSide.enqueue_running (n : Nat) (p : Packet) (h : HostSide) : (h.enqueue n p).running = h.running :=
  (congrArg HostSide.running (HostSide.enqueue_restQ n p h) :)
@[simp] theorem HostSide.enqueue_bootId (n : Nat) (p : Packet) (h : HostSide) : (h.enqueue n p).bootId = h.bootId :=
  (congrArg HostSide.bootId (HostSide.enqueue_restQ n p h) :)
@[simp] theorem HostSide.enqueue_follower (n : Nat) (p : Packet) (h : HostSide) : (h.enqueue n p).follower = h.follower :=
  (congrArg HostSide.follower (HostSide.enqueue_restQ n p h) :)
@[simp] theorem HostSide.enqueue_followerCoarse (n : Nat) (p : Packet) (h : HostSide) : (h.enqueue n p).followerCoarse = h.followerCoarse :=
  (congrArg HostSide.followerCoarse (HostSide.enqueue_restQ n p h) :)
@[simp] theorem HostSide.enqueue_followerFree (n : Nat) (p : Packet) (h : HostSide) : (h.enqueue n p).followerFree = h.followerFree :=
  (congrArg HostSide.followerFree (HostSide.enqueue_restQ n p h) :)
@[simp] theorem HostSide.enqueue_followerAhead (n : Nat) (p : Packet) (h : HostSide) : (h.enqueue n p).followerAhead = h.followerAhead :=
  (congrArg HostSide.followerAhead (HostSide.enqueue_restQ n p h) :)
@[simp] theorem HostSide.enqueue_followerBehind (n : Nat) (p : Packet) (h : HostSide) : (h.enqueue n p).followerBehind = h.followerBehind :=
  (congrArg HostSide.followerBehind (HostSide.enqueue_restQ n p h) :)
@[simp] theorem HostSide.enqueue_inSync (n : Nat) (p : Packet) (h : HostSide) : (h.enqueue n p).inSync = h.inSync :=
  (congrArg HostSide.inSync (HostSide.enqueue_restQ n p h) :)
@[simp] theorem HostSide.enqueue_firstSync (n : Nat) (p : Packet) (h : HostSide) : (h.enqueue n p).firstSync = h.firstSync :=
  (congrArg HostSide.firstSync (HostSide.enqueue_restQ n p h) :)
@[simp] theorem HostSide.enqueue_lastSync (n : Nat) (p : Packet) (h : HostSide) : (h.enqueue n p).lastSync = h.lastSync :=
  (congrArg HostSide.lastSync (HostSide.enqueue_restQ n p h) :)
@[simp] theorem HostSide.enqueue_syncStep (n : Nat) (p : Packet) (h : HostSide) : (h.enqueue n p).syncStep = h.syncStep :=
  (congrArg HostSide.syncStep (HostSide.enqueue_restQ n p h) :)
@[simp] theorem HostSide.enqueue_timeHi (n : Nat) (p : Packet) (h : HostSide) : (h.enqueue n p).timeHi = h.timeHi :=
  (congrArg HostSide.timeHi (HostSide.enqueue_restQ n p h) :)
@[simp] theorem HostSide.enqueue_ppsOut (n : Nat) (p : Packet) (h : HostSide) : (h.enqueue n p).ppsOut = h.ppsOut :=
  (congrArg HostSide.ppsOut (HostSide.enqueue_restQ n p h) :)
@[simp] theorem HostSide.enqueue_accepted (n : Nat) (p : Packet) (h : HostSide) : (h.enqueue n p).accepted = h.accepted :=
  (congrArg HostSide.accepted (HostSide.enqueue_restQ n p h) :)
@[simp] theorem HostSide.enqueue_txq (n : Nat) (p : Packet) (h : HostSide) : (h.enqueue n p).txq = h.txq :=
  (congrArg HostSide.txq (HostSide.enqueue_restQ n p h) :)
@[simp] theorem HostSide.enqueue_txHwm (n : Nat) (p : Packet) (h : HostSide) : (h.enqueue n p).txHwm = h.txHwm :=
  (congrArg HostSide.txHwm (HostSide.enqueue_restQ n p h) :)
@[simp] theorem HostSide.enqueue_cuts (n : Nat) (p : Packet) (h : HostSide) : (h.enqueue n p).cuts = h.cuts :=
  (congrArg HostSide.cuts (HostSide.enqueue_restQ n p h) :)
@[simp] theorem HostSide.enqueue_rxOrder (n : Nat) (p : Packet) (h : HostSide) : (h.enqueue n p).rxOrder = h.rxOrder :=
  (congrArg HostSide.rxOrder (HostSide.enqueue_restQ n p h) :)
@[simp] theorem HostSide.enqueue_notes (n : Nat) (p : Packet) (h : HostSide) : (h.enqueue n p).notes = h.notes :=
  (congrArg HostSide.notes (HostSide.enqueue_restQ n p h) :)
@[simp] theorem HostSide.enqueue_downAt (n : Nat) (p : Packet) (h : HostSide) : (h.enqueue n p).downAt = h.downAt :=
  (congrArg HostSide.downAt (HostSide.enqueue_restQ n p h) :)
@[simp] theorem HostSide.enqueue_discarded (n : Nat) (p : Packet) (h : HostSide) : (h.enqueue n p).discarded = h.discarded :=
  (congrArg HostSide.discarded (HostSide.enqueue_restQ n p h) :)
@[simp] theorem HostSide.enqueue_pci (n : Nat) (p : Packet) (h : HostSide) : (h.enqueue n p).pci = h.pci :=
  (congrArg HostSide.pci (HostSide.enqueue_restQ n p h) :)
@[simp] theorem HostSide.enqueue_jtag (n : Nat) (p : Packet) (h : HostSide) : (h.enqueue n p).jtag = h.jtag :=
  (congrArg HostSide.jtag (HostSide.enqueue_restQ n p h) :)
@[simp] theorem HostSide.enqueue_tdo (n : Nat) (p : Packet) (h : HostSide) : (h.enqueue n p).tdo = h.tdo :=
  (congrArg HostSide.tdo (HostSide.enqueue_restQ n p h) :)
@[simp] theorem HostSide.enqueue_rings (n : Nat) (p : Packet) (h : HostSide) : (h.enqueue n p).rings = h.rings :=
  (congrArg HostSide.rings (HostSide.enqueue_restQ n p h) :)
@[simp] theorem HostSide.enqueue_eth (n : Nat) (p : Packet) (h : HostSide) : (h.enqueue n p).eth = h.eth :=
  (congrArg HostSide.eth (HostSide.enqueue_restQ n p h) :)
@[simp] theorem HostSide.enqueue_ptp (n : Nat) (p : Packet) (h : HostSide) : (h.enqueue n p).ptp = h.ptp :=
  (congrArg HostSide.ptp (HostSide.enqueue_restQ n p h) :)
@[simp] theorem HostSide.enqueue_serials (n : Nat) (p : Packet) (h : HostSide) : (h.enqueue n p).serials = h.serials :=
  (congrArg HostSide.serials (HostSide.enqueue_restQ n p h) :)
@[simp] theorem HostSide.enqueue_sp0Buf (n : Nat) (p : Packet) (h : HostSide) : (h.enqueue n p).sp0Buf = h.sp0Buf :=
  (congrArg HostSide.sp0Buf (HostSide.enqueue_restQ n p h) :)
@[simp] theorem HostSide.enqueue_sp0Skip (n : Nat) (p : Packet) (h : HostSide) : (h.enqueue n p).sp0Skip = h.sp0Skip :=
  (congrArg HostSide.sp0Skip (HostSide.enqueue_restQ n p h) :)
@[simp] theorem HostSide.enqueue_sp0Out (n : Nat) (p : Packet) (h : HostSide) : (h.enqueue n p).sp0Out = h.sp0Out :=
  (congrArg HostSide.sp0Out (HostSide.enqueue_restQ n p h) :)
@[simp] theorem HostSide.enqueue_sp0Sent (n : Nat) (p : Packet) (h : HostSide) : (h.enqueue n p).sp0Sent = h.sp0Sent :=
  (congrArg HostSide.sp0Sent (HostSide.enqueue_restQ n p h) :)
@[simp] theorem HostSide.enqueue_keys (n : Nat) (p : Packet) (h : HostSide) : (h.enqueue n p).keys = h.keys :=
  (congrArg HostSide.keys (HostSide.enqueue_restQ n p h) :)
@[simp] theorem HostSide.enqueue_engines (n : Nat) (p : Packet) (h : HostSide) : (h.enqueue n p).engines = h.engines :=
  (congrArg HostSide.engines (HostSide.enqueue_restQ n p h) :)
@[simp] theorem HostSide.enqueue_cipherQ (n : Nat) (p : Packet) (h : HostSide) : (h.enqueue n p).cipherQ = h.cipherQ :=
  (congrArg HostSide.cipherQ (HostSide.enqueue_restQ n p h) :)
@[simp] theorem HostSide.enqueue_ceIe (n : Nat) (p : Packet) (h : HostSide) : (h.enqueue n p).ceIe = h.ceIe :=
  (congrArg HostSide.ceIe (HostSide.enqueue_restQ n p h) :)
@[simp] theorem HostSide.enqueue_cus (n : Nat) (p : Packet) (h : HostSide) : (h.enqueue n p).cus = h.cus :=
  (congrArg HostSide.cus (HostSide.enqueue_restQ n p h) :)
@[simp] theorem HostSide.enqueue_flash (n : Nat) (p : Packet) (h : HostSide) : (h.enqueue n p).flash = h.flash :=
  (congrArg HostSide.flash (HostSide.enqueue_restQ n p h) :)
@[simp] theorem HostSide.enqueue_stamps (n : Nat) (p : Packet) (h : HostSide) : (h.enqueue n p).stamps = h.stamps :=
  (congrArg HostSide.stamps (HostSide.enqueue_restQ n p h) :)
@[simp] theorem HostSide.enqueue_adjusted (n : Nat) (p : Packet) (h : HostSide) : (h.enqueue n p).adjusted = h.adjusted :=
  (congrArg HostSide.adjusted (HostSide.enqueue_restQ n p h) :)
@[simp] theorem HostSide.enqueue_seqNext (n : Nat) (p : Packet) (h : HostSide) : (h.enqueue n p).seqNext = h.seqNext :=
  (congrArg HostSide.seqNext (HostSide.enqueue_restQ n p h) :)
@[simp] theorem HostSide.enqueue_transport (n : Nat) (p : Packet) (h : HostSide) : (h.enqueue n p).transport = h.transport :=
  (congrArg HostSide.transport (HostSide.enqueue_restQ n p h) :)
@[simp] theorem HostSide.enqueue_margins (n : Nat) (p : Packet) (h : HostSide) : (h.enqueue n p).margins = h.margins :=
  (congrArg HostSide.margins (HostSide.enqueue_restQ n p h) :)
@[simp] theorem HostSide.enqueue_marginLow (n : Nat) (p : Packet) (h : HostSide) : (h.enqueue n p).marginLow = h.marginLow :=
  (congrArg HostSide.marginLow (HostSide.enqueue_restQ n p h) :)
@[simp] theorem HostSide.enqueue_marginOwed (n : Nat) (p : Packet) (h : HostSide) : (h.enqueue n p).marginOwed = h.marginOwed :=
  (congrArg HostSide.marginOwed (HostSide.enqueue_restQ n p h) :)
@[simp] theorem HostSide.enqueue_marginOkFrom (n : Nat) (p : Packet) (h : HostSide) : (h.enqueue n p).marginOkFrom = h.marginOkFrom :=
  (congrArg HostSide.marginOkFrom (HostSide.enqueue_restQ n p h) :)
@[simp] theorem HostSide.enqueue_readData (n : Nat) (p : Packet) (h : HostSide) : (h.enqueue n p).readData = h.readData :=
  (congrArg HostSide.readData (HostSide.enqueue_restQ n p h) :)
@[simp] theorem HostSide.enqueue_readsDone (n : Nat) (p : Packet) (h : HostSide) : (h.enqueue n p).readsDone = h.readsDone :=
  (congrArg HostSide.readsDone (HostSide.enqueue_restQ n p h) :)
@[simp] theorem HostSide.enqueue_readBytes (n : Nat) (p : Packet) (h : HostSide) : (h.enqueue n p).readBytes = h.readBytes :=
  (congrArg HostSide.readBytes (HostSide.enqueue_restQ n p h) :)
@[simp] theorem HostSide.enqueue_nodeIdSeen (n : Nat) (p : Packet) (h : HostSide) : (h.enqueue n p).nodeIdSeen = h.nodeIdSeen :=
  (congrArg HostSide.nodeIdSeen (HostSide.enqueue_restQ n p h) :)

@[simp] theorem HostSide.lose_running (n : Nat) (h : HostSide) : (h.lose n).running = h.running := by
  simp [HostSide.lose]
@[simp] theorem HostSide.lose_bootId (n : Nat) (h : HostSide) : (h.lose n).bootId = h.bootId := by
  simp [HostSide.lose]
@[simp] theorem HostSide.lose_follower (n : Nat) (h : HostSide) : (h.lose n).follower = h.follower := by
  simp [HostSide.lose]
@[simp] theorem HostSide.lose_followerCoarse (n : Nat) (h : HostSide) : (h.lose n).followerCoarse = h.followerCoarse := by
  simp [HostSide.lose]
@[simp] theorem HostSide.lose_followerFree (n : Nat) (h : HostSide) : (h.lose n).followerFree = h.followerFree := by
  simp [HostSide.lose]
@[simp] theorem HostSide.lose_followerAhead (n : Nat) (h : HostSide) : (h.lose n).followerAhead = h.followerAhead := by
  simp [HostSide.lose]
@[simp] theorem HostSide.lose_followerBehind (n : Nat) (h : HostSide) : (h.lose n).followerBehind = h.followerBehind := by
  simp [HostSide.lose]
@[simp] theorem HostSide.lose_inSync (n : Nat) (h : HostSide) : (h.lose n).inSync = h.inSync := by
  simp [HostSide.lose]
@[simp] theorem HostSide.lose_firstSync (n : Nat) (h : HostSide) : (h.lose n).firstSync = h.firstSync := by
  simp [HostSide.lose]
@[simp] theorem HostSide.lose_lastSync (n : Nat) (h : HostSide) : (h.lose n).lastSync = h.lastSync := by
  simp [HostSide.lose]
@[simp] theorem HostSide.lose_syncStep (n : Nat) (h : HostSide) : (h.lose n).syncStep = h.syncStep := by
  simp [HostSide.lose]
@[simp] theorem HostSide.lose_timeHi (n : Nat) (h : HostSide) : (h.lose n).timeHi = h.timeHi := by
  simp [HostSide.lose]
@[simp] theorem HostSide.lose_ppsOut (n : Nat) (h : HostSide) : (h.lose n).ppsOut = h.ppsOut := by
  simp [HostSide.lose]
@[simp] theorem HostSide.lose_accepted (n : Nat) (h : HostSide) : (h.lose n).accepted = h.accepted := by
  simp [HostSide.lose]
@[simp] theorem HostSide.lose_txq (n : Nat) (h : HostSide) : (h.lose n).txq = h.txq := by
  simp [HostSide.lose]
@[simp] theorem HostSide.lose_txHwm (n : Nat) (h : HostSide) : (h.lose n).txHwm = h.txHwm := by
  simp [HostSide.lose]
@[simp] theorem HostSide.lose_cuts (n : Nat) (h : HostSide) : (h.lose n).cuts = h.cuts := by
  simp [HostSide.lose]
@[simp] theorem HostSide.lose_rxOrder (n : Nat) (h : HostSide) : (h.lose n).rxOrder = h.rxOrder := by
  simp [HostSide.lose]
@[simp] theorem HostSide.lose_notes (n : Nat) (h : HostSide) : (h.lose n).notes = h.notes := by
  simp [HostSide.lose]
@[simp] theorem HostSide.lose_downAt (n : Nat) (h : HostSide) : (h.lose n).downAt = h.downAt := by
  simp [HostSide.lose]
@[simp] theorem HostSide.lose_discarded (n : Nat) (h : HostSide) : (h.lose n).discarded = h.discarded := by
  simp [HostSide.lose]
@[simp] theorem HostSide.lose_pci (n : Nat) (h : HostSide) : (h.lose n).pci = h.pci := by
  simp [HostSide.lose]
@[simp] theorem HostSide.lose_jtag (n : Nat) (h : HostSide) : (h.lose n).jtag = h.jtag := by
  simp [HostSide.lose]
@[simp] theorem HostSide.lose_tdo (n : Nat) (h : HostSide) : (h.lose n).tdo = h.tdo := by
  simp [HostSide.lose]
@[simp] theorem HostSide.lose_rings (n : Nat) (h : HostSide) : (h.lose n).rings = h.rings := by
  simp [HostSide.lose]
@[simp] theorem HostSide.lose_eth (n : Nat) (h : HostSide) : (h.lose n).eth = h.eth := by
  simp [HostSide.lose]
@[simp] theorem HostSide.lose_ptp (n : Nat) (h : HostSide) : (h.lose n).ptp = h.ptp := by
  simp [HostSide.lose]
@[simp] theorem HostSide.lose_serials (n : Nat) (h : HostSide) : (h.lose n).serials = h.serials := by
  simp [HostSide.lose]
@[simp] theorem HostSide.lose_sp0Buf (n : Nat) (h : HostSide) : (h.lose n).sp0Buf = h.sp0Buf := by
  simp [HostSide.lose]
@[simp] theorem HostSide.lose_sp0Skip (n : Nat) (h : HostSide) : (h.lose n).sp0Skip = h.sp0Skip := by
  simp [HostSide.lose]
@[simp] theorem HostSide.lose_sp0Out (n : Nat) (h : HostSide) : (h.lose n).sp0Out = h.sp0Out := by
  simp [HostSide.lose]
@[simp] theorem HostSide.lose_sp0Sent (n : Nat) (h : HostSide) : (h.lose n).sp0Sent = h.sp0Sent := by
  simp [HostSide.lose]
@[simp] theorem HostSide.lose_keys (n : Nat) (h : HostSide) : (h.lose n).keys = h.keys := by
  simp [HostSide.lose]
@[simp] theorem HostSide.lose_engines (n : Nat) (h : HostSide) : (h.lose n).engines = h.engines := by
  simp [HostSide.lose]
@[simp] theorem HostSide.lose_cipherQ (n : Nat) (h : HostSide) : (h.lose n).cipherQ = h.cipherQ := by
  simp [HostSide.lose]
@[simp] theorem HostSide.lose_ceStatus (n : Nat) (h : HostSide) : (h.lose n).ceStatus = h.ceStatus := by
  simp [HostSide.lose]
@[simp] theorem HostSide.lose_ceIe (n : Nat) (h : HostSide) : (h.lose n).ceIe = h.ceIe := by
  simp [HostSide.lose]
@[simp] theorem HostSide.lose_cus (n : Nat) (h : HostSide) : (h.lose n).cus = h.cus := by
  simp [HostSide.lose]
@[simp] theorem HostSide.lose_mem (n : Nat) (h : HostSide) : (h.lose n).mem = h.mem := by
  simp [HostSide.lose]
@[simp] theorem HostSide.lose_flash (n : Nat) (h : HostSide) : (h.lose n).flash = h.flash := by
  simp [HostSide.lose]
@[simp] theorem HostSide.lose_stamps (n : Nat) (h : HostSide) : (h.lose n).stamps = h.stamps := by
  simp [HostSide.lose]
@[simp] theorem HostSide.lose_adjusted (n : Nat) (h : HostSide) : (h.lose n).adjusted = h.adjusted := by
  simp [HostSide.lose]
@[simp] theorem HostSide.lose_seqNext (n : Nat) (h : HostSide) : (h.lose n).seqNext = h.seqNext := by
  simp [HostSide.lose]
@[simp] theorem HostSide.lose_transport (n : Nat) (h : HostSide) : (h.lose n).transport = h.transport := by
  simp [HostSide.lose]
@[simp] theorem HostSide.lose_margins (n : Nat) (h : HostSide) : (h.lose n).margins = h.margins := by
  simp [HostSide.lose]
@[simp] theorem HostSide.lose_marginLow (n : Nat) (h : HostSide) : (h.lose n).marginLow = h.marginLow := by
  simp [HostSide.lose]
@[simp] theorem HostSide.lose_marginOwed (n : Nat) (h : HostSide) : (h.lose n).marginOwed = h.marginOwed := by
  simp [HostSide.lose]
@[simp] theorem HostSide.lose_marginOkFrom (n : Nat) (h : HostSide) : (h.lose n).marginOkFrom = h.marginOkFrom := by
  simp [HostSide.lose]
@[simp] theorem HostSide.lose_readData (n : Nat) (h : HostSide) : (h.lose n).readData = h.readData := by
  simp [HostSide.lose]
@[simp] theorem HostSide.lose_readsDone (n : Nat) (h : HostSide) : (h.lose n).readsDone = h.readsDone := by
  simp [HostSide.lose]
@[simp] theorem HostSide.lose_readBytes (n : Nat) (h : HostSide) : (h.lose n).readBytes = h.readBytes := by
  simp [HostSide.lose]
@[simp] theorem HostSide.lose_nodeIdSeen (n : Nat) (h : HostSide) : (h.lose n).nodeIdSeen = h.nodeIdSeen := by
  simp [HostSide.lose]
@[simp] theorem HostSide.lose_freeCtr (n : Nat) (h : HostSide) : (h.lose n).freeCtr = h.freeCtr := by
  simp [HostSide.lose]

@[simp] theorem HostSide.place_running (n : Nat) (p : Packet) (h : HostSide) : (h.place n p).running = h.running :=
  (congrArg HostSide.running (HostSide.place_restQ n p h) :)
@[simp] theorem HostSide.place_bootId (n : Nat) (p : Packet) (h : HostSide) : (h.place n p).bootId = h.bootId :=
  (congrArg HostSide.bootId (HostSide.place_restQ n p h) :)
@[simp] theorem HostSide.place_follower (n : Nat) (p : Packet) (h : HostSide) : (h.place n p).follower = h.follower :=
  (congrArg HostSide.follower (HostSide.place_restQ n p h) :)
@[simp] theorem HostSide.place_followerCoarse (n : Nat) (p : Packet) (h : HostSide) : (h.place n p).followerCoarse = h.followerCoarse :=
  (congrArg HostSide.followerCoarse (HostSide.place_restQ n p h) :)
@[simp] theorem HostSide.place_followerFree (n : Nat) (p : Packet) (h : HostSide) : (h.place n p).followerFree = h.followerFree :=
  (congrArg HostSide.followerFree (HostSide.place_restQ n p h) :)
@[simp] theorem HostSide.place_followerAhead (n : Nat) (p : Packet) (h : HostSide) : (h.place n p).followerAhead = h.followerAhead :=
  (congrArg HostSide.followerAhead (HostSide.place_restQ n p h) :)
@[simp] theorem HostSide.place_followerBehind (n : Nat) (p : Packet) (h : HostSide) : (h.place n p).followerBehind = h.followerBehind :=
  (congrArg HostSide.followerBehind (HostSide.place_restQ n p h) :)
@[simp] theorem HostSide.place_inSync (n : Nat) (p : Packet) (h : HostSide) : (h.place n p).inSync = h.inSync :=
  (congrArg HostSide.inSync (HostSide.place_restQ n p h) :)
@[simp] theorem HostSide.place_firstSync (n : Nat) (p : Packet) (h : HostSide) : (h.place n p).firstSync = h.firstSync :=
  (congrArg HostSide.firstSync (HostSide.place_restQ n p h) :)
@[simp] theorem HostSide.place_lastSync (n : Nat) (p : Packet) (h : HostSide) : (h.place n p).lastSync = h.lastSync :=
  (congrArg HostSide.lastSync (HostSide.place_restQ n p h) :)
@[simp] theorem HostSide.place_syncStep (n : Nat) (p : Packet) (h : HostSide) : (h.place n p).syncStep = h.syncStep :=
  (congrArg HostSide.syncStep (HostSide.place_restQ n p h) :)
@[simp] theorem HostSide.place_timeHi (n : Nat) (p : Packet) (h : HostSide) : (h.place n p).timeHi = h.timeHi :=
  (congrArg HostSide.timeHi (HostSide.place_restQ n p h) :)
@[simp] theorem HostSide.place_ppsOut (n : Nat) (p : Packet) (h : HostSide) : (h.place n p).ppsOut = h.ppsOut :=
  (congrArg HostSide.ppsOut (HostSide.place_restQ n p h) :)
@[simp] theorem HostSide.place_accepted (n : Nat) (p : Packet) (h : HostSide) : (h.place n p).accepted = h.accepted :=
  (congrArg HostSide.accepted (HostSide.place_restQ n p h) :)
@[simp] theorem HostSide.place_txq (n : Nat) (p : Packet) (h : HostSide) : (h.place n p).txq = h.txq :=
  (congrArg HostSide.txq (HostSide.place_restQ n p h) :)
@[simp] theorem HostSide.place_txHwm (n : Nat) (p : Packet) (h : HostSide) : (h.place n p).txHwm = h.txHwm :=
  (congrArg HostSide.txHwm (HostSide.place_restQ n p h) :)
@[simp] theorem HostSide.place_cuts (n : Nat) (p : Packet) (h : HostSide) : (h.place n p).cuts = h.cuts :=
  (congrArg HostSide.cuts (HostSide.place_restQ n p h) :)
@[simp] theorem HostSide.place_rxOrder (n : Nat) (p : Packet) (h : HostSide) : (h.place n p).rxOrder = h.rxOrder :=
  (congrArg HostSide.rxOrder (HostSide.place_restQ n p h) :)
@[simp] theorem HostSide.place_notes (n : Nat) (p : Packet) (h : HostSide) : (h.place n p).notes = h.notes :=
  (congrArg HostSide.notes (HostSide.place_restQ n p h) :)
@[simp] theorem HostSide.place_downAt (n : Nat) (p : Packet) (h : HostSide) : (h.place n p).downAt = h.downAt :=
  (congrArg HostSide.downAt (HostSide.place_restQ n p h) :)
@[simp] theorem HostSide.place_discarded (n : Nat) (p : Packet) (h : HostSide) : (h.place n p).discarded = h.discarded :=
  (congrArg HostSide.discarded (HostSide.place_restQ n p h) :)
@[simp] theorem HostSide.place_pci (n : Nat) (p : Packet) (h : HostSide) : (h.place n p).pci = h.pci :=
  (congrArg HostSide.pci (HostSide.place_restQ n p h) :)
@[simp] theorem HostSide.place_jtag (n : Nat) (p : Packet) (h : HostSide) : (h.place n p).jtag = h.jtag :=
  (congrArg HostSide.jtag (HostSide.place_restQ n p h) :)
@[simp] theorem HostSide.place_tdo (n : Nat) (p : Packet) (h : HostSide) : (h.place n p).tdo = h.tdo :=
  (congrArg HostSide.tdo (HostSide.place_restQ n p h) :)
@[simp] theorem HostSide.place_rings (n : Nat) (p : Packet) (h : HostSide) : (h.place n p).rings = h.rings :=
  (congrArg HostSide.rings (HostSide.place_restQ n p h) :)
@[simp] theorem HostSide.place_eth (n : Nat) (p : Packet) (h : HostSide) : (h.place n p).eth = h.eth :=
  (congrArg HostSide.eth (HostSide.place_restQ n p h) :)
@[simp] theorem HostSide.place_ptp (n : Nat) (p : Packet) (h : HostSide) : (h.place n p).ptp = h.ptp :=
  (congrArg HostSide.ptp (HostSide.place_restQ n p h) :)
@[simp] theorem HostSide.place_serials (n : Nat) (p : Packet) (h : HostSide) : (h.place n p).serials = h.serials :=
  (congrArg HostSide.serials (HostSide.place_restQ n p h) :)
@[simp] theorem HostSide.place_sp0Buf (n : Nat) (p : Packet) (h : HostSide) : (h.place n p).sp0Buf = h.sp0Buf :=
  (congrArg HostSide.sp0Buf (HostSide.place_restQ n p h) :)
@[simp] theorem HostSide.place_sp0Skip (n : Nat) (p : Packet) (h : HostSide) : (h.place n p).sp0Skip = h.sp0Skip :=
  (congrArg HostSide.sp0Skip (HostSide.place_restQ n p h) :)
@[simp] theorem HostSide.place_sp0Out (n : Nat) (p : Packet) (h : HostSide) : (h.place n p).sp0Out = h.sp0Out :=
  (congrArg HostSide.sp0Out (HostSide.place_restQ n p h) :)
@[simp] theorem HostSide.place_sp0Sent (n : Nat) (p : Packet) (h : HostSide) : (h.place n p).sp0Sent = h.sp0Sent :=
  (congrArg HostSide.sp0Sent (HostSide.place_restQ n p h) :)
@[simp] theorem HostSide.place_keys (n : Nat) (p : Packet) (h : HostSide) : (h.place n p).keys = h.keys :=
  (congrArg HostSide.keys (HostSide.place_restQ n p h) :)
@[simp] theorem HostSide.place_engines (n : Nat) (p : Packet) (h : HostSide) : (h.place n p).engines = h.engines :=
  (congrArg HostSide.engines (HostSide.place_restQ n p h) :)
@[simp] theorem HostSide.place_cipherQ (n : Nat) (p : Packet) (h : HostSide) : (h.place n p).cipherQ = h.cipherQ :=
  (congrArg HostSide.cipherQ (HostSide.place_restQ n p h) :)
@[simp] theorem HostSide.place_ceIe (n : Nat) (p : Packet) (h : HostSide) : (h.place n p).ceIe = h.ceIe :=
  (congrArg HostSide.ceIe (HostSide.place_restQ n p h) :)
@[simp] theorem HostSide.place_cus (n : Nat) (p : Packet) (h : HostSide) : (h.place n p).cus = h.cus :=
  (congrArg HostSide.cus (HostSide.place_restQ n p h) :)
@[simp] theorem HostSide.place_flash (n : Nat) (p : Packet) (h : HostSide) : (h.place n p).flash = h.flash :=
  (congrArg HostSide.flash (HostSide.place_restQ n p h) :)
@[simp] theorem HostSide.place_stamps (n : Nat) (p : Packet) (h : HostSide) : (h.place n p).stamps = h.stamps :=
  (congrArg HostSide.stamps (HostSide.place_restQ n p h) :)
@[simp] theorem HostSide.place_adjusted (n : Nat) (p : Packet) (h : HostSide) : (h.place n p).adjusted = h.adjusted :=
  (congrArg HostSide.adjusted (HostSide.place_restQ n p h) :)
@[simp] theorem HostSide.place_seqNext (n : Nat) (p : Packet) (h : HostSide) : (h.place n p).seqNext = h.seqNext :=
  (congrArg HostSide.seqNext (HostSide.place_restQ n p h) :)
@[simp] theorem HostSide.place_transport (n : Nat) (p : Packet) (h : HostSide) : (h.place n p).transport = h.transport :=
  (congrArg HostSide.transport (HostSide.place_restQ n p h) :)
@[simp] theorem HostSide.place_margins (n : Nat) (p : Packet) (h : HostSide) : (h.place n p).margins = h.margins :=
  (congrArg HostSide.margins (HostSide.place_restQ n p h) :)
@[simp] theorem HostSide.place_marginLow (n : Nat) (p : Packet) (h : HostSide) : (h.place n p).marginLow = h.marginLow :=
  (congrArg HostSide.marginLow (HostSide.place_restQ n p h) :)
@[simp] theorem HostSide.place_marginOwed (n : Nat) (p : Packet) (h : HostSide) : (h.place n p).marginOwed = h.marginOwed :=
  (congrArg HostSide.marginOwed (HostSide.place_restQ n p h) :)
@[simp] theorem HostSide.place_marginOkFrom (n : Nat) (p : Packet) (h : HostSide) : (h.place n p).marginOkFrom = h.marginOkFrom :=
  (congrArg HostSide.marginOkFrom (HostSide.place_restQ n p h) :)
@[simp] theorem HostSide.place_readData (n : Nat) (p : Packet) (h : HostSide) : (h.place n p).readData = h.readData :=
  (congrArg HostSide.readData (HostSide.place_restQ n p h) :)
@[simp] theorem HostSide.place_readsDone (n : Nat) (p : Packet) (h : HostSide) : (h.place n p).readsDone = h.readsDone :=
  (congrArg HostSide.readsDone (HostSide.place_restQ n p h) :)
@[simp] theorem HostSide.place_readBytes (n : Nat) (p : Packet) (h : HostSide) : (h.place n p).readBytes = h.readBytes :=
  (congrArg HostSide.readBytes (HostSide.place_restQ n p h) :)
@[simp] theorem HostSide.place_nodeIdSeen (n : Nat) (p : Packet) (h : HostSide) : (h.place n p).nodeIdSeen = h.nodeIdSeen :=
  (congrArg HostSide.nodeIdSeen (HostSide.place_restQ n p h) :)

@[simp] theorem HostSide.deliver_running (n : Nat) (h : HostSide) : (h.deliver n).running = h.running :=
  (congrArg HostSide.running (HostSide.deliver_rest n h) :)
@[simp] theorem HostSide.deliver_bootId (n : Nat) (h : HostSide) : (h.deliver n).bootId = h.bootId :=
  (congrArg HostSide.bootId (HostSide.deliver_rest n h) :)
@[simp] theorem HostSide.deliver_follower (n : Nat) (h : HostSide) : (h.deliver n).follower = h.follower :=
  (congrArg HostSide.follower (HostSide.deliver_rest n h) :)
@[simp] theorem HostSide.deliver_followerCoarse (n : Nat) (h : HostSide) : (h.deliver n).followerCoarse = h.followerCoarse :=
  (congrArg HostSide.followerCoarse (HostSide.deliver_rest n h) :)
@[simp] theorem HostSide.deliver_followerFree (n : Nat) (h : HostSide) : (h.deliver n).followerFree = h.followerFree :=
  (congrArg HostSide.followerFree (HostSide.deliver_rest n h) :)
@[simp] theorem HostSide.deliver_followerAhead (n : Nat) (h : HostSide) : (h.deliver n).followerAhead = h.followerAhead :=
  (congrArg HostSide.followerAhead (HostSide.deliver_rest n h) :)
@[simp] theorem HostSide.deliver_followerBehind (n : Nat) (h : HostSide) : (h.deliver n).followerBehind = h.followerBehind :=
  (congrArg HostSide.followerBehind (HostSide.deliver_rest n h) :)
@[simp] theorem HostSide.deliver_inSync (n : Nat) (h : HostSide) : (h.deliver n).inSync = h.inSync :=
  (congrArg HostSide.inSync (HostSide.deliver_rest n h) :)
@[simp] theorem HostSide.deliver_firstSync (n : Nat) (h : HostSide) : (h.deliver n).firstSync = h.firstSync :=
  (congrArg HostSide.firstSync (HostSide.deliver_rest n h) :)
@[simp] theorem HostSide.deliver_lastSync (n : Nat) (h : HostSide) : (h.deliver n).lastSync = h.lastSync :=
  (congrArg HostSide.lastSync (HostSide.deliver_rest n h) :)
@[simp] theorem HostSide.deliver_syncStep (n : Nat) (h : HostSide) : (h.deliver n).syncStep = h.syncStep :=
  (congrArg HostSide.syncStep (HostSide.deliver_rest n h) :)
@[simp] theorem HostSide.deliver_timeHi (n : Nat) (h : HostSide) : (h.deliver n).timeHi = h.timeHi :=
  (congrArg HostSide.timeHi (HostSide.deliver_rest n h) :)
@[simp] theorem HostSide.deliver_ppsOut (n : Nat) (h : HostSide) : (h.deliver n).ppsOut = h.ppsOut :=
  (congrArg HostSide.ppsOut (HostSide.deliver_rest n h) :)
@[simp] theorem HostSide.deliver_accepted (n : Nat) (h : HostSide) : (h.deliver n).accepted = h.accepted :=
  (congrArg HostSide.accepted (HostSide.deliver_rest n h) :)
@[simp] theorem HostSide.deliver_txq (n : Nat) (h : HostSide) : (h.deliver n).txq = h.txq :=
  (congrArg HostSide.txq (HostSide.deliver_rest n h) :)
@[simp] theorem HostSide.deliver_txHwm (n : Nat) (h : HostSide) : (h.deliver n).txHwm = h.txHwm :=
  (congrArg HostSide.txHwm (HostSide.deliver_rest n h) :)
@[simp] theorem HostSide.deliver_cuts (n : Nat) (h : HostSide) : (h.deliver n).cuts = h.cuts :=
  (congrArg HostSide.cuts (HostSide.deliver_rest n h) :)
@[simp] theorem HostSide.deliver_rxOrder (n : Nat) (h : HostSide) : (h.deliver n).rxOrder = h.rxOrder :=
  (congrArg HostSide.rxOrder (HostSide.deliver_rest n h) :)
@[simp] theorem HostSide.deliver_notes (n : Nat) (h : HostSide) : (h.deliver n).notes = h.notes :=
  (congrArg HostSide.notes (HostSide.deliver_rest n h) :)
@[simp] theorem HostSide.deliver_downAt (n : Nat) (h : HostSide) : (h.deliver n).downAt = h.downAt :=
  (congrArg HostSide.downAt (HostSide.deliver_rest n h) :)
@[simp] theorem HostSide.deliver_discarded (n : Nat) (h : HostSide) : (h.deliver n).discarded = h.discarded :=
  (congrArg HostSide.discarded (HostSide.deliver_rest n h) :)
@[simp] theorem HostSide.deliver_pci (n : Nat) (h : HostSide) : (h.deliver n).pci = h.pci :=
  (congrArg HostSide.pci (HostSide.deliver_rest n h) :)
@[simp] theorem HostSide.deliver_jtag (n : Nat) (h : HostSide) : (h.deliver n).jtag = h.jtag :=
  (congrArg HostSide.jtag (HostSide.deliver_rest n h) :)
@[simp] theorem HostSide.deliver_tdo (n : Nat) (h : HostSide) : (h.deliver n).tdo = h.tdo :=
  (congrArg HostSide.tdo (HostSide.deliver_rest n h) :)
@[simp] theorem HostSide.deliver_rings (n : Nat) (h : HostSide) : (h.deliver n).rings = h.rings :=
  (congrArg HostSide.rings (HostSide.deliver_rest n h) :)
@[simp] theorem HostSide.deliver_ptp (n : Nat) (h : HostSide) : (h.deliver n).ptp = h.ptp :=
  (congrArg HostSide.ptp (HostSide.deliver_rest n h) :)
@[simp] theorem HostSide.deliver_sp0Buf (n : Nat) (h : HostSide) : (h.deliver n).sp0Buf = h.sp0Buf :=
  (congrArg HostSide.sp0Buf (HostSide.deliver_rest n h) :)
@[simp] theorem HostSide.deliver_sp0Skip (n : Nat) (h : HostSide) : (h.deliver n).sp0Skip = h.sp0Skip :=
  (congrArg HostSide.sp0Skip (HostSide.deliver_rest n h) :)
@[simp] theorem HostSide.deliver_sp0Sent (n : Nat) (h : HostSide) : (h.deliver n).sp0Sent = h.sp0Sent :=
  (congrArg HostSide.sp0Sent (HostSide.deliver_rest n h) :)
@[simp] theorem HostSide.deliver_keys (n : Nat) (h : HostSide) : (h.deliver n).keys = h.keys :=
  (congrArg HostSide.keys (HostSide.deliver_rest n h) :)
@[simp] theorem HostSide.deliver_engines (n : Nat) (h : HostSide) : (h.deliver n).engines = h.engines :=
  (congrArg HostSide.engines (HostSide.deliver_rest n h) :)
@[simp] theorem HostSide.deliver_cipherQ (n : Nat) (h : HostSide) : (h.deliver n).cipherQ = h.cipherQ :=
  (congrArg HostSide.cipherQ (HostSide.deliver_rest n h) :)
@[simp] theorem HostSide.deliver_ceIe (n : Nat) (h : HostSide) : (h.deliver n).ceIe = h.ceIe :=
  (congrArg HostSide.ceIe (HostSide.deliver_rest n h) :)
@[simp] theorem HostSide.deliver_cus (n : Nat) (h : HostSide) : (h.deliver n).cus = h.cus :=
  (congrArg HostSide.cus (HostSide.deliver_rest n h) :)
@[simp] theorem HostSide.deliver_flash (n : Nat) (h : HostSide) : (h.deliver n).flash = h.flash :=
  (congrArg HostSide.flash (HostSide.deliver_rest n h) :)
@[simp] theorem HostSide.deliver_seqNext (n : Nat) (h : HostSide) : (h.deliver n).seqNext = h.seqNext :=
  (congrArg HostSide.seqNext (HostSide.deliver_rest n h) :)
@[simp] theorem HostSide.deliver_transport (n : Nat) (h : HostSide) : (h.deliver n).transport = h.transport :=
  (congrArg HostSide.transport (HostSide.deliver_rest n h) :)
@[simp] theorem HostSide.deliver_margins (n : Nat) (h : HostSide) : (h.deliver n).margins = h.margins :=
  (congrArg HostSide.margins (HostSide.deliver_rest n h) :)
@[simp] theorem HostSide.deliver_marginLow (n : Nat) (h : HostSide) : (h.deliver n).marginLow = h.marginLow :=
  (congrArg HostSide.marginLow (HostSide.deliver_rest n h) :)
@[simp] theorem HostSide.deliver_marginOwed (n : Nat) (h : HostSide) : (h.deliver n).marginOwed = h.marginOwed :=
  (congrArg HostSide.marginOwed (HostSide.deliver_rest n h) :)
@[simp] theorem HostSide.deliver_marginOkFrom (n : Nat) (h : HostSide) : (h.deliver n).marginOkFrom = h.marginOkFrom :=
  (congrArg HostSide.marginOkFrom (HostSide.deliver_rest n h) :)
@[simp] theorem HostSide.deliver_readData (n : Nat) (h : HostSide) : (h.deliver n).readData = h.readData :=
  (congrArg HostSide.readData (HostSide.deliver_rest n h) :)
@[simp] theorem HostSide.deliver_readsDone (n : Nat) (h : HostSide) : (h.deliver n).readsDone = h.readsDone :=
  (congrArg HostSide.readsDone (HostSide.deliver_rest n h) :)
@[simp] theorem HostSide.deliver_readBytes (n : Nat) (h : HostSide) : (h.deliver n).readBytes = h.readBytes :=
  (congrArg HostSide.readBytes (HostSide.deliver_rest n h) :)
@[simp] theorem HostSide.deliver_nodeIdSeen (n : Nat) (h : HostSide) : (h.deliver n).nodeIdSeen = h.nodeIdSeen :=
  (congrArg HostSide.nodeIdSeen (HostSide.deliver_rest n h) :)

@[simp] theorem HostSide.stamp_running (src : Nat) (t : Tick) (h : HostSide) : ((h.stamp src t).2.2).running = h.running := rfl
@[simp] theorem HostSide.stamp_bootId (src : Nat) (t : Tick) (h : HostSide) : ((h.stamp src t).2.2).bootId = h.bootId := rfl
@[simp] theorem HostSide.stamp_follower (src : Nat) (t : Tick) (h : HostSide) : ((h.stamp src t).2.2).follower = h.follower := rfl
@[simp] theorem HostSide.stamp_followerCoarse (src : Nat) (t : Tick) (h : HostSide) : ((h.stamp src t).2.2).followerCoarse = h.followerCoarse := rfl
@[simp] theorem HostSide.stamp_followerFree (src : Nat) (t : Tick) (h : HostSide) : ((h.stamp src t).2.2).followerFree = h.followerFree := rfl
@[simp] theorem HostSide.stamp_followerAhead (src : Nat) (t : Tick) (h : HostSide) : ((h.stamp src t).2.2).followerAhead = h.followerAhead := rfl
@[simp] theorem HostSide.stamp_followerBehind (src : Nat) (t : Tick) (h : HostSide) : ((h.stamp src t).2.2).followerBehind = h.followerBehind := rfl
@[simp] theorem HostSide.stamp_inSync (src : Nat) (t : Tick) (h : HostSide) : ((h.stamp src t).2.2).inSync = h.inSync := rfl
@[simp] theorem HostSide.stamp_firstSync (src : Nat) (t : Tick) (h : HostSide) : ((h.stamp src t).2.2).firstSync = h.firstSync := rfl
@[simp] theorem HostSide.stamp_lastSync (src : Nat) (t : Tick) (h : HostSide) : ((h.stamp src t).2.2).lastSync = h.lastSync := rfl
@[simp] theorem HostSide.stamp_syncStep (src : Nat) (t : Tick) (h : HostSide) : ((h.stamp src t).2.2).syncStep = h.syncStep := rfl
@[simp] theorem HostSide.stamp_timeHi (src : Nat) (t : Tick) (h : HostSide) : ((h.stamp src t).2.2).timeHi = h.timeHi := rfl
@[simp] theorem HostSide.stamp_ppsOut (src : Nat) (t : Tick) (h : HostSide) : ((h.stamp src t).2.2).ppsOut = h.ppsOut := rfl
@[simp] theorem HostSide.stamp_accepted (src : Nat) (t : Tick) (h : HostSide) : ((h.stamp src t).2.2).accepted = h.accepted := rfl
@[simp] theorem HostSide.stamp_queues (src : Nat) (t : Tick) (h : HostSide) : ((h.stamp src t).2.2).queues = h.queues := rfl
@[simp] theorem HostSide.stamp_txq (src : Nat) (t : Tick) (h : HostSide) : ((h.stamp src t).2.2).txq = h.txq := rfl
@[simp] theorem HostSide.stamp_txHwm (src : Nat) (t : Tick) (h : HostSide) : ((h.stamp src t).2.2).txHwm = h.txHwm := rfl
@[simp] theorem HostSide.stamp_cuts (src : Nat) (t : Tick) (h : HostSide) : ((h.stamp src t).2.2).cuts = h.cuts := rfl
@[simp] theorem HostSide.stamp_rxOrder (src : Nat) (t : Tick) (h : HostSide) : ((h.stamp src t).2.2).rxOrder = h.rxOrder := rfl
@[simp] theorem HostSide.stamp_notes (src : Nat) (t : Tick) (h : HostSide) : ((h.stamp src t).2.2).notes = h.notes := rfl
@[simp] theorem HostSide.stamp_downAt (src : Nat) (t : Tick) (h : HostSide) : ((h.stamp src t).2.2).downAt = h.downAt := rfl
@[simp] theorem HostSide.stamp_discarded (src : Nat) (t : Tick) (h : HostSide) : ((h.stamp src t).2.2).discarded = h.discarded := rfl
@[simp] theorem HostSide.stamp_ints (src : Nat) (t : Tick) (h : HostSide) : ((h.stamp src t).2.2).ints = h.ints := rfl
@[simp] theorem HostSide.stamp_pci (src : Nat) (t : Tick) (h : HostSide) : ((h.stamp src t).2.2).pci = h.pci := rfl
@[simp] theorem HostSide.stamp_jtag (src : Nat) (t : Tick) (h : HostSide) : ((h.stamp src t).2.2).jtag = h.jtag := rfl
@[simp] theorem HostSide.stamp_tdo (src : Nat) (t : Tick) (h : HostSide) : ((h.stamp src t).2.2).tdo = h.tdo := rfl
@[simp] theorem HostSide.stamp_rings (src : Nat) (t : Tick) (h : HostSide) : ((h.stamp src t).2.2).rings = h.rings := rfl
@[simp] theorem HostSide.stamp_eth (src : Nat) (t : Tick) (h : HostSide) : ((h.stamp src t).2.2).eth = h.eth := rfl
@[simp] theorem HostSide.stamp_ptp (src : Nat) (t : Tick) (h : HostSide) : ((h.stamp src t).2.2).ptp = h.ptp := rfl
@[simp] theorem HostSide.stamp_serials (src : Nat) (t : Tick) (h : HostSide) : ((h.stamp src t).2.2).serials = h.serials := rfl
@[simp] theorem HostSide.stamp_sp0Buf (src : Nat) (t : Tick) (h : HostSide) : ((h.stamp src t).2.2).sp0Buf = h.sp0Buf := rfl
@[simp] theorem HostSide.stamp_sp0Skip (src : Nat) (t : Tick) (h : HostSide) : ((h.stamp src t).2.2).sp0Skip = h.sp0Skip := rfl
@[simp] theorem HostSide.stamp_sp0Out (src : Nat) (t : Tick) (h : HostSide) : ((h.stamp src t).2.2).sp0Out = h.sp0Out := rfl
@[simp] theorem HostSide.stamp_sp0Sent (src : Nat) (t : Tick) (h : HostSide) : ((h.stamp src t).2.2).sp0Sent = h.sp0Sent := rfl
@[simp] theorem HostSide.stamp_keys (src : Nat) (t : Tick) (h : HostSide) : ((h.stamp src t).2.2).keys = h.keys := rfl
@[simp] theorem HostSide.stamp_engines (src : Nat) (t : Tick) (h : HostSide) : ((h.stamp src t).2.2).engines = h.engines := rfl
@[simp] theorem HostSide.stamp_cipherQ (src : Nat) (t : Tick) (h : HostSide) : ((h.stamp src t).2.2).cipherQ = h.cipherQ := rfl
@[simp] theorem HostSide.stamp_ceStatus (src : Nat) (t : Tick) (h : HostSide) : ((h.stamp src t).2.2).ceStatus = h.ceStatus := rfl
@[simp] theorem HostSide.stamp_ceIe (src : Nat) (t : Tick) (h : HostSide) : ((h.stamp src t).2.2).ceIe = h.ceIe := rfl
@[simp] theorem HostSide.stamp_cus (src : Nat) (t : Tick) (h : HostSide) : ((h.stamp src t).2.2).cus = h.cus := rfl
@[simp] theorem HostSide.stamp_mem (src : Nat) (t : Tick) (h : HostSide) : ((h.stamp src t).2.2).mem = h.mem := rfl
@[simp] theorem HostSide.stamp_flash (src : Nat) (t : Tick) (h : HostSide) : ((h.stamp src t).2.2).flash = h.flash := rfl
@[simp] theorem HostSide.stamp_seqNext (src : Nat) (t : Tick) (h : HostSide) : ((h.stamp src t).2.2).seqNext = h.seqNext := rfl
@[simp] theorem HostSide.stamp_transport (src : Nat) (t : Tick) (h : HostSide) : ((h.stamp src t).2.2).transport = h.transport := rfl
@[simp] theorem HostSide.stamp_margins (src : Nat) (t : Tick) (h : HostSide) : ((h.stamp src t).2.2).margins = h.margins := rfl
@[simp] theorem HostSide.stamp_marginLow (src : Nat) (t : Tick) (h : HostSide) : ((h.stamp src t).2.2).marginLow = h.marginLow := rfl
@[simp] theorem HostSide.stamp_marginOwed (src : Nat) (t : Tick) (h : HostSide) : ((h.stamp src t).2.2).marginOwed = h.marginOwed := rfl
@[simp] theorem HostSide.stamp_marginOkFrom (src : Nat) (t : Tick) (h : HostSide) : ((h.stamp src t).2.2).marginOkFrom = h.marginOkFrom := rfl
@[simp] theorem HostSide.stamp_readData (src : Nat) (t : Tick) (h : HostSide) : ((h.stamp src t).2.2).readData = h.readData := rfl
@[simp] theorem HostSide.stamp_readsDone (src : Nat) (t : Tick) (h : HostSide) : ((h.stamp src t).2.2).readsDone = h.readsDone := rfl
@[simp] theorem HostSide.stamp_readBytes (src : Nat) (t : Tick) (h : HostSide) : ((h.stamp src t).2.2).readBytes = h.readBytes := rfl
@[simp] theorem HostSide.stamp_nodeIdSeen (src : Nat) (t : Tick) (h : HostSide) : ((h.stamp src t).2.2).nodeIdSeen = h.nodeIdSeen := rfl
@[simp] theorem HostSide.stamp_freeCtr (src : Nat) (t : Tick) (h : HostSide) : ((h.stamp src t).2.2).freeCtr = h.freeCtr := rfl

@[simp] theorem HostSide.eventAt_running (t : Tick) (c src k : Nat) (ch : Bool) (ep : W16) (u : Nat) (ws : List W16) (h : HostSide) : (h.eventAt t c src k ch ep u ws).running = h.running :=
  (congrArg HostSide.running (HostSide.eventAt_rest t c src k ch ep u ws h) :)
@[simp] theorem HostSide.eventAt_bootId (t : Tick) (c src k : Nat) (ch : Bool) (ep : W16) (u : Nat) (ws : List W16) (h : HostSide) : (h.eventAt t c src k ch ep u ws).bootId = h.bootId :=
  (congrArg HostSide.bootId (HostSide.eventAt_rest t c src k ch ep u ws h) :)
@[simp] theorem HostSide.eventAt_follower (t : Tick) (c src k : Nat) (ch : Bool) (ep : W16) (u : Nat) (ws : List W16) (h : HostSide) : (h.eventAt t c src k ch ep u ws).follower = h.follower :=
  (congrArg HostSide.follower (HostSide.eventAt_rest t c src k ch ep u ws h) :)
@[simp] theorem HostSide.eventAt_followerCoarse (t : Tick) (c src k : Nat) (ch : Bool) (ep : W16) (u : Nat) (ws : List W16) (h : HostSide) : (h.eventAt t c src k ch ep u ws).followerCoarse = h.followerCoarse :=
  (congrArg HostSide.followerCoarse (HostSide.eventAt_rest t c src k ch ep u ws h) :)
@[simp] theorem HostSide.eventAt_followerFree (t : Tick) (c src k : Nat) (ch : Bool) (ep : W16) (u : Nat) (ws : List W16) (h : HostSide) : (h.eventAt t c src k ch ep u ws).followerFree = h.followerFree :=
  (congrArg HostSide.followerFree (HostSide.eventAt_rest t c src k ch ep u ws h) :)
@[simp] theorem HostSide.eventAt_followerAhead (t : Tick) (c src k : Nat) (ch : Bool) (ep : W16) (u : Nat) (ws : List W16) (h : HostSide) : (h.eventAt t c src k ch ep u ws).followerAhead = h.followerAhead :=
  (congrArg HostSide.followerAhead (HostSide.eventAt_rest t c src k ch ep u ws h) :)
@[simp] theorem HostSide.eventAt_followerBehind (t : Tick) (c src k : Nat) (ch : Bool) (ep : W16) (u : Nat) (ws : List W16) (h : HostSide) : (h.eventAt t c src k ch ep u ws).followerBehind = h.followerBehind :=
  (congrArg HostSide.followerBehind (HostSide.eventAt_rest t c src k ch ep u ws h) :)
@[simp] theorem HostSide.eventAt_inSync (t : Tick) (c src k : Nat) (ch : Bool) (ep : W16) (u : Nat) (ws : List W16) (h : HostSide) : (h.eventAt t c src k ch ep u ws).inSync = h.inSync :=
  (congrArg HostSide.inSync (HostSide.eventAt_rest t c src k ch ep u ws h) :)
@[simp] theorem HostSide.eventAt_firstSync (t : Tick) (c src k : Nat) (ch : Bool) (ep : W16) (u : Nat) (ws : List W16) (h : HostSide) : (h.eventAt t c src k ch ep u ws).firstSync = h.firstSync :=
  (congrArg HostSide.firstSync (HostSide.eventAt_rest t c src k ch ep u ws h) :)
@[simp] theorem HostSide.eventAt_lastSync (t : Tick) (c src k : Nat) (ch : Bool) (ep : W16) (u : Nat) (ws : List W16) (h : HostSide) : (h.eventAt t c src k ch ep u ws).lastSync = h.lastSync :=
  (congrArg HostSide.lastSync (HostSide.eventAt_rest t c src k ch ep u ws h) :)
@[simp] theorem HostSide.eventAt_syncStep (t : Tick) (c src k : Nat) (ch : Bool) (ep : W16) (u : Nat) (ws : List W16) (h : HostSide) : (h.eventAt t c src k ch ep u ws).syncStep = h.syncStep :=
  (congrArg HostSide.syncStep (HostSide.eventAt_rest t c src k ch ep u ws h) :)
@[simp] theorem HostSide.eventAt_timeHi (t : Tick) (c src k : Nat) (ch : Bool) (ep : W16) (u : Nat) (ws : List W16) (h : HostSide) : (h.eventAt t c src k ch ep u ws).timeHi = h.timeHi :=
  (congrArg HostSide.timeHi (HostSide.eventAt_rest t c src k ch ep u ws h) :)
@[simp] theorem HostSide.eventAt_ppsOut (t : Tick) (c src k : Nat) (ch : Bool) (ep : W16) (u : Nat) (ws : List W16) (h : HostSide) : (h.eventAt t c src k ch ep u ws).ppsOut = h.ppsOut :=
  (congrArg HostSide.ppsOut (HostSide.eventAt_rest t c src k ch ep u ws h) :)
@[simp] theorem HostSide.eventAt_accepted (t : Tick) (c src k : Nat) (ch : Bool) (ep : W16) (u : Nat) (ws : List W16) (h : HostSide) : (h.eventAt t c src k ch ep u ws).accepted = h.accepted :=
  (congrArg HostSide.accepted (HostSide.eventAt_rest t c src k ch ep u ws h) :)
@[simp] theorem HostSide.eventAt_txq (t : Tick) (c src k : Nat) (ch : Bool) (ep : W16) (u : Nat) (ws : List W16) (h : HostSide) : (h.eventAt t c src k ch ep u ws).txq = h.txq :=
  (congrArg HostSide.txq (HostSide.eventAt_rest t c src k ch ep u ws h) :)
@[simp] theorem HostSide.eventAt_txHwm (t : Tick) (c src k : Nat) (ch : Bool) (ep : W16) (u : Nat) (ws : List W16) (h : HostSide) : (h.eventAt t c src k ch ep u ws).txHwm = h.txHwm :=
  (congrArg HostSide.txHwm (HostSide.eventAt_rest t c src k ch ep u ws h) :)
@[simp] theorem HostSide.eventAt_cuts (t : Tick) (c src k : Nat) (ch : Bool) (ep : W16) (u : Nat) (ws : List W16) (h : HostSide) : (h.eventAt t c src k ch ep u ws).cuts = h.cuts :=
  (congrArg HostSide.cuts (HostSide.eventAt_rest t c src k ch ep u ws h) :)
@[simp] theorem HostSide.eventAt_rxOrder (t : Tick) (c src k : Nat) (ch : Bool) (ep : W16) (u : Nat) (ws : List W16) (h : HostSide) : (h.eventAt t c src k ch ep u ws).rxOrder = h.rxOrder :=
  (congrArg HostSide.rxOrder (HostSide.eventAt_rest t c src k ch ep u ws h) :)
@[simp] theorem HostSide.eventAt_notes (t : Tick) (c src k : Nat) (ch : Bool) (ep : W16) (u : Nat) (ws : List W16) (h : HostSide) : (h.eventAt t c src k ch ep u ws).notes = h.notes :=
  (congrArg HostSide.notes (HostSide.eventAt_rest t c src k ch ep u ws h) :)
@[simp] theorem HostSide.eventAt_downAt (t : Tick) (c src k : Nat) (ch : Bool) (ep : W16) (u : Nat) (ws : List W16) (h : HostSide) : (h.eventAt t c src k ch ep u ws).downAt = h.downAt :=
  (congrArg HostSide.downAt (HostSide.eventAt_rest t c src k ch ep u ws h) :)
@[simp] theorem HostSide.eventAt_discarded (t : Tick) (c src k : Nat) (ch : Bool) (ep : W16) (u : Nat) (ws : List W16) (h : HostSide) : (h.eventAt t c src k ch ep u ws).discarded = h.discarded :=
  (congrArg HostSide.discarded (HostSide.eventAt_rest t c src k ch ep u ws h) :)
@[simp] theorem HostSide.eventAt_pci (t : Tick) (c src k : Nat) (ch : Bool) (ep : W16) (u : Nat) (ws : List W16) (h : HostSide) : (h.eventAt t c src k ch ep u ws).pci = h.pci :=
  (congrArg HostSide.pci (HostSide.eventAt_rest t c src k ch ep u ws h) :)
@[simp] theorem HostSide.eventAt_jtag (t : Tick) (c src k : Nat) (ch : Bool) (ep : W16) (u : Nat) (ws : List W16) (h : HostSide) : (h.eventAt t c src k ch ep u ws).jtag = h.jtag :=
  (congrArg HostSide.jtag (HostSide.eventAt_rest t c src k ch ep u ws h) :)
@[simp] theorem HostSide.eventAt_tdo (t : Tick) (c src k : Nat) (ch : Bool) (ep : W16) (u : Nat) (ws : List W16) (h : HostSide) : (h.eventAt t c src k ch ep u ws).tdo = h.tdo :=
  (congrArg HostSide.tdo (HostSide.eventAt_rest t c src k ch ep u ws h) :)
@[simp] theorem HostSide.eventAt_rings (t : Tick) (c src k : Nat) (ch : Bool) (ep : W16) (u : Nat) (ws : List W16) (h : HostSide) : (h.eventAt t c src k ch ep u ws).rings = h.rings :=
  (congrArg HostSide.rings (HostSide.eventAt_rest t c src k ch ep u ws h) :)
@[simp] theorem HostSide.eventAt_ptp (t : Tick) (c src k : Nat) (ch : Bool) (ep : W16) (u : Nat) (ws : List W16) (h : HostSide) : (h.eventAt t c src k ch ep u ws).ptp = h.ptp :=
  (congrArg HostSide.ptp (HostSide.eventAt_rest t c src k ch ep u ws h) :)
@[simp] theorem HostSide.eventAt_sp0Buf (t : Tick) (c src k : Nat) (ch : Bool) (ep : W16) (u : Nat) (ws : List W16) (h : HostSide) : (h.eventAt t c src k ch ep u ws).sp0Buf = h.sp0Buf :=
  (congrArg HostSide.sp0Buf (HostSide.eventAt_rest t c src k ch ep u ws h) :)
@[simp] theorem HostSide.eventAt_sp0Skip (t : Tick) (c src k : Nat) (ch : Bool) (ep : W16) (u : Nat) (ws : List W16) (h : HostSide) : (h.eventAt t c src k ch ep u ws).sp0Skip = h.sp0Skip :=
  (congrArg HostSide.sp0Skip (HostSide.eventAt_rest t c src k ch ep u ws h) :)
@[simp] theorem HostSide.eventAt_sp0Sent (t : Tick) (c src k : Nat) (ch : Bool) (ep : W16) (u : Nat) (ws : List W16) (h : HostSide) : (h.eventAt t c src k ch ep u ws).sp0Sent = h.sp0Sent :=
  (congrArg HostSide.sp0Sent (HostSide.eventAt_rest t c src k ch ep u ws h) :)
@[simp] theorem HostSide.eventAt_keys (t : Tick) (c src k : Nat) (ch : Bool) (ep : W16) (u : Nat) (ws : List W16) (h : HostSide) : (h.eventAt t c src k ch ep u ws).keys = h.keys :=
  (congrArg HostSide.keys (HostSide.eventAt_rest t c src k ch ep u ws h) :)
@[simp] theorem HostSide.eventAt_engines (t : Tick) (c src k : Nat) (ch : Bool) (ep : W16) (u : Nat) (ws : List W16) (h : HostSide) : (h.eventAt t c src k ch ep u ws).engines = h.engines :=
  (congrArg HostSide.engines (HostSide.eventAt_rest t c src k ch ep u ws h) :)
@[simp] theorem HostSide.eventAt_cipherQ (t : Tick) (c src k : Nat) (ch : Bool) (ep : W16) (u : Nat) (ws : List W16) (h : HostSide) : (h.eventAt t c src k ch ep u ws).cipherQ = h.cipherQ :=
  (congrArg HostSide.cipherQ (HostSide.eventAt_rest t c src k ch ep u ws h) :)
@[simp] theorem HostSide.eventAt_ceIe (t : Tick) (c src k : Nat) (ch : Bool) (ep : W16) (u : Nat) (ws : List W16) (h : HostSide) : (h.eventAt t c src k ch ep u ws).ceIe = h.ceIe :=
  (congrArg HostSide.ceIe (HostSide.eventAt_rest t c src k ch ep u ws h) :)
@[simp] theorem HostSide.eventAt_cus (t : Tick) (c src k : Nat) (ch : Bool) (ep : W16) (u : Nat) (ws : List W16) (h : HostSide) : (h.eventAt t c src k ch ep u ws).cus = h.cus :=
  (congrArg HostSide.cus (HostSide.eventAt_rest t c src k ch ep u ws h) :)
@[simp] theorem HostSide.eventAt_flash (t : Tick) (c src k : Nat) (ch : Bool) (ep : W16) (u : Nat) (ws : List W16) (h : HostSide) : (h.eventAt t c src k ch ep u ws).flash = h.flash :=
  (congrArg HostSide.flash (HostSide.eventAt_rest t c src k ch ep u ws h) :)
@[simp] theorem HostSide.eventAt_seqNext (t : Tick) (c src k : Nat) (ch : Bool) (ep : W16) (u : Nat) (ws : List W16) (h : HostSide) : (h.eventAt t c src k ch ep u ws).seqNext = h.seqNext :=
  (congrArg HostSide.seqNext (HostSide.eventAt_rest t c src k ch ep u ws h) :)
@[simp] theorem HostSide.eventAt_transport (t : Tick) (c src k : Nat) (ch : Bool) (ep : W16) (u : Nat) (ws : List W16) (h : HostSide) : (h.eventAt t c src k ch ep u ws).transport = h.transport :=
  (congrArg HostSide.transport (HostSide.eventAt_rest t c src k ch ep u ws h) :)
@[simp] theorem HostSide.eventAt_margins (t : Tick) (c src k : Nat) (ch : Bool) (ep : W16) (u : Nat) (ws : List W16) (h : HostSide) : (h.eventAt t c src k ch ep u ws).margins = h.margins :=
  (congrArg HostSide.margins (HostSide.eventAt_rest t c src k ch ep u ws h) :)
@[simp] theorem HostSide.eventAt_marginLow (t : Tick) (c src k : Nat) (ch : Bool) (ep : W16) (u : Nat) (ws : List W16) (h : HostSide) : (h.eventAt t c src k ch ep u ws).marginLow = h.marginLow :=
  (congrArg HostSide.marginLow (HostSide.eventAt_rest t c src k ch ep u ws h) :)
@[simp] theorem HostSide.eventAt_marginOwed (t : Tick) (c src k : Nat) (ch : Bool) (ep : W16) (u : Nat) (ws : List W16) (h : HostSide) : (h.eventAt t c src k ch ep u ws).marginOwed = h.marginOwed :=
  (congrArg HostSide.marginOwed (HostSide.eventAt_rest t c src k ch ep u ws h) :)
@[simp] theorem HostSide.eventAt_marginOkFrom (t : Tick) (c src k : Nat) (ch : Bool) (ep : W16) (u : Nat) (ws : List W16) (h : HostSide) : (h.eventAt t c src k ch ep u ws).marginOkFrom = h.marginOkFrom :=
  (congrArg HostSide.marginOkFrom (HostSide.eventAt_rest t c src k ch ep u ws h) :)
@[simp] theorem HostSide.eventAt_readData (t : Tick) (c src k : Nat) (ch : Bool) (ep : W16) (u : Nat) (ws : List W16) (h : HostSide) : (h.eventAt t c src k ch ep u ws).readData = h.readData :=
  (congrArg HostSide.readData (HostSide.eventAt_rest t c src k ch ep u ws h) :)
@[simp] theorem HostSide.eventAt_readsDone (t : Tick) (c src k : Nat) (ch : Bool) (ep : W16) (u : Nat) (ws : List W16) (h : HostSide) : (h.eventAt t c src k ch ep u ws).readsDone = h.readsDone :=
  (congrArg HostSide.readsDone (HostSide.eventAt_rest t c src k ch ep u ws h) :)
@[simp] theorem HostSide.eventAt_readBytes (t : Tick) (c src k : Nat) (ch : Bool) (ep : W16) (u : Nat) (ws : List W16) (h : HostSide) : (h.eventAt t c src k ch ep u ws).readBytes = h.readBytes :=
  (congrArg HostSide.readBytes (HostSide.eventAt_rest t c src k ch ep u ws h) :)
@[simp] theorem HostSide.eventAt_nodeIdSeen (t : Tick) (c src k : Nat) (ch : Bool) (ep : W16) (u : Nat) (ws : List W16) (h : HostSide) : (h.eventAt t c src k ch ep u ws).nodeIdSeen = h.nodeIdSeen :=
  (congrArg HostSide.nodeIdSeen (HostSide.eventAt_rest t c src k ch ep u ws h) :)

@[simp] theorem HostSide.event_running (c src k : Nat) (ch : Bool) (ep : W16) (u : Nat) (ws : List W16) (h : HostSide) : (h.event c src k ch ep u ws).running = h.running :=
  (congrArg HostSide.running (HostSide.event_rest c src k ch ep u ws h) :)
@[simp] theorem HostSide.event_bootId (c src k : Nat) (ch : Bool) (ep : W16) (u : Nat) (ws : List W16) (h : HostSide) : (h.event c src k ch ep u ws).bootId = h.bootId :=
  (congrArg HostSide.bootId (HostSide.event_rest c src k ch ep u ws h) :)
@[simp] theorem HostSide.event_follower (c src k : Nat) (ch : Bool) (ep : W16) (u : Nat) (ws : List W16) (h : HostSide) : (h.event c src k ch ep u ws).follower = h.follower :=
  (congrArg HostSide.follower (HostSide.event_rest c src k ch ep u ws h) :)
@[simp] theorem HostSide.event_followerCoarse (c src k : Nat) (ch : Bool) (ep : W16) (u : Nat) (ws : List W16) (h : HostSide) : (h.event c src k ch ep u ws).followerCoarse = h.followerCoarse :=
  (congrArg HostSide.followerCoarse (HostSide.event_rest c src k ch ep u ws h) :)
@[simp] theorem HostSide.event_followerFree (c src k : Nat) (ch : Bool) (ep : W16) (u : Nat) (ws : List W16) (h : HostSide) : (h.event c src k ch ep u ws).followerFree = h.followerFree :=
  (congrArg HostSide.followerFree (HostSide.event_rest c src k ch ep u ws h) :)
@[simp] theorem HostSide.event_followerAhead (c src k : Nat) (ch : Bool) (ep : W16) (u : Nat) (ws : List W16) (h : HostSide) : (h.event c src k ch ep u ws).followerAhead = h.followerAhead :=
  (congrArg HostSide.followerAhead (HostSide.event_rest c src k ch ep u ws h) :)
@[simp] theorem HostSide.event_followerBehind (c src k : Nat) (ch : Bool) (ep : W16) (u : Nat) (ws : List W16) (h : HostSide) : (h.event c src k ch ep u ws).followerBehind = h.followerBehind :=
  (congrArg HostSide.followerBehind (HostSide.event_rest c src k ch ep u ws h) :)
@[simp] theorem HostSide.event_inSync (c src k : Nat) (ch : Bool) (ep : W16) (u : Nat) (ws : List W16) (h : HostSide) : (h.event c src k ch ep u ws).inSync = h.inSync :=
  (congrArg HostSide.inSync (HostSide.event_rest c src k ch ep u ws h) :)
@[simp] theorem HostSide.event_firstSync (c src k : Nat) (ch : Bool) (ep : W16) (u : Nat) (ws : List W16) (h : HostSide) : (h.event c src k ch ep u ws).firstSync = h.firstSync :=
  (congrArg HostSide.firstSync (HostSide.event_rest c src k ch ep u ws h) :)
@[simp] theorem HostSide.event_lastSync (c src k : Nat) (ch : Bool) (ep : W16) (u : Nat) (ws : List W16) (h : HostSide) : (h.event c src k ch ep u ws).lastSync = h.lastSync :=
  (congrArg HostSide.lastSync (HostSide.event_rest c src k ch ep u ws h) :)
@[simp] theorem HostSide.event_syncStep (c src k : Nat) (ch : Bool) (ep : W16) (u : Nat) (ws : List W16) (h : HostSide) : (h.event c src k ch ep u ws).syncStep = h.syncStep :=
  (congrArg HostSide.syncStep (HostSide.event_rest c src k ch ep u ws h) :)
@[simp] theorem HostSide.event_timeHi (c src k : Nat) (ch : Bool) (ep : W16) (u : Nat) (ws : List W16) (h : HostSide) : (h.event c src k ch ep u ws).timeHi = h.timeHi :=
  (congrArg HostSide.timeHi (HostSide.event_rest c src k ch ep u ws h) :)
@[simp] theorem HostSide.event_ppsOut (c src k : Nat) (ch : Bool) (ep : W16) (u : Nat) (ws : List W16) (h : HostSide) : (h.event c src k ch ep u ws).ppsOut = h.ppsOut :=
  (congrArg HostSide.ppsOut (HostSide.event_rest c src k ch ep u ws h) :)
@[simp] theorem HostSide.event_accepted (c src k : Nat) (ch : Bool) (ep : W16) (u : Nat) (ws : List W16) (h : HostSide) : (h.event c src k ch ep u ws).accepted = h.accepted :=
  (congrArg HostSide.accepted (HostSide.event_rest c src k ch ep u ws h) :)
@[simp] theorem HostSide.event_txq (c src k : Nat) (ch : Bool) (ep : W16) (u : Nat) (ws : List W16) (h : HostSide) : (h.event c src k ch ep u ws).txq = h.txq :=
  (congrArg HostSide.txq (HostSide.event_rest c src k ch ep u ws h) :)
@[simp] theorem HostSide.event_txHwm (c src k : Nat) (ch : Bool) (ep : W16) (u : Nat) (ws : List W16) (h : HostSide) : (h.event c src k ch ep u ws).txHwm = h.txHwm :=
  (congrArg HostSide.txHwm (HostSide.event_rest c src k ch ep u ws h) :)
@[simp] theorem HostSide.event_cuts (c src k : Nat) (ch : Bool) (ep : W16) (u : Nat) (ws : List W16) (h : HostSide) : (h.event c src k ch ep u ws).cuts = h.cuts :=
  (congrArg HostSide.cuts (HostSide.event_rest c src k ch ep u ws h) :)
@[simp] theorem HostSide.event_rxOrder (c src k : Nat) (ch : Bool) (ep : W16) (u : Nat) (ws : List W16) (h : HostSide) : (h.event c src k ch ep u ws).rxOrder = h.rxOrder :=
  (congrArg HostSide.rxOrder (HostSide.event_rest c src k ch ep u ws h) :)
@[simp] theorem HostSide.event_notes (c src k : Nat) (ch : Bool) (ep : W16) (u : Nat) (ws : List W16) (h : HostSide) : (h.event c src k ch ep u ws).notes = h.notes :=
  (congrArg HostSide.notes (HostSide.event_rest c src k ch ep u ws h) :)
@[simp] theorem HostSide.event_downAt (c src k : Nat) (ch : Bool) (ep : W16) (u : Nat) (ws : List W16) (h : HostSide) : (h.event c src k ch ep u ws).downAt = h.downAt :=
  (congrArg HostSide.downAt (HostSide.event_rest c src k ch ep u ws h) :)
@[simp] theorem HostSide.event_discarded (c src k : Nat) (ch : Bool) (ep : W16) (u : Nat) (ws : List W16) (h : HostSide) : (h.event c src k ch ep u ws).discarded = h.discarded :=
  (congrArg HostSide.discarded (HostSide.event_rest c src k ch ep u ws h) :)
@[simp] theorem HostSide.event_pci (c src k : Nat) (ch : Bool) (ep : W16) (u : Nat) (ws : List W16) (h : HostSide) : (h.event c src k ch ep u ws).pci = h.pci :=
  (congrArg HostSide.pci (HostSide.event_rest c src k ch ep u ws h) :)
@[simp] theorem HostSide.event_jtag (c src k : Nat) (ch : Bool) (ep : W16) (u : Nat) (ws : List W16) (h : HostSide) : (h.event c src k ch ep u ws).jtag = h.jtag :=
  (congrArg HostSide.jtag (HostSide.event_rest c src k ch ep u ws h) :)
@[simp] theorem HostSide.event_tdo (c src k : Nat) (ch : Bool) (ep : W16) (u : Nat) (ws : List W16) (h : HostSide) : (h.event c src k ch ep u ws).tdo = h.tdo :=
  (congrArg HostSide.tdo (HostSide.event_rest c src k ch ep u ws h) :)
@[simp] theorem HostSide.event_rings (c src k : Nat) (ch : Bool) (ep : W16) (u : Nat) (ws : List W16) (h : HostSide) : (h.event c src k ch ep u ws).rings = h.rings :=
  (congrArg HostSide.rings (HostSide.event_rest c src k ch ep u ws h) :)
@[simp] theorem HostSide.event_ptp (c src k : Nat) (ch : Bool) (ep : W16) (u : Nat) (ws : List W16) (h : HostSide) : (h.event c src k ch ep u ws).ptp = h.ptp :=
  (congrArg HostSide.ptp (HostSide.event_rest c src k ch ep u ws h) :)
@[simp] theorem HostSide.event_sp0Buf (c src k : Nat) (ch : Bool) (ep : W16) (u : Nat) (ws : List W16) (h : HostSide) : (h.event c src k ch ep u ws).sp0Buf = h.sp0Buf :=
  (congrArg HostSide.sp0Buf (HostSide.event_rest c src k ch ep u ws h) :)
@[simp] theorem HostSide.event_sp0Skip (c src k : Nat) (ch : Bool) (ep : W16) (u : Nat) (ws : List W16) (h : HostSide) : (h.event c src k ch ep u ws).sp0Skip = h.sp0Skip :=
  (congrArg HostSide.sp0Skip (HostSide.event_rest c src k ch ep u ws h) :)
@[simp] theorem HostSide.event_sp0Sent (c src k : Nat) (ch : Bool) (ep : W16) (u : Nat) (ws : List W16) (h : HostSide) : (h.event c src k ch ep u ws).sp0Sent = h.sp0Sent :=
  (congrArg HostSide.sp0Sent (HostSide.event_rest c src k ch ep u ws h) :)
@[simp] theorem HostSide.event_keys (c src k : Nat) (ch : Bool) (ep : W16) (u : Nat) (ws : List W16) (h : HostSide) : (h.event c src k ch ep u ws).keys = h.keys :=
  (congrArg HostSide.keys (HostSide.event_rest c src k ch ep u ws h) :)
@[simp] theorem HostSide.event_engines (c src k : Nat) (ch : Bool) (ep : W16) (u : Nat) (ws : List W16) (h : HostSide) : (h.event c src k ch ep u ws).engines = h.engines :=
  (congrArg HostSide.engines (HostSide.event_rest c src k ch ep u ws h) :)
@[simp] theorem HostSide.event_cipherQ (c src k : Nat) (ch : Bool) (ep : W16) (u : Nat) (ws : List W16) (h : HostSide) : (h.event c src k ch ep u ws).cipherQ = h.cipherQ :=
  (congrArg HostSide.cipherQ (HostSide.event_rest c src k ch ep u ws h) :)
@[simp] theorem HostSide.event_ceIe (c src k : Nat) (ch : Bool) (ep : W16) (u : Nat) (ws : List W16) (h : HostSide) : (h.event c src k ch ep u ws).ceIe = h.ceIe :=
  (congrArg HostSide.ceIe (HostSide.event_rest c src k ch ep u ws h) :)
@[simp] theorem HostSide.event_cus (c src k : Nat) (ch : Bool) (ep : W16) (u : Nat) (ws : List W16) (h : HostSide) : (h.event c src k ch ep u ws).cus = h.cus :=
  (congrArg HostSide.cus (HostSide.event_rest c src k ch ep u ws h) :)
@[simp] theorem HostSide.event_flash (c src k : Nat) (ch : Bool) (ep : W16) (u : Nat) (ws : List W16) (h : HostSide) : (h.event c src k ch ep u ws).flash = h.flash :=
  (congrArg HostSide.flash (HostSide.event_rest c src k ch ep u ws h) :)
@[simp] theorem HostSide.event_seqNext (c src k : Nat) (ch : Bool) (ep : W16) (u : Nat) (ws : List W16) (h : HostSide) : (h.event c src k ch ep u ws).seqNext = h.seqNext :=
  (congrArg HostSide.seqNext (HostSide.event_rest c src k ch ep u ws h) :)
@[simp] theorem HostSide.event_transport (c src k : Nat) (ch : Bool) (ep : W16) (u : Nat) (ws : List W16) (h : HostSide) : (h.event c src k ch ep u ws).transport = h.transport :=
  (congrArg HostSide.transport (HostSide.event_rest c src k ch ep u ws h) :)
@[simp] theorem HostSide.event_margins (c src k : Nat) (ch : Bool) (ep : W16) (u : Nat) (ws : List W16) (h : HostSide) : (h.event c src k ch ep u ws).margins = h.margins :=
  (congrArg HostSide.margins (HostSide.event_rest c src k ch ep u ws h) :)
@[simp] theorem HostSide.event_marginLow (c src k : Nat) (ch : Bool) (ep : W16) (u : Nat) (ws : List W16) (h : HostSide) : (h.event c src k ch ep u ws).marginLow = h.marginLow :=
  (congrArg HostSide.marginLow (HostSide.event_rest c src k ch ep u ws h) :)
@[simp] theorem HostSide.event_marginOwed (c src k : Nat) (ch : Bool) (ep : W16) (u : Nat) (ws : List W16) (h : HostSide) : (h.event c src k ch ep u ws).marginOwed = h.marginOwed :=
  (congrArg HostSide.marginOwed (HostSide.event_rest c src k ch ep u ws h) :)
@[simp] theorem HostSide.event_marginOkFrom (c src k : Nat) (ch : Bool) (ep : W16) (u : Nat) (ws : List W16) (h : HostSide) : (h.event c src k ch ep u ws).marginOkFrom = h.marginOkFrom :=
  (congrArg HostSide.marginOkFrom (HostSide.event_rest c src k ch ep u ws h) :)
@[simp] theorem HostSide.event_readData (c src k : Nat) (ch : Bool) (ep : W16) (u : Nat) (ws : List W16) (h : HostSide) : (h.event c src k ch ep u ws).readData = h.readData :=
  (congrArg HostSide.readData (HostSide.event_rest c src k ch ep u ws h) :)
@[simp] theorem HostSide.event_readsDone (c src k : Nat) (ch : Bool) (ep : W16) (u : Nat) (ws : List W16) (h : HostSide) : (h.event c src k ch ep u ws).readsDone = h.readsDone :=
  (congrArg HostSide.readsDone (HostSide.event_rest c src k ch ep u ws h) :)
@[simp] theorem HostSide.event_readBytes (c src k : Nat) (ch : Bool) (ep : W16) (u : Nat) (ws : List W16) (h : HostSide) : (h.event c src k ch ep u ws).readBytes = h.readBytes :=
  (congrArg HostSide.readBytes (HostSide.event_rest c src k ch ep u ws h) :)
@[simp] theorem HostSide.event_nodeIdSeen (c src k : Nat) (ch : Bool) (ep : W16) (u : Nat) (ws : List W16) (h : HostSide) : (h.event c src k ch ep u ws).nodeIdSeen = h.nodeIdSeen :=
  (congrArg HostSide.nodeIdSeen (HostSide.event_rest c src k ch ep u ws h) :)

@[simp] theorem HostSide.sendReply_running (a : Accepted) (ws : List W16) (h : HostSide) : (h.sendReply a ws).running = h.running :=
  (congrArg HostSide.running (HostSide.sendReply_rest a ws h) :)
@[simp] theorem HostSide.sendReply_bootId (a : Accepted) (ws : List W16) (h : HostSide) : (h.sendReply a ws).bootId = h.bootId :=
  (congrArg HostSide.bootId (HostSide.sendReply_rest a ws h) :)
@[simp] theorem HostSide.sendReply_follower (a : Accepted) (ws : List W16) (h : HostSide) : (h.sendReply a ws).follower = h.follower :=
  (congrArg HostSide.follower (HostSide.sendReply_rest a ws h) :)
@[simp] theorem HostSide.sendReply_followerCoarse (a : Accepted) (ws : List W16) (h : HostSide) : (h.sendReply a ws).followerCoarse = h.followerCoarse :=
  (congrArg HostSide.followerCoarse (HostSide.sendReply_rest a ws h) :)
@[simp] theorem HostSide.sendReply_followerFree (a : Accepted) (ws : List W16) (h : HostSide) : (h.sendReply a ws).followerFree = h.followerFree :=
  (congrArg HostSide.followerFree (HostSide.sendReply_rest a ws h) :)
@[simp] theorem HostSide.sendReply_followerAhead (a : Accepted) (ws : List W16) (h : HostSide) : (h.sendReply a ws).followerAhead = h.followerAhead :=
  (congrArg HostSide.followerAhead (HostSide.sendReply_rest a ws h) :)
@[simp] theorem HostSide.sendReply_followerBehind (a : Accepted) (ws : List W16) (h : HostSide) : (h.sendReply a ws).followerBehind = h.followerBehind :=
  (congrArg HostSide.followerBehind (HostSide.sendReply_rest a ws h) :)
@[simp] theorem HostSide.sendReply_inSync (a : Accepted) (ws : List W16) (h : HostSide) : (h.sendReply a ws).inSync = h.inSync :=
  (congrArg HostSide.inSync (HostSide.sendReply_rest a ws h) :)
@[simp] theorem HostSide.sendReply_firstSync (a : Accepted) (ws : List W16) (h : HostSide) : (h.sendReply a ws).firstSync = h.firstSync :=
  (congrArg HostSide.firstSync (HostSide.sendReply_rest a ws h) :)
@[simp] theorem HostSide.sendReply_lastSync (a : Accepted) (ws : List W16) (h : HostSide) : (h.sendReply a ws).lastSync = h.lastSync :=
  (congrArg HostSide.lastSync (HostSide.sendReply_rest a ws h) :)
@[simp] theorem HostSide.sendReply_syncStep (a : Accepted) (ws : List W16) (h : HostSide) : (h.sendReply a ws).syncStep = h.syncStep :=
  (congrArg HostSide.syncStep (HostSide.sendReply_rest a ws h) :)
@[simp] theorem HostSide.sendReply_timeHi (a : Accepted) (ws : List W16) (h : HostSide) : (h.sendReply a ws).timeHi = h.timeHi :=
  (congrArg HostSide.timeHi (HostSide.sendReply_rest a ws h) :)
@[simp] theorem HostSide.sendReply_ppsOut (a : Accepted) (ws : List W16) (h : HostSide) : (h.sendReply a ws).ppsOut = h.ppsOut :=
  (congrArg HostSide.ppsOut (HostSide.sendReply_rest a ws h) :)
@[simp] theorem HostSide.sendReply_txq (a : Accepted) (ws : List W16) (h : HostSide) : (h.sendReply a ws).txq = h.txq :=
  (congrArg HostSide.txq (HostSide.sendReply_rest a ws h) :)
@[simp] theorem HostSide.sendReply_txHwm (a : Accepted) (ws : List W16) (h : HostSide) : (h.sendReply a ws).txHwm = h.txHwm :=
  (congrArg HostSide.txHwm (HostSide.sendReply_rest a ws h) :)
@[simp] theorem HostSide.sendReply_cuts (a : Accepted) (ws : List W16) (h : HostSide) : (h.sendReply a ws).cuts = h.cuts :=
  (congrArg HostSide.cuts (HostSide.sendReply_rest a ws h) :)
@[simp] theorem HostSide.sendReply_rxOrder (a : Accepted) (ws : List W16) (h : HostSide) : (h.sendReply a ws).rxOrder = h.rxOrder :=
  (congrArg HostSide.rxOrder (HostSide.sendReply_rest a ws h) :)
@[simp] theorem HostSide.sendReply_notes (a : Accepted) (ws : List W16) (h : HostSide) : (h.sendReply a ws).notes = h.notes :=
  (congrArg HostSide.notes (HostSide.sendReply_rest a ws h) :)
@[simp] theorem HostSide.sendReply_downAt (a : Accepted) (ws : List W16) (h : HostSide) : (h.sendReply a ws).downAt = h.downAt :=
  (congrArg HostSide.downAt (HostSide.sendReply_rest a ws h) :)
@[simp] theorem HostSide.sendReply_discarded (a : Accepted) (ws : List W16) (h : HostSide) : (h.sendReply a ws).discarded = h.discarded :=
  (congrArg HostSide.discarded (HostSide.sendReply_rest a ws h) :)
@[simp] theorem HostSide.sendReply_pci (a : Accepted) (ws : List W16) (h : HostSide) : (h.sendReply a ws).pci = h.pci :=
  (congrArg HostSide.pci (HostSide.sendReply_rest a ws h) :)
@[simp] theorem HostSide.sendReply_jtag (a : Accepted) (ws : List W16) (h : HostSide) : (h.sendReply a ws).jtag = h.jtag :=
  (congrArg HostSide.jtag (HostSide.sendReply_rest a ws h) :)
@[simp] theorem HostSide.sendReply_tdo (a : Accepted) (ws : List W16) (h : HostSide) : (h.sendReply a ws).tdo = h.tdo :=
  (congrArg HostSide.tdo (HostSide.sendReply_rest a ws h) :)
@[simp] theorem HostSide.sendReply_rings (a : Accepted) (ws : List W16) (h : HostSide) : (h.sendReply a ws).rings = h.rings :=
  (congrArg HostSide.rings (HostSide.sendReply_rest a ws h) :)
@[simp] theorem HostSide.sendReply_ptp (a : Accepted) (ws : List W16) (h : HostSide) : (h.sendReply a ws).ptp = h.ptp :=
  (congrArg HostSide.ptp (HostSide.sendReply_rest a ws h) :)
@[simp] theorem HostSide.sendReply_sp0Buf (a : Accepted) (ws : List W16) (h : HostSide) : (h.sendReply a ws).sp0Buf = h.sp0Buf :=
  (congrArg HostSide.sp0Buf (HostSide.sendReply_rest a ws h) :)
@[simp] theorem HostSide.sendReply_sp0Skip (a : Accepted) (ws : List W16) (h : HostSide) : (h.sendReply a ws).sp0Skip = h.sp0Skip :=
  (congrArg HostSide.sp0Skip (HostSide.sendReply_rest a ws h) :)
@[simp] theorem HostSide.sendReply_sp0Sent (a : Accepted) (ws : List W16) (h : HostSide) : (h.sendReply a ws).sp0Sent = h.sp0Sent :=
  (congrArg HostSide.sp0Sent (HostSide.sendReply_rest a ws h) :)
@[simp] theorem HostSide.sendReply_keys (a : Accepted) (ws : List W16) (h : HostSide) : (h.sendReply a ws).keys = h.keys :=
  (congrArg HostSide.keys (HostSide.sendReply_rest a ws h) :)
@[simp] theorem HostSide.sendReply_engines (a : Accepted) (ws : List W16) (h : HostSide) : (h.sendReply a ws).engines = h.engines :=
  (congrArg HostSide.engines (HostSide.sendReply_rest a ws h) :)
@[simp] theorem HostSide.sendReply_cipherQ (a : Accepted) (ws : List W16) (h : HostSide) : (h.sendReply a ws).cipherQ = h.cipherQ :=
  (congrArg HostSide.cipherQ (HostSide.sendReply_rest a ws h) :)
@[simp] theorem HostSide.sendReply_ceIe (a : Accepted) (ws : List W16) (h : HostSide) : (h.sendReply a ws).ceIe = h.ceIe :=
  (congrArg HostSide.ceIe (HostSide.sendReply_rest a ws h) :)
@[simp] theorem HostSide.sendReply_cus (a : Accepted) (ws : List W16) (h : HostSide) : (h.sendReply a ws).cus = h.cus :=
  (congrArg HostSide.cus (HostSide.sendReply_rest a ws h) :)
@[simp] theorem HostSide.sendReply_flash (a : Accepted) (ws : List W16) (h : HostSide) : (h.sendReply a ws).flash = h.flash :=
  (congrArg HostSide.flash (HostSide.sendReply_rest a ws h) :)
@[simp] theorem HostSide.sendReply_seqNext (a : Accepted) (ws : List W16) (h : HostSide) : (h.sendReply a ws).seqNext = h.seqNext :=
  (congrArg HostSide.seqNext (HostSide.sendReply_rest a ws h) :)
@[simp] theorem HostSide.sendReply_transport (a : Accepted) (ws : List W16) (h : HostSide) : (h.sendReply a ws).transport = h.transport :=
  (congrArg HostSide.transport (HostSide.sendReply_rest a ws h) :)
@[simp] theorem HostSide.sendReply_margins (a : Accepted) (ws : List W16) (h : HostSide) : (h.sendReply a ws).margins = h.margins :=
  (congrArg HostSide.margins (HostSide.sendReply_rest a ws h) :)
@[simp] theorem HostSide.sendReply_marginLow (a : Accepted) (ws : List W16) (h : HostSide) : (h.sendReply a ws).marginLow = h.marginLow :=
  (congrArg HostSide.marginLow (HostSide.sendReply_rest a ws h) :)
@[simp] theorem HostSide.sendReply_marginOwed (a : Accepted) (ws : List W16) (h : HostSide) : (h.sendReply a ws).marginOwed = h.marginOwed :=
  (congrArg HostSide.marginOwed (HostSide.sendReply_rest a ws h) :)
@[simp] theorem HostSide.sendReply_marginOkFrom (a : Accepted) (ws : List W16) (h : HostSide) : (h.sendReply a ws).marginOkFrom = h.marginOkFrom :=
  (congrArg HostSide.marginOkFrom (HostSide.sendReply_rest a ws h) :)
@[simp] theorem HostSide.sendReply_readData (a : Accepted) (ws : List W16) (h : HostSide) : (h.sendReply a ws).readData = h.readData :=
  (congrArg HostSide.readData (HostSide.sendReply_rest a ws h) :)
@[simp] theorem HostSide.sendReply_readsDone (a : Accepted) (ws : List W16) (h : HostSide) : (h.sendReply a ws).readsDone = h.readsDone :=
  (congrArg HostSide.readsDone (HostSide.sendReply_rest a ws h) :)
@[simp] theorem HostSide.sendReply_readBytes (a : Accepted) (ws : List W16) (h : HostSide) : (h.sendReply a ws).readBytes = h.readBytes :=
  (congrArg HostSide.readBytes (HostSide.sendReply_rest a ws h) :)
@[simp] theorem HostSide.sendReply_nodeIdSeen (a : Accepted) (ws : List W16) (h : HostSide) : (h.sendReply a ws).nodeIdSeen = h.nodeIdSeen :=
  (congrArg HostSide.nodeIdSeen (HostSide.sendReply_rest a ws h) :)

@[simp] theorem State.answerH_host_running (i : CmdInfo) (a : Accepted) (r : EpochRef) (st : Status) (ws : List W16) (s : State) :
    (s.answerH i a r st ws).host.running = s.host.running := by
  simp [State.answerH, State.answerSince]
@[simp] theorem State.answerH_host_bootId (i : CmdInfo) (a : Accepted) (r : EpochRef) (st : Status) (ws : List W16) (s : State) :
    (s.answerH i a r st ws).host.bootId = s.host.bootId := by
  simp [State.answerH, State.answerSince]
@[simp] theorem State.answerH_host_follower (i : CmdInfo) (a : Accepted) (r : EpochRef) (st : Status) (ws : List W16) (s : State) :
    (s.answerH i a r st ws).host.follower = s.host.follower := by
  simp [State.answerH, State.answerSince]
@[simp] theorem State.answerH_host_followerCoarse (i : CmdInfo) (a : Accepted) (r : EpochRef) (st : Status) (ws : List W16) (s : State) :
    (s.answerH i a r st ws).host.followerCoarse = s.host.followerCoarse := by
  simp [State.answerH, State.answerSince]
@[simp] theorem State.answerH_host_followerFree (i : CmdInfo) (a : Accepted) (r : EpochRef) (st : Status) (ws : List W16) (s : State) :
    (s.answerH i a r st ws).host.followerFree = s.host.followerFree := by
  simp [State.answerH, State.answerSince]
@[simp] theorem State.answerH_host_followerAhead (i : CmdInfo) (a : Accepted) (r : EpochRef) (st : Status) (ws : List W16) (s : State) :
    (s.answerH i a r st ws).host.followerAhead = s.host.followerAhead := by
  simp [State.answerH, State.answerSince]
@[simp] theorem State.answerH_host_followerBehind (i : CmdInfo) (a : Accepted) (r : EpochRef) (st : Status) (ws : List W16) (s : State) :
    (s.answerH i a r st ws).host.followerBehind = s.host.followerBehind := by
  simp [State.answerH, State.answerSince]
@[simp] theorem State.answerH_host_inSync (i : CmdInfo) (a : Accepted) (r : EpochRef) (st : Status) (ws : List W16) (s : State) :
    (s.answerH i a r st ws).host.inSync = s.host.inSync := by
  simp [State.answerH, State.answerSince]
@[simp] theorem State.answerH_host_firstSync (i : CmdInfo) (a : Accepted) (r : EpochRef) (st : Status) (ws : List W16) (s : State) :
    (s.answerH i a r st ws).host.firstSync = s.host.firstSync := by
  simp [State.answerH, State.answerSince]
@[simp] theorem State.answerH_host_lastSync (i : CmdInfo) (a : Accepted) (r : EpochRef) (st : Status) (ws : List W16) (s : State) :
    (s.answerH i a r st ws).host.lastSync = s.host.lastSync := by
  simp [State.answerH, State.answerSince]
@[simp] theorem State.answerH_host_syncStep (i : CmdInfo) (a : Accepted) (r : EpochRef) (st : Status) (ws : List W16) (s : State) :
    (s.answerH i a r st ws).host.syncStep = s.host.syncStep := by
  simp [State.answerH, State.answerSince]
@[simp] theorem State.answerH_host_timeHi (i : CmdInfo) (a : Accepted) (r : EpochRef) (st : Status) (ws : List W16) (s : State) :
    (s.answerH i a r st ws).host.timeHi = s.host.timeHi := by
  simp [State.answerH, State.answerSince]
@[simp] theorem State.answerH_host_ppsOut (i : CmdInfo) (a : Accepted) (r : EpochRef) (st : Status) (ws : List W16) (s : State) :
    (s.answerH i a r st ws).host.ppsOut = s.host.ppsOut := by
  simp [State.answerH, State.answerSince]
@[simp] theorem State.answerH_host_txq (i : CmdInfo) (a : Accepted) (r : EpochRef) (st : Status) (ws : List W16) (s : State) :
    (s.answerH i a r st ws).host.txq = s.host.txq := by
  simp [State.answerH, State.answerSince]
@[simp] theorem State.answerH_host_txHwm (i : CmdInfo) (a : Accepted) (r : EpochRef) (st : Status) (ws : List W16) (s : State) :
    (s.answerH i a r st ws).host.txHwm = s.host.txHwm := by
  simp [State.answerH, State.answerSince]
@[simp] theorem State.answerH_host_cuts (i : CmdInfo) (a : Accepted) (r : EpochRef) (st : Status) (ws : List W16) (s : State) :
    (s.answerH i a r st ws).host.cuts = s.host.cuts := by
  simp [State.answerH, State.answerSince]
@[simp] theorem State.answerH_host_rxOrder (i : CmdInfo) (a : Accepted) (r : EpochRef) (st : Status) (ws : List W16) (s : State) :
    (s.answerH i a r st ws).host.rxOrder = s.host.rxOrder := by
  simp [State.answerH, State.answerSince]
@[simp] theorem State.answerH_host_notes (i : CmdInfo) (a : Accepted) (r : EpochRef) (st : Status) (ws : List W16) (s : State) :
    (s.answerH i a r st ws).host.notes = s.host.notes := by
  simp [State.answerH, State.answerSince]
@[simp] theorem State.answerH_host_downAt (i : CmdInfo) (a : Accepted) (r : EpochRef) (st : Status) (ws : List W16) (s : State) :
    (s.answerH i a r st ws).host.downAt = s.host.downAt := by
  simp [State.answerH, State.answerSince]
@[simp] theorem State.answerH_host_discarded (i : CmdInfo) (a : Accepted) (r : EpochRef) (st : Status) (ws : List W16) (s : State) :
    (s.answerH i a r st ws).host.discarded = s.host.discarded := by
  simp [State.answerH, State.answerSince]
@[simp] theorem State.answerH_host_pci (i : CmdInfo) (a : Accepted) (r : EpochRef) (st : Status) (ws : List W16) (s : State) :
    (s.answerH i a r st ws).host.pci = s.host.pci := by
  simp [State.answerH, State.answerSince]
@[simp] theorem State.answerH_host_jtag (i : CmdInfo) (a : Accepted) (r : EpochRef) (st : Status) (ws : List W16) (s : State) :
    (s.answerH i a r st ws).host.jtag = s.host.jtag := by
  simp [State.answerH, State.answerSince]
@[simp] theorem State.answerH_host_tdo (i : CmdInfo) (a : Accepted) (r : EpochRef) (st : Status) (ws : List W16) (s : State) :
    (s.answerH i a r st ws).host.tdo = s.host.tdo := by
  simp [State.answerH, State.answerSince]
@[simp] theorem State.answerH_host_rings (i : CmdInfo) (a : Accepted) (r : EpochRef) (st : Status) (ws : List W16) (s : State) :
    (s.answerH i a r st ws).host.rings = s.host.rings := by
  simp [State.answerH, State.answerSince]
@[simp] theorem State.answerH_host_ptp (i : CmdInfo) (a : Accepted) (r : EpochRef) (st : Status) (ws : List W16) (s : State) :
    (s.answerH i a r st ws).host.ptp = s.host.ptp := by
  simp [State.answerH, State.answerSince]
@[simp] theorem State.answerH_host_sp0Buf (i : CmdInfo) (a : Accepted) (r : EpochRef) (st : Status) (ws : List W16) (s : State) :
    (s.answerH i a r st ws).host.sp0Buf = s.host.sp0Buf := by
  simp [State.answerH, State.answerSince]
@[simp] theorem State.answerH_host_sp0Skip (i : CmdInfo) (a : Accepted) (r : EpochRef) (st : Status) (ws : List W16) (s : State) :
    (s.answerH i a r st ws).host.sp0Skip = s.host.sp0Skip := by
  simp [State.answerH, State.answerSince]
@[simp] theorem State.answerH_host_sp0Sent (i : CmdInfo) (a : Accepted) (r : EpochRef) (st : Status) (ws : List W16) (s : State) :
    (s.answerH i a r st ws).host.sp0Sent = s.host.sp0Sent := by
  simp [State.answerH, State.answerSince]
@[simp] theorem State.answerH_host_keys (i : CmdInfo) (a : Accepted) (r : EpochRef) (st : Status) (ws : List W16) (s : State) :
    (s.answerH i a r st ws).host.keys = s.host.keys := by
  simp [State.answerH, State.answerSince]
@[simp] theorem State.answerH_host_engines (i : CmdInfo) (a : Accepted) (r : EpochRef) (st : Status) (ws : List W16) (s : State) :
    (s.answerH i a r st ws).host.engines = s.host.engines := by
  simp [State.answerH, State.answerSince]
@[simp] theorem State.answerH_host_cipherQ (i : CmdInfo) (a : Accepted) (r : EpochRef) (st : Status) (ws : List W16) (s : State) :
    (s.answerH i a r st ws).host.cipherQ = s.host.cipherQ := by
  simp [State.answerH, State.answerSince]
@[simp] theorem State.answerH_host_ceIe (i : CmdInfo) (a : Accepted) (r : EpochRef) (st : Status) (ws : List W16) (s : State) :
    (s.answerH i a r st ws).host.ceIe = s.host.ceIe := by
  simp [State.answerH, State.answerSince]
@[simp] theorem State.answerH_host_cus (i : CmdInfo) (a : Accepted) (r : EpochRef) (st : Status) (ws : List W16) (s : State) :
    (s.answerH i a r st ws).host.cus = s.host.cus := by
  simp [State.answerH, State.answerSince]
@[simp] theorem State.answerH_host_flash (i : CmdInfo) (a : Accepted) (r : EpochRef) (st : Status) (ws : List W16) (s : State) :
    (s.answerH i a r st ws).host.flash = s.host.flash := by
  simp [State.answerH, State.answerSince]
@[simp] theorem State.answerH_host_seqNext (i : CmdInfo) (a : Accepted) (r : EpochRef) (st : Status) (ws : List W16) (s : State) :
    (s.answerH i a r st ws).host.seqNext = s.host.seqNext := by
  simp [State.answerH, State.answerSince]
@[simp] theorem State.answerH_host_transport (i : CmdInfo) (a : Accepted) (r : EpochRef) (st : Status) (ws : List W16) (s : State) :
    (s.answerH i a r st ws).host.transport = s.host.transport := by
  simp [State.answerH, State.answerSince]
@[simp] theorem State.answerH_host_margins (i : CmdInfo) (a : Accepted) (r : EpochRef) (st : Status) (ws : List W16) (s : State) :
    (s.answerH i a r st ws).host.margins = s.host.margins := by
  simp [State.answerH, State.answerSince]
@[simp] theorem State.answerH_host_marginLow (i : CmdInfo) (a : Accepted) (r : EpochRef) (st : Status) (ws : List W16) (s : State) :
    (s.answerH i a r st ws).host.marginLow = s.host.marginLow := by
  simp [State.answerH, State.answerSince]
@[simp] theorem State.answerH_host_marginOwed (i : CmdInfo) (a : Accepted) (r : EpochRef) (st : Status) (ws : List W16) (s : State) :
    (s.answerH i a r st ws).host.marginOwed = s.host.marginOwed := by
  simp [State.answerH, State.answerSince]
@[simp] theorem State.answerH_host_marginOkFrom (i : CmdInfo) (a : Accepted) (r : EpochRef) (st : Status) (ws : List W16) (s : State) :
    (s.answerH i a r st ws).host.marginOkFrom = s.host.marginOkFrom := by
  simp [State.answerH, State.answerSince]
@[simp] theorem State.answerH_host_readData (i : CmdInfo) (a : Accepted) (r : EpochRef) (st : Status) (ws : List W16) (s : State) :
    (s.answerH i a r st ws).host.readData = s.host.readData := by
  simp [State.answerH, State.answerSince]
@[simp] theorem State.answerH_host_readsDone (i : CmdInfo) (a : Accepted) (r : EpochRef) (st : Status) (ws : List W16) (s : State) :
    (s.answerH i a r st ws).host.readsDone = s.host.readsDone := by
  simp [State.answerH, State.answerSince]
@[simp] theorem State.answerH_host_readBytes (i : CmdInfo) (a : Accepted) (r : EpochRef) (st : Status) (ws : List W16) (s : State) :
    (s.answerH i a r st ws).host.readBytes = s.host.readBytes := by
  simp [State.answerH, State.answerSince]
@[simp] theorem State.answerH_host_nodeIdSeen (i : CmdInfo) (a : Accepted) (r : EpochRef) (st : Status) (ws : List W16) (s : State) :
    (s.answerH i a r st ws).host.nodeIdSeen = s.host.nodeIdSeen := by
  simp [State.answerH, State.answerSince]

end Sys2Proof.Machine
end

