-- ==== Sys2Proof/Laws/Memory.lean ====
section
/-! SUPPORT. The memory operations keep the canonical form, and what a read gives after a write. -/

namespace Sys2Proof.Machine

/-- Above a larger bound is above a smaller one. -/
theorem Memory.above_mono {a b : Nat} (h : a ≤ b) (m : Memory) (hm : m.above b = true) : m.above a = true := by
  induction m with
  | nil => rfl
  | cons c t ih =>
    simp only [Memory.above, Bool.and_eq_true, decide_eq_true_eq] at hm ⊢
    exact ⟨by omega, ih hm.2⟩

/-- A write above a bound stays above it. -/
theorem Memory.write_above (m : Memory) (k a : Nat) (b : Byte) (hk : k < a) (hm : m.above k = true) :
    (m.write a b).above k = true := by
  induction m with
  | nil => simp only [Memory.write]; split <;> simp [Memory.above, hk]
  | cons c t ih =>
    simp only [Memory.above, Bool.and_eq_true, decide_eq_true_eq] at hm
    simp only [Memory.write]
    split
    · split <;> simp [Memory.above, hk, hm.1, hm.2]
    · split
      · split
        · exact hm.2
        · simp [Memory.above, hk, hm.2]
      · simp [Memory.above, hm.1, ih hm.2]

/-- Writing one byte keeps the canonical form. -/
theorem Memory.wf_write (m : Memory) (a : Nat) (b : Byte) (hm : m.wf = true) : (m.write a b).wf = true := by
  induction m with
  | nil => simp only [Memory.write]; split <;> simp_all [Memory.wf, Memory.above]
  | cons c t ih =>
    obtain ⟨k, v⟩ := c
    simp only [Memory.wf, Bool.and_eq_true, decide_eq_true_eq] at hm
    obtain ⟨⟨hv, ha⟩, ht⟩ := hm
    simp only [Memory.write]
    split
    · rename_i hlt
      split
      · simp only [Memory.wf, ha, ht, Bool.and_eq_true, decide_eq_true_eq]; exact ⟨⟨hv, trivial⟩, trivial⟩
      · rename_i hb
        simp only [Memory.wf, Memory.above, ha, ht, hlt, Memory.above_mono (Nat.le_of_lt hlt) t ha, Bool.and_eq_true, decide_eq_true_eq]
        exact ⟨⟨hb, trivial, trivial⟩, ⟨hv, trivial⟩, trivial⟩
    · split
      · rename_i _ he
        subst he
        split
        · exact ht
        · rename_i hb
          simp only [Memory.wf, ha, ht, Bool.and_eq_true, decide_eq_true_eq]; exact ⟨⟨hb, trivial⟩, trivial⟩
      · rename_i h1 h2
        simp only [Memory.wf, Memory.write_above t k a b (by omega) ha, ih ht, Bool.and_eq_true, decide_eq_true_eq]
        exact ⟨⟨hv, trivial⟩, trivial⟩

/-- Writing a run of bytes keeps the canonical form. -/
theorem Memory.wf_writeN (bs : List Byte) (m : Memory) (a : Nat) (hm : m.wf = true) : (m.writeN a bs).wf = true := by
  induction bs generalizing m a with
  | nil => exact hm
  | cons b t ih => exact ih _ _ (Memory.wf_write m a b hm)

/-- Writing under byte enables keeps the canonical form. -/
theorem Memory.wf_writeSome (bs : List (Option Byte)) (m : Memory) (a : Nat) (hm : m.wf = true) : (m.writeSome a bs).wf = true := by
  induction bs generalizing m a with
  | nil => exact hm
  | cons b t ih =>
    refine ih _ _ ?_
    cases b with
    | none => exact hm
    | some x => exact Memory.wf_write m a x hm

/-- Writing a packet into ring slots keeps the canonical form. -/
theorem wf_writeSlots (g : Ring) (n c : Nat) (ws : List W16) (m : Memory) (hm : m.wf = true) : (writeSlots g n c ws m).wf = true := by
  induction n generalizing c ws m with
  | zero => exact hm
  | succ n ih => exact ih _ _ _ (Memory.wf_writeN _ _ _ hm)

/-- The memories right after reset have the canonical form. -/
theorem State.reset_memories_wf : State.reset.hbMem.wf = true ∧ State.reset.lbMem.wf = true ∧ State.reset.hostRam.wf = true :=
  ⟨rfl, rfl, rfl⟩

end Sys2Proof.Machine
end

