-- ==== Sys2Proof/Laws/Modes.lean ====
section
/-! SUPPORT. What a change of mode does to each part of the block (R28, R31). -/

namespace Sys2Proof.Machine

@[simp] theorem State.dropForMode_dev (t : Tick) (s : State) : (s.dropForMode t).dev = s.dev := by
  unfold State.dropForMode; split <;> rfl
@[simp] theorem State.dropCopiesForMode_dev (s : State) : s.dropCopiesForMode.dev = s.dev := by
  unfold State.dropCopiesForMode; split <;> rfl
@[simp] theorem State.dropForMode_host (t : Tick) (s : State) : (s.dropForMode t).host = s.host := by
  unfold State.dropForMode; split <;> rfl
@[simp] theorem State.dropCopiesForMode_host (s : State) : s.dropCopiesForMode.host = s.host := by
  unfold State.dropCopiesForMode; split <;> rfl
@[simp] theorem State.dropForMode_link (t : Tick) (s : State) : (s.dropForMode t).link = s.link := by
  unfold State.dropForMode; split <;> rfl
@[simp] theorem State.dropCopiesForMode_link (s : State) : s.dropCopiesForMode.link = s.link := by
  unfold State.dropCopiesForMode; split <;> rfl
@[simp] theorem State.dropForMode_hbMem (t : Tick) (s : State) : (s.dropForMode t).hbMem = s.hbMem := by
  unfold State.dropForMode; split <;> rfl
@[simp] theorem State.dropCopiesForMode_hbMem (s : State) : s.dropCopiesForMode.hbMem = s.hbMem := by
  unfold State.dropCopiesForMode; split <;> rfl
@[simp] theorem State.dropForMode_lbMem (t : Tick) (s : State) : (s.dropForMode t).lbMem = s.lbMem := by
  unfold State.dropForMode; split <;> rfl
@[simp] theorem State.dropCopiesForMode_lbMem (s : State) : s.dropCopiesForMode.lbMem = s.lbMem := by
  unfold State.dropCopiesForMode; split <;> rfl
@[simp] theorem State.dropForMode_hostRam (t : Tick) (s : State) : (s.dropForMode t).hostRam = s.hostRam := by
  unfold State.dropForMode; split <;> rfl
@[simp] theorem State.dropCopiesForMode_hostRam (s : State) : s.dropCopiesForMode.hostRam = s.hostRam := by
  unfold State.dropCopiesForMode; split <;> rfl
@[simp] theorem State.dropForMode_pending (t : Tick) (s : State) : (s.dropForMode t).pending = s.pending := by
  unfold State.dropForMode; split <;> rfl
@[simp] theorem State.dropCopiesForMode_pending (s : State) : s.dropCopiesForMode.pending = s.pending := by
  unfold State.dropCopiesForMode; split <;> rfl
@[simp] theorem State.modeChange_line (m : Mode) (c : Nat) (x t : Tick) (s : State) : (s.modeChange m c x t).line = s.line := rfl
@[simp] theorem State.modeChange_link (m : Mode) (c : Nat) (x t : Tick) (s : State) : (s.modeChange m c x t).link = s.link := rfl
@[simp] theorem State.modeChange_hbMem (m : Mode) (c : Nat) (x t : Tick) (s : State) : (s.modeChange m c x t).hbMem = s.hbMem := rfl
@[simp] theorem State.modeChange_lbMem (m : Mode) (c : Nat) (x t : Tick) (s : State) : (s.modeChange m c x t).lbMem = s.lbMem := rfl
@[simp] theorem State.modeChange_hostRam (m : Mode) (c : Nat) (x t : Tick) (s : State) : (s.modeChange m c x t).hostRam = s.hostRam := rfl
@[simp] theorem State.modeChange_pending (m : Mode) (c : Nat) (x t : Tick) (s : State) : (s.modeChange m c x t).pending = s.pending := rfl
@[simp] theorem State.modeChange_dev (m : Mode) (c : Nat) (x t : Tick) (s : State) :
    (s.modeChange m c x t).dev = { s.dev with mode := m, modeEpoch := s.dev.modeEpoch + 1 } := rfl
@[simp] theorem State.changeMode_dev (m : Mode) (c : Nat) (x t : Tick) (s : State) :
    (s.changeMode m c x t).dev = { s.dev with mode := m, modeEpoch := s.dev.modeEpoch + 1 } := by simp [State.changeMode]
@[simp] theorem State.changeMode_host (m : Mode) (c : Nat) (x t : Tick) (s : State) :
    (s.changeMode m c x t).host = (s.modeChange m c x t).host := by simp [State.changeMode]
@[simp] theorem State.changeMode_link (m : Mode) (c : Nat) (x t : Tick) (s : State) : (s.changeMode m c x t).link = s.link := by
  simp [State.changeMode]
@[simp] theorem State.changeMode_hbMem (m : Mode) (c : Nat) (x t : Tick) (s : State) : (s.changeMode m c x t).hbMem = s.hbMem := by
  simp [State.changeMode]
@[simp] theorem State.changeMode_lbMem (m : Mode) (c : Nat) (x t : Tick) (s : State) : (s.changeMode m c x t).lbMem = s.lbMem := by
  simp [State.changeMode]
@[simp] theorem State.changeMode_hostRam (m : Mode) (c : Nat) (x t : Tick) (s : State) : (s.changeMode m c x t).hostRam = s.hostRam := by
  simp [State.changeMode]
@[simp] theorem State.changeMode_pending (m : Mode) (c : Nat) (x t : Tick) (s : State) : (s.changeMode m c x t).pending = s.pending := by
  simp [State.changeMode]

end Sys2Proof.Machine
end

