-- ==== Sys2Proof/Laws/Reception.lean ====
section
/-! SUPPORT. What the shared operations of the receive path leave as it is (simp): clip samples, symbols of a frame, and the decoder array. -/

namespace Sys2Proof.Laws

open Sys2Proof.Machine

/-! ## The decoder array (R192) -/

/-- Giving out the engines changes the array alone. -/
theorem assign_frame (l : Line) : { l.assign with jobs := l.jobs } = l := rfl

@[simp] theorem assign_time (l : Line) : l.assign.time = l.time := rfl
@[simp] theorem assign_sched (l : Line) : l.assign.sched = l.sched := rfl
@[simp] theorem assign_relay (l : Line) : l.assign.relay = l.relay := rfl
@[simp] theorem assign_links (l : Line) : l.assign.links = l.links := rfl
@[simp] theorem assign_maps (l : Line) : l.assign.maps = l.maps := rfl
@[simp] theorem assign_mem (l : Line) : l.assign.mem = l.mem := rfl
@[simp] theorem assign_clock (l : Line) : l.assign.clock = l.clock := rfl
@[simp] theorem assign_stamps (l : Line) : l.assign.stamps = l.stamps := rfl
@[simp] theorem assign_nodeId (l : Line) : l.assign.nodeId = l.nodeId := rfl
@[simp] theorem assign_netId (l : Line) : l.assign.netId = l.netId := rfl
@[simp] theorem assign_down (l : Line) : l.assign.down = l.down := rfl
@[simp] theorem assign_running (l : Line) : l.assign.running = l.running := rfl
@[simp] theorem assign_ready (l : Line) : l.assign.ready = l.ready := rfl
@[simp] theorem assign_fw (l : Line) : l.assign.fw = l.fw := rfl
@[simp] theorem assign_out (l : Line) : l.assign.out = l.out := rfl
@[simp] theorem assign_hold (l : Line) : l.assign.hold = l.hold := rfl
@[simp] theorem assign_ports (l : Line) : l.assign.ports = l.ports := rfl
@[simp] theorem assign_chans (l : Line) : l.assign.chans = l.chans := rfl

/-! ## Clip samples (R110, R111) -/

/-- A clip sample changes ports and channels alone. -/
theorem noteClip_frame (l : Line) (x : ClipSample) : { l.noteClip x with ports := l.ports, chans := l.chans } = l := by
  unfold Line.noteClip
  dsimp only
  split
  · rfl
  · split <;> rfl

/-- Clip samples change ports and channels alone. -/
theorem noteClips_frame (xs : List ClipSample) (l : Line) : { l.noteClips xs with ports := l.ports, chans := l.chans } = l := by
  induction xs generalizing l with
  | nil => rfl
  | cons x xs ih =>
    have h1 := ih (l.noteClip x)
    have h2 := noteClip_frame l x
    have h3 := congrArg (fun k : Line => { k with ports := l.ports, chans := l.chans }) h1
    exact h3.trans h2

@[simp] theorem noteClips_time (xs : List ClipSample) (l : Line) : (l.noteClips xs).time = l.time :=
  (congrArg Line.time (noteClips_frame xs l) :)
@[simp] theorem noteClips_sched (xs : List ClipSample) (l : Line) : (l.noteClips xs).sched = l.sched :=
  (congrArg Line.sched (noteClips_frame xs l) :)
@[simp] theorem noteClips_relay (xs : List ClipSample) (l : Line) : (l.noteClips xs).relay = l.relay :=
  (congrArg Line.relay (noteClips_frame xs l) :)
@[simp] theorem noteClips_links (xs : List ClipSample) (l : Line) : (l.noteClips xs).links = l.links :=
  (congrArg Line.links (noteClips_frame xs l) :)
@[simp] theorem noteClips_jobs (xs : List ClipSample) (l : Line) : (l.noteClips xs).jobs = l.jobs :=
  (congrArg Line.jobs (noteClips_frame xs l) :)
@[simp] theorem noteClips_maps (xs : List ClipSample) (l : Line) : (l.noteClips xs).maps = l.maps :=
  (congrArg Line.maps (noteClips_frame xs l) :)
@[simp] theorem noteClips_mem (xs : List ClipSample) (l : Line) : (l.noteClips xs).mem = l.mem :=
  (congrArg Line.mem (noteClips_frame xs l) :)
@[simp] theorem noteClips_clock (xs : List ClipSample) (l : Line) : (l.noteClips xs).clock = l.clock :=
  (congrArg Line.clock (noteClips_frame xs l) :)
@[simp] theorem noteClips_stamps (xs : List ClipSample) (l : Line) : (l.noteClips xs).stamps = l.stamps :=
  (congrArg Line.stamps (noteClips_frame xs l) :)
@[simp] theorem noteClips_nodeId (xs : List ClipSample) (l : Line) : (l.noteClips xs).nodeId = l.nodeId :=
  (congrArg Line.nodeId (noteClips_frame xs l) :)
@[simp] theorem noteClips_netId (xs : List ClipSample) (l : Line) : (l.noteClips xs).netId = l.netId :=
  (congrArg Line.netId (noteClips_frame xs l) :)
@[simp] theorem noteClips_down (xs : List ClipSample) (l : Line) : (l.noteClips xs).down = l.down :=
  (congrArg Line.down (noteClips_frame xs l) :)
@[simp] theorem noteClips_running (xs : List ClipSample) (l : Line) : (l.noteClips xs).running = l.running :=
  (congrArg Line.running (noteClips_frame xs l) :)
@[simp] theorem noteClips_ready (xs : List ClipSample) (l : Line) : (l.noteClips xs).ready = l.ready :=
  (congrArg Line.ready (noteClips_frame xs l) :)
@[simp] theorem noteClips_fw (xs : List ClipSample) (l : Line) : (l.noteClips xs).fw = l.fw :=
  (congrArg Line.fw (noteClips_frame xs l) :)
@[simp] theorem noteClips_out (xs : List ClipSample) (l : Line) : (l.noteClips xs).out = l.out :=
  (congrArg Line.out (noteClips_frame xs l) :)
@[simp] theorem noteClips_hold (xs : List ClipSample) (l : Line) : (l.noteClips xs).hold = l.hold :=
  (congrArg Line.hold (noteClips_frame xs l) :)

/-! ## A frame in reception -/

@[simp] theorem modFrame_time (c : Nat) (r : W16) (g : RxFrame → RxFrame) (l : Line) : (l.modFrame c r g).time = l.time := rfl
@[simp] theorem modFrame_sched (c : Nat) (r : W16) (g : RxFrame → RxFrame) (l : Line) : (l.modFrame c r g).sched = l.sched := rfl
@[simp] theorem modFrame_relay (c : Nat) (r : W16) (g : RxFrame → RxFrame) (l : Line) : (l.modFrame c r g).relay = l.relay := rfl
@[simp] theorem modFrame_links (c : Nat) (r : W16) (g : RxFrame → RxFrame) (l : Line) : (l.modFrame c r g).links = l.links := rfl
@[simp] theorem modFrame_jobs (c : Nat) (r : W16) (g : RxFrame → RxFrame) (l : Line) : (l.modFrame c r g).jobs = l.jobs := rfl
@[simp] theorem modFrame_maps (c : Nat) (r : W16) (g : RxFrame → RxFrame) (l : Line) : (l.modFrame c r g).maps = l.maps := rfl
@[simp] theorem modFrame_mem (c : Nat) (r : W16) (g : RxFrame → RxFrame) (l : Line) : (l.modFrame c r g).mem = l.mem := rfl
@[simp] theorem modFrame_clock (c : Nat) (r : W16) (g : RxFrame → RxFrame) (l : Line) : (l.modFrame c r g).clock = l.clock := rfl
@[simp] theorem modFrame_stamps (c : Nat) (r : W16) (g : RxFrame → RxFrame) (l : Line) : (l.modFrame c r g).stamps = l.stamps := rfl
@[simp] theorem modFrame_nodeId (c : Nat) (r : W16) (g : RxFrame → RxFrame) (l : Line) : (l.modFrame c r g).nodeId = l.nodeId := rfl
@[simp] theorem modFrame_netId (c : Nat) (r : W16) (g : RxFrame → RxFrame) (l : Line) : (l.modFrame c r g).netId = l.netId := rfl
@[simp] theorem modFrame_down (c : Nat) (r : W16) (g : RxFrame → RxFrame) (l : Line) : (l.modFrame c r g).down = l.down := rfl
@[simp] theorem modFrame_running (c : Nat) (r : W16) (g : RxFrame → RxFrame) (l : Line) : (l.modFrame c r g).running = l.running := rfl
@[simp] theorem modFrame_ready (c : Nat) (r : W16) (g : RxFrame → RxFrame) (l : Line) : (l.modFrame c r g).ready = l.ready := rfl
@[simp] theorem modFrame_fw (c : Nat) (r : W16) (g : RxFrame → RxFrame) (l : Line) : (l.modFrame c r g).fw = l.fw := rfl
@[simp] theorem modFrame_out (c : Nat) (r : W16) (g : RxFrame → RxFrame) (l : Line) : (l.modFrame c r g).out = l.out := rfl
@[simp] theorem modFrame_hold (c : Nat) (r : W16) (g : RxFrame → RxFrame) (l : Line) : (l.modFrame c r g).hold = l.hold := rfl
@[simp] theorem modFrame_ports (c : Nat) (r : W16) (g : RxFrame → RxFrame) (l : Line) : (l.modFrame c r g).ports = l.ports := rfl

/-- Watching a frame for washes changes channels alone. -/
theorem trackFrame_frame (c : Nat) (r : W16) (l : Line) : { l.trackFrame c r with chans := l.chans } = l := by
  unfold Line.trackFrame
  split <;> rfl

@[simp] theorem trackFrame_time (c : Nat) (r : W16) (l : Line) : (l.trackFrame c r).time = l.time :=
  (congrArg Line.time (trackFrame_frame c r l) :)
@[simp] theorem trackFrame_sched (c : Nat) (r : W16) (l : Line) : (l.trackFrame c r).sched = l.sched :=
  (congrArg Line.sched (trackFrame_frame c r l) :)
@[simp] theorem trackFrame_relay (c : Nat) (r : W16) (l : Line) : (l.trackFrame c r).relay = l.relay :=
  (congrArg Line.relay (trackFrame_frame c r l) :)
@[simp] theorem trackFrame_links (c : Nat) (r : W16) (l : Line) : (l.trackFrame c r).links = l.links :=
  (congrArg Line.links (trackFrame_frame c r l) :)
@[simp] theorem trackFrame_jobs (c : Nat) (r : W16) (l : Line) : (l.trackFrame c r).jobs = l.jobs :=
  (congrArg Line.jobs (trackFrame_frame c r l) :)
@[simp] theorem trackFrame_maps (c : Nat) (r : W16) (l : Line) : (l.trackFrame c r).maps = l.maps :=
  (congrArg Line.maps (trackFrame_frame c r l) :)
@[simp] theorem trackFrame_mem (c : Nat) (r : W16) (l : Line) : (l.trackFrame c r).mem = l.mem :=
  (congrArg Line.mem (trackFrame_frame c r l) :)
@[simp] theorem trackFrame_clock (c : Nat) (r : W16) (l : Line) : (l.trackFrame c r).clock = l.clock :=
  (congrArg Line.clock (trackFrame_frame c r l) :)
@[simp] theorem trackFrame_stamps (c : Nat) (r : W16) (l : Line) : (l.trackFrame c r).stamps = l.stamps :=
  (congrArg Line.stamps (trackFrame_frame c r l) :)
@[simp] theorem trackFrame_nodeId (c : Nat) (r : W16) (l : Line) : (l.trackFrame c r).nodeId = l.nodeId :=
  (congrArg Line.nodeId (trackFrame_frame c r l) :)
@[simp] theorem trackFrame_netId (c : Nat) (r : W16) (l : Line) : (l.trackFrame c r).netId = l.netId :=
  (congrArg Line.netId (trackFrame_frame c r l) :)
@[simp] theorem trackFrame_down (c : Nat) (r : W16) (l : Line) : (l.trackFrame c r).down = l.down :=
  (congrArg Line.down (trackFrame_frame c r l) :)
@[simp] theorem trackFrame_running (c : Nat) (r : W16) (l : Line) : (l.trackFrame c r).running = l.running :=
  (congrArg Line.running (trackFrame_frame c r l) :)
@[simp] theorem trackFrame_ready (c : Nat) (r : W16) (l : Line) : (l.trackFrame c r).ready = l.ready :=
  (congrArg Line.ready (trackFrame_frame c r l) :)
@[simp] theorem trackFrame_fw (c : Nat) (r : W16) (l : Line) : (l.trackFrame c r).fw = l.fw :=
  (congrArg Line.fw (trackFrame_frame c r l) :)
@[simp] theorem trackFrame_out (c : Nat) (r : W16) (l : Line) : (l.trackFrame c r).out = l.out :=
  (congrArg Line.out (trackFrame_frame c r l) :)
@[simp] theorem trackFrame_hold (c : Nat) (r : W16) (l : Line) : (l.trackFrame c r).hold = l.hold :=
  (congrArg Line.hold (trackFrame_frame c r l) :)
@[simp] theorem trackFrame_ports (c : Nat) (r : W16) (l : Line) : (l.trackFrame c r).ports = l.ports :=
  (congrArg Line.ports (trackFrame_frame c r l) :)

end Sys2Proof.Laws
end

