-- ==== Sys2Proof/Machine/Pins.lean ====
section
/-! DEFINITION. The levels of the balls that the device drives (R44, R119, R364, R467, R469, R470, R473): `none` is high-impedance. -/

namespace Sys2Proof.Machine

/-- A level of a ball of the host field: none drives before every rail of its die is within range (R467). -/
def State.hostBall (level : Bool) (s : State) : Option Bool := if s.dev.hostRails then some level else none

/-- A level of a ball of a line port: high-impedance until line firmware starts (R119, R124, R470). -/
def State.lineBall (level : Bool) (s : State) : Option Bool := if s.alive .line && s.line.running then some level else none

/-- LPnn_DRVEN (R122, R470). -/
def State.drvenBall (p : Nat) (s : State) : Option Bool := s.lineBall (s.line.port p).drven

/-- LPnn_CPL (R127, R470). -/
def State.cplBall (p : Nat) (s : State) : Option Bool := s.lineBall (s.line.port p).cpl

/-- The sample on LPnn_TXP and LPnn_TXN in steps of the converter: midscale, 0, while no frame is on air (R111, R119, R470). -/
def State.txBall (p : Nat) (s : State) : Option Int := if s.alive .line && s.line.running then some (s.line.clippedSample p s.line.clock.tb) else none

/-- LINE_PWR_EN, an open drain: low in ASHORE alone (R469). -/
def State.linePwrEn (s : State) : Option Bool := if s.dev.rung == .ashore then some false else none

/-- Whether the QSPI balls are high-impedance (R473). -/
def State.qspiFloats (s : State) : Bool := !s.dev.hostRails || !s.dev.resetPin

/-- SPn_TXD (R364, R467). -/
def State.txdBall (n : Nat) (s : State) : Option Bool := s.hostBall ((s.host.sp n).txd s.host.follower)

/-- SPn_DE (R377, R467). -/
def State.deBall (n : Nat) (s : State) : Option Bool := s.hostBall (s.host.sp n).de

/-- PPS_OUT: low while the timebase is undisciplined (R44, R359). -/
def State.ppsOutBall (s : State) : Option Bool := s.hostBall (s.line.clock.disciplined && s.host.ppsLevel)

end Sys2Proof.Machine
end

