-- ==== Sys2Proof/WellFormed.lean ====
section
/-! DEFINITION. Which commands are well formed: every operand names a resource that the device has (the table of numbered
resources of chapter 0), and an Eclyn packet has a LENGTH in 3 to 1,024 (R297). -/

namespace Sys2Proof

/-- A packet's LENGTH, words 0 to the last parameter, lies in 3 to 1,024, and EXPECT has a word (R297, R299). -/
def Cmd.wf (c : Cmd) : Bool := decide (c.params.length ≤ 1021) && (!c.expect || !c.params.isEmpty)

/-- A port whose boundary falls exists. -/
def BoundarySource.wf : BoundarySource → Bool
  | .grid => true
  | .localOf port => decide (port < 96)
  | .synthetic => true

/-- A command is well formed. -/
def Instr.wf : Instr → Bool
  | .nop _ cmd => cmd.wf
  | .identify _ cmd => cmd.wf
  | .deviceStatus _ cmd => cmd.wf
  | .deviceConfigure _ cmd => cmd.wf
  | .modeSet _ cmd => cmd.wf
  | .quarantineRelease _ cmd => cmd.wf
  | .rungSet _ cmd => cmd.wf
  | .lineFirmwareUpdate _ cmd => cmd.wf
  | .flashProgram _ cmd => cmd.wf
  | .reset _ cmd => cmd.wf
  | .timeStatus _ cmd => cmd.wf
  | .timeConfigure _ cmd => cmd.wf
  | .timeSet _ cmd => cmd.wf
  | .portTiming _ cmd => cmd.wf
  | .senseControl _ cmd => cmd.wf
  | .actionCancel _ cmd => cmd.wf
  | .scheduleStatus _ cmd => cmd.wf
  | .portConfigure _ cmd => cmd.wf
  | .portMute _ cmd => cmd.wf
  | .portUnmute _ cmd => cmd.wf
  | .portRearm _ cmd => cmd.wf
  | .portMask _ cmd => cmd.wf
  | .portStatus _ cmd => cmd.wf
  | .channelPlace _ cmd => cmd.wf
  | .channelMode _ cmd => cmd.wf
  | .channelStatus _ cmd => cmd.wf
  | .noiseMapConfigure _ cmd => cmd.wf
  | .noiseMapRead _ cmd => cmd.wf
  | .linkTableRead _ cmd => cmd.wf
  | .linkVerdict _ cmd => cmd.wf
  | .linkPin _ cmd => cmd.wf
  | .frameSubmit _ cmd => cmd.wf
  | .hamperSubmit _ cmd => cmd.wf
  | .transmitAbort _ cmd => cmd.wf
  | .relayConfigure _ cmd => cmd.wf
  | .floodGroupSet _ cmd => cmd.wf
  | .floodGroupRead _ cmd => cmd.wf
  | .relayTableWrite _ cmd => cmd.wf
  | .relayTableRead _ cmd => cmd.wf
  | .relayStatus _ cmd => cmd.wf
  | .lineMemoryStatus _ cmd => cmd.wf
  | .marchControl _ cmd => cmd.wf
  | .testLoopback _ cmd => cmd.wf
  | .lineMemoryRead _ cmd => cmd.wf
  | .keySlotStatus _ cmd => cmd.wf
  | .keyErase _ cmd => cmd.wf
  | .cipherRun _ cmd => cmd.wf
  | .alarmConfigure _ cmd => cmd.wf
  | .alarmStatus _ cmd => cmd.wf
  | .cipherStatus _ cmd => cmd.wf
  | .serialRoute _ cmd => cmd.wf
  | .serialStatus _ cmd => cmd.wf
  | .diagStatus _ cmd => cmd.wf
  | .barrierStatus _ cmd => cmd.wf
  | .routeSet _ cmd => cmd.wf
  | .commandRingDoorbell _ request _ => decide (request.ring < 2)
  | .udpDatagramReceive _ _ _ _ => true
  | .sp0FrameReceive _ _ => true
  | .modeChangeAtLaunch _ _ => true
  | .enterMaintain _ _ => true
  | .lineFirmwareStarted _ => true
  | .firmwareImageFailed _ => true
  | .portMuteTakesEffect _ _ => true
  | .portUnmuteTakesEffect _ _ => true
  | .placementTakesEffect _ _ => true
  | .channelModeTakesEffect _ _ => true
  | .deferredChannelAction _ _ => true
  | .fixPoint _ _ => true
  | .residencyCheck _ _ _ => true
  | .frameDownSend _ => true
  | .frameDownReceive _ => true
  | .drvenRise _ port channel => decide (port < 96 ∧ channel < 256)
  | .frameLaunch _ _ _ => true
  | .transmitFrameEnd _ ending => decide (ending.channel < 256)
  | .drvenFall _ port => decide (port < 96)
  | .onAirEndingComplete _ port channel => decide (port < 96 ∧ channel < 256)
  | .drvfltAssert _ port => decide (port < 96)
  | .drvfltAccepted _ port => decide (port < 96)
  | .ilimWindow _ port _ => decide (port < 96)
  | .impedanceBlock _ port channel _ => decide (port < 96 ∧ channel < 256)
  | .cplSettleEnd _ port => decide (port < 96)
  | .selfOverlapHoldEnd _ channel => decide (channel < 256)
  | .ppsEdge _ _ => true
  | .ppsLossTimeout _ => true
  | .ptpMessage _ _ => true
  | .ptpSyncTimeout _ => true
  | .beaconSourceTimeout _ => true
  | .timebaseStep _ => true
  | .timeSyncSend _ => true
  | .timeSyncReceive _ => true
  | .ppsOutEdge _ => true
  | .timeSetTimeout _ => true
  | .ref10mChange _ _ _ => true
  | .zeroCrossing _ input _ => decide (input < 6)
  | .senseLossTimeout _ input => decide (input < 6)
  | .strokeBoundary _ boundary => boundary.source.wf
  | .gridStep _ => true
  | .strokeSource _ port => decide (port < 96)
  | .beaconOriginate _ => true
  | .beaconReceived _ => true
  | .coxRankExpiry _ _ => true
  | .timeTransferRequest _ => true
  | .timeTransferRequestReceived _ => true
  | .timeTransferReply _ => true
  | .timeTransferReplyReceived _ => true
  | .crewHold _ => true
  | .islandDelayExpiry _ => true
  | .syncCandidate _ channel cand => decide (channel < 256 ∧ cand.sync.length = 320)
  | .headerTest _ channel context _ => decide (channel < 256 ∧ context < 2)
  | .wash _ channel context _ => decide (channel < 256 ∧ context < 2)
  | .codewordEnd _ channel _ _ => decide (channel < 256)
  | .committedFrameEnd _ channel ending => decide (channel < 256 ∧ ending.context < 2)
  | .noiseMapObservation _ port phaseBin _ => decide (port < 96 ∧ phaseBin < 256)
  | .relayEngineTakeUp _ => true
  | .relayStageCheck _ _ _ => true
  | .relayFixCheck _ _ => true
  | .relayResidencyCheck _ _ => true
  | .relayLaunch _ _ => true
  | .unicastLegLaunch _ _ => true
  | .linkReportSend _ channel => decide (channel < 256)
  | .linkReportReceived _ => true
  | .linkAgeExpiry _ index => decide (index < 2048)
  | .linkRemoval _ index => decide (index < 2048)
  | .verdictDecay _ index => decide (index < 2048)
  | .hopAgeExpiry _ index => decide (index < 4096)
  | .marginMeasure _ _ _ => true
  | .heartbeatSend _ _ => true
  | .heartbeatReceive _ _ _ => true
  | .heartbeatTimeout _ _ => true
  | .retryTimeout _ _ _ => true
  | .barrierMessageReceive _ _ lane _ _ => decide (lane < 4)
  | .laneRetrain _ _ lane _ => decide (lane < 4)
  | .timingLaneFail _ => true
  | .timingLaneMeasure _ _ => true
  | .barrierNoteClose _ => true
  | .frameUpReceive _ => true
  | .eventMessageReceive _ => true
  | .replyLineReceive _ => true
  | .alarmMessageReceive _ => true
  | .alarmRaised _ source => decide (source < 8)
  | .diePowered _ _ => true
  | .railOutOfRange _ _ => true
  | .resetN _ => true
  | .perstN _ => true
  | .hostWatchdog _ => true
  | .lineWatchdog _ => true
  | .resetPattern _ => true
  | .hostFirmwareCheck _ => true
  | .lineImageLoaded _ => true
  | .lineReady _ => true
  | .lineNotReady _ => true
  | .rungWake _ source => decide ((source < 10 ∨ source = 16 ∨ source = 17))
  | .flashDone _ => true
  | .bankHandover _ bank _ => decide (bank < 32)
  | .marchFailedClear _ bank => decide (bank < 32)
  | .bankOwner _ bank => decide (bank < 32)
  | .bar2Access _ offset _ => decide (offset < 8388608)
  | .bankAccess _ _ => true
  | .marchBorrow _ _ _ => true
  | .queueWindowRead _ queue => decide (queue < 8)
  | .stalledReadComplete _ queue => decide (queue < 16)
  | .stallLimitExpiry _ queue => decide (queue < 16)
  | .queueReset _ queue => decide (queue < 8)
  | .queueHoldDrain _ queue => decide (queue < 8)
  | .queueLostRead _ queue => decide (queue < 8)
  | .queueHwmRead _ queue => decide (queue < 8)
  | .deviceRingWrite _ request => decide (2 ≤ request.ring ∧ request.ring < 6)
  | .ringEnable _ ring _ => decide (ring < 6)
  | .ringHoldoffEnd _ ring => decide (ring < 6)
  | .intCauseWrite _ _ => true
  | .intMaskWrite _ _ => true
  | .timeLoRead _ => true
  | .memCdataRead _ => true
  | .registerWrite _ offset _ => decide ((offset < 69632 ∧ offset % 4 = 0))
  | .serialStartEdge _ edge => decide (edge.port < 8)
  | .serialCharacter _ port _ => decide (port < 8)
  | .serialRxDma _ port => decide (port < 8)
  | .serialRxTimeout _ port => decide (port < 8)
  | .serialBreak _ line => decide (line.port < 8)
  | .serialStuck _ line => decide (line.port < 8)
  | .serialIdle _ line => decide (line.port < 8)
  | .serialRxRelease _ port _ => decide (port < 8)
  | .serialTxDescriptor _ port _ => decide (port < 8)
  | .serialTxCharacterEnd _ port => decide (port < 8)
  | .serialTxBreakSet _ port => decide (port < 8)
  | .serialTxBreakClear _ port => decide (port < 8)
  | .serialBreakHoldEnd _ port => decide (port < 8)
  | .serialTxDisable _ port => decide (port < 8)
  | .serialRxDisable _ port => decide (port < 8)
  | .serialFormatChange _ port _ _ => decide (port < 8)
  | .serialDeTailEnd _ port => decide (port < 8)
  | .serialCtsChange _ port _ => decide (port < 8)
  | .serialRxqRead _ port => decide (port < 8)
  | .serialRxqReset _ port => decide (port < 8)
  | .cipherOpStart _ engine => decide (engine < 16)
  | .cipherSuspend _ engine => decide (engine < 16)
  | .cipherRelease _ engine => decide (engine < 16)
  | .cipherOpEnd _ engine => decide (engine < 16)
  | .cipherZeroingDone _ engine => decide (engine < 16)
  | .keyStagingWrite _ slot word _ => decide (slot < 64 ∧ word < 8)
  | .keyCommit _ slot _ => decide (slot < 64)
  | .cuGo _ unit _ => decide (unit < 8)
  | .cuAbort _ unit => decide (unit < 8)
  | .cuRunDone _ unit => decide (unit < 8)
  | .cuStatusRead _ unit => decide (unit < 8)
  | .ethFrameReceive _ _ => true
  | .arpRetry _ => true
  | .ethLinkChange _ _ => true
  | .i2cWrite _ _ => true
  | .i2cResetReq _ => true
  | .jtagInstruction _ _ => true
  | .drvfltDeassert _ port => decide (port < 96)
  | .alarmSourceInactive _ source => decide (source < 8)
  | .lineAlarmDetected _ => true
  | .serialFalseStart _ start => decide (start.port < 8)
  | .resetNRelease _ => true

end Sys2Proof
end

