-- ==== Sys2Proof/Tests/Slice0.lean ====
section
/-! SUPPORT. The model's own tests: ill-formed commands are refused, worked examples of the specification, and one witness for the hypotheses of each
statement. A clause of a witness stands under the names of the commands that its clause of the statement runs. -/

open Sys2Proof Sys2Proof.Machine Sys2Proof.Safety

namespace Sys2Proof.Tests

set_option Elab.async false
set_option linter.unusedVariables false

/-! ## States for the tests -/

/-- A device at work: both dies run, the barrier is up, the mode is `m`. -/
def up (m : Mode) : State :=
  let s := State.reset
  { s with dev := { s.dev with mode := m }, host := { s.host with running := true, inSync := true }, line := { s.line with running := true, ready := true },
           link := { s.link with host := { s.link.host with up := true }, line := { s.link.line with up := true } } }

/-- A state with its device part changed. -/
def dv (f : Dev → Dev) (s : State) : State := { s with dev := f s.dev }

/-- A state with its host side changed. -/
def hs (f : HostSide → HostSide) (s : State) : State := { s with host := f s.host }

/-- A state with its line side changed. -/
def ln (f : Line → Line) (s : State) : State := { s with line := f s.line }

/-- A state with its barrier changed. -/
def lk (f : Link → Link) (s : State) : State := { s with link := f s.link }

/-- The timebase and the follower at an instant. -/
def at_ (t : Tick) (s : State) : State := hs (fun h => { h with follower := t }) (ln (fun l => { l with clock := { l.clock with tb := t } }) s)

/-- A command through ring 0 with parameter words, tag 7. -/
def cmd (ws : List W16) : Cmd := ⟨.ring0, 7, false, false, ws⟩

/-- A frame header of type, no security, `len` for LEN_M1. -/
def hdr (type len : Nat) : Nat := makeHeader 0 type 0 0 0 len 0 15 false

/-- What SYNC gave of a strong frame that launched at tick 0. -/
def lock : Lock := ⟨0, 1, 0, ⟨65536, 0⟩, 1⟩

/-- A frame in reception on channel 0, port 0. -/
def rxf (type len : Nat) : RxFrame :=
  { rxId := 1, ctx := 0, epoch := 0, launch := 0, hdr := hdr type len, rep := 1, lock := lock, syms := [], cfg := chanDefaults, port := 0, rateK := 0,
    f := 0, endAt := 1000000, trunc := none, overlap := false, erased := 0, spans := [], washes := 0, phase := 0, stroke := 0, ofs := 0,
    cws := [none], segs := 0, segBytes := 0, cutOff := false, closed := false, snr := 0, evm := 0, power := 0 }

/-- A good frame of a type with its bytes. -/
def good (type : Nat) (bytes : List Byte) : GoodFrame := { chan := 0, frame := rxf type (bytes.length - 1), bytes := bytes, check := 0 }

/-- Port `p` with settings: enabled, its flags as given. -/
def onPort (p : Nat) (s : State) : State := ln (Line.modPort p fun q => { q with cfg := q.cfg.set 0 1, muted := false, bands := [(1000000, 500000000)] }) s

/-- Channel `c` placed on port `p`, receiving and sending at 20 MHz with RATE_K 6. -/
def placed (c p : Nat) (s : State) : State :=
  ln (Line.modChan c fun x => { x with place := some { rxPort := p, portSet := [p, 255, 255, 255, 255, 255, 255, 255], f := 1000000000, rateK := 6 } }) (onPort p s)

/-- A launch specifier of the form TIME. -/
def spec (t : Tick) : LaunchSpec := ⟨.time, false, 0, t, 0, 0, 0⟩

/-- An action of tag 7 that launches at `t`. -/
def act (kind : ActKind) (t : Tick) : Action :=
  { id := 0, tag := 7, via := .ring0, kind := kind, spec := spec t, refPort := 0, accepted := 0, n0 := 0, slipped := 0, launch := t, fixed := true, expEpoch := none, deferred := none, late := false, frames := [] }

/-- A state in whose scheduler the action waits. -/
def waiting (a : Action) (s : State) : State := ln (fun l => { l with sched := { l.sched with actions := [a] } }) s

/-- A link entry of node 9 on channel 0. -/
def entry : LinkEntry :=
  { index := 3, node := 9, chan := 0, stale := false, held := 0, snr := some 20, evm := some (-20), iter := 4, washed := [], heard := Ctr.zero, since := 0, heardAt := 0,
    heardStroke := 0, report := none, hyp := 7, profile := List.replicate 16 0, pin := none, offset := 1, offsetAt := 0, ups := 0, dropped := 0, lastLen := none }

/-- A state whose link table holds one entry. -/
def linked (e : LinkEntry) (s : State) : State := ln (fun l => { l with links := { l.links with entries := [e] } }) s

/-- The action that a command leaves waiting. -/
def bOf (info : CmdInfo) (c : Cmd) (k : ActKind) (ref : Nat) (s : State) : Action :=
  (((s.advance 0).line.judgeAction (draft (acceptance info c (s.advance 0)) ((parseSpec c).getD (spec 0)) k ref (s.advance 0))).2).getD (act k 0)

/-- The launch specifier of a command. -/
def specOf (c : Cmd) : LaunchSpec := (parseSpec c).getD (spec 0)

/-- A packet of words in a queue. -/
def pk (ws : List W16) : QPacket := { entries := ws.map fun x => (x, 1), prov := false, slot := false, begun := false }

/-- Queue `n` changed. -/
def qu (n : Nat) (f : Queue → Queue) : State → State := hs (HostSide.modQueue n f)

/-- A ring on its way: enabled, with 1,024 slots, the device a bus master. -/
def ringUp (r : Nat) (s : State) : State :=
  hs (fun h => { h.modRing r (fun g => { g with ctrl := 0x8000000A }) with ints := { h.ints with busMaster := true } }) s

/-- A cipher operation from CIPHER_RUN, encrypting `len` bytes at 0 to 256 with slot 3. -/
def op (len : Nat) : CipherOp :=
  { origin := .run, tag := 7, mode := .gcm, decrypt := false, stream := false, slot := 3, tagLen := 16, aadLen := 0, src := 0, dst := 256, len := len,
    nonce := List.replicate 12 0, accepted := 0, launch := 0, frameEnd := 0, key := List.replicate 16 1, keyLen := 0, keyId := 1, slotEpoch := 1,
    keyChanged := false, erased := none, input := [], released := 0, written := 0, segs := [], final := none, zeroing := false }

/-- Slot `n` holds a key. -/
def keyed (n : Nat) (s : State) : State := hs (HostSide.modKey n fun k => { k with state := .loaded, key := List.replicate 16 1 }) s

/-- Engine `e` has an operation in its active context. -/
def busy (e : Nat) (o : CipherOp) (s : State) : State := hs (HostSide.modEngine e fun g => { g with active := some o }) s

/-- A run of a check unit over 16 bytes. -/
def crun : CuRun := { ctrl := 0x1003, src := 0, len := 16, addr := 0, fold := 0, expect := 0 }

/-- A message on its way. -/
def fly (m : Msg) : InFlight := ⟨m, 0, 0, false⟩

/-- Messages that wait on the host side. -/
def inbox (ms : List Msg) : State → State := lk fun k => { k with host := { k.host with inbox := ms } }

/-- Messages that wait on the line side. -/
def lineInbox (ms : List Msg) : State → State := lk fun k => { k with line := { k.line with inbox := ms } }

/-- A whole received frame on its way up. -/
def frameUp : FrameUp := { kind := 1, head := [1, 2, 3], body := [4, 5], chan := 0, rxId := 1, sec := false, cut := false, status := 0, ofs := 0, frameLen := 2 }

/-- A frame descriptor for channel 3. -/
def desc : FrameDesc :=
  { chan := 3, ofs := 0, mod := 0, rate := 0, lift := 0, sec := false, type := 0, level := 0, slot := 0, dest := 9, hopsToGo := 0, floodK := 0, floodId := 0,
    dataLen := 4, dataOfs := 0, expEpoch := none, seq := 0, src := 5 }

/-- A frame of a pending action, on its way or resident. -/
def txf (p : Option (List Byte)) : TxFrame := { desc := desc, payload := p, seed := 0, launched := false, ended := false, touched := false }

/-- An action of one frame. -/
def fact (p : Option (List Byte)) (t : Tick) : Action := { act (.frames false) t with frames := [txf p] }

/-- A frame on air from tick 0 to 1,000,000 on ports 7 and 8. -/
def onair : OnAir :=
  { kind := .host 7 0 0 0 0 0, epoch := 0, hdr := hdr 0 15, bytes := List.replicate 20 0, data := none, launch := 0, endAt := 1000000, symbols := 320,
    txb := 15, entries := [⟨7, 0, 48, true, none, false⟩, ⟨8, 0, 48, true, none, false⟩], steps := 0, clip := false, size := 1, f := 1000000000, rateK := 6, nco := 0 }

/-- A frame on air on channel `c`, its ports driven. -/
def aired (c : Nat) (o : OnAir) (s : State) : State :=
  ln (fun l => Line.modPort 8 (fun q => { q with drven := true, holders := [c] }) (Line.modPort 7 (fun q => { q with drven := true, holders := [c] })
    (Line.modChan c (fun x => { x with onAir := some o }) l))) (placed c 7 (onPort 8 s))

/-- FRAME_SUBMIT and HAMPER_SUBMIT parameters: TIME 3,000,000 and `n` descriptors for channels 3 on. -/
def frames (n : Nat) : List W16 :=
  [1, 0xC6C0, 45, 0, 0, BitVec.ofNat 16 n] ++ (List.range n).flatMap fun i => [BitVec.ofNat 16 (3 + i), 0, 0, 0, 0, 0, 9, 0, 0, 0, 4, 0, 0, 0]

/-- Channels 3 and 4 placed, on two ports. -/
def twoChans : State := placed 4 9 (placed 3 7 (ln (fun l => { l with nodeId := 5 }) (up .headend)))

/-- A frame in the transmit frame queue. -/
def hostFrameOf (p : Option (List Byte)) : HostFrame :=
  { action := 0, index := 0, tag := 7, via := .ring0, accepted := 0, launch := 3000000, slipped := 0, desc := desc, payload := p, ciphering := false, waited := false }

/-- The action of a frame command. -/
def fOf (info : CmdInfo) (hamper : Bool) (n : Nat) : Action :=
  let u := twoChans.advance 0
  ((u.line.judgeAction (frameDraft (acceptance info (cmd (frames n)) u) (specOf (cmd (frames n))) hamper ((List.range n).map (parseDesc (cmd (frames n)))) u)).2).getD (act (.frames false) 0)

/-- The descriptors with their steps. -/
def esOf (info : CmdInfo) (hamper : Bool) (n : Nat) : List FrameDesc :=
  ((twoChans.advance 0).line.chooseAll 7 (fOf info hamper n).launch ((List.range n).map (parseDesc (cmd (frames n))))).getD []

/-- Node 5, its cox, channel 3 on port 7 at RATE_K 0, two SEQ reserved, time source 0 qualified. -/
def node (m : Mode) : State :=
  ln (fun l => { (Line.modChan 3 (fun x => { x with place := some { rxPort := 7, portSet := [7, 255, 255, 255, 255, 255, 255, 255], f := 1000000000, rateK := 0 } }) l) with
      nodeId := 5, seqs := [(77, 1), (78, 2)],
      time := { l.time with source := 0, ppsQual := true, segs := [⟨0, 0, 983040000000, 0⟩], cox := some (5, 1), parent := some 9, cfg := (l.time.cfg.set 11 3).set 14 3 } }) (placed 3 7 (up m))

/-- A state with its time unit changed. -/
def tm (f : Time → Time) : State → State := ln (Line.modTime f)

/-- A frame of the device's own, planned. -/
def own (type : Nat) (t : Tick) : OwnFrame := { chan := 3, port := none, type := type, mod := 0, rate := 0, lift := 0, bytes := List.replicate 60 1, launch := t }

/-- The bytes of a hop header to `d` from `s`, then 40 bytes. -/
def hopBytes (d s : Nat) (n : Nat) : List Byte := beBytes 4 d ++ beBytes 4 s ++ List.replicate 8 0 ++ [1] ++ List.replicate n 0

/-- A beacon of stroke 64. -/
def beacon : GoodFrame :=
  good 2 (((at_ 958500000 (node .headend)).planBeacon 64 959250000).line.time.planned.head?.getD (own 2 0)).bytes

/-- Channel 3 with a context and frames. -/
def receiving (cs : List (Option Ctx)) (fs : List RxFrame) : State := ln (Line.modChan 3 fun x => { x with ctx := cs, frames := fs }) (node .headend)

/-- A value as it is received at a sixteenth of full scale. -/
def heardAs (y : Cq) : Cx := ⟨(y.re * 65536).floor, (y.im * 65536).floor⟩

/-- A frame's symbol `m` as it is received at a sixteenth of full scale. -/
def sent (o : OnAir) (m : Nat) : Cx := heardAs (o.symbol m)

/-- The symbols after SYNC of a header of BPSK and its first payload symbols, the pilots among them. -/
def hdrSyms (h n : Nat) : List Cx :=
  let b := headerBits h
  (List.range n).map fun m => if m % 32 = 31 then heardAs (rootOf (pilotPhase (m / 32))) else heardAs (sentPoint 0 (dataSymbol 1 b (31 * (m / 32) + m % 32)))

/-- A candidate whose SYNC is received without noise. -/
def cand : SyncCand := ⟨0, (List.range 320).map (sent onair), 0⟩

/-- What it gives. -/
def candLock : Lock := lockOf cand

/-- The codeword of a header. -/
def hdrBits (h : Nat) : Bits := encodeWord 0 0 (natBits 64 h ++ List.replicate 224 false)

/-- `n` symbols after SYNC, all of one value. -/
def flat (n : Nat) : RxObs := ⟨List.replicate n ⟨65536, 0⟩, []⟩

/-- A payload that passes its frame check: a hop header and no data. -/
def payload : List Byte := (beBytes 4 9 ++ beBytes 4 4 ++ beBytes 2 1 ++ [0, 0, 0, 0, 0, 0] ++ List.replicate 4 7)

/-- A frame with it, as one codeword. -/
def whole : RxFrame := { rxf 0 19 with cws := List.replicate (rxf 0 19).count none }

/-- Its codewords. -/
def words : List Bits := payloadWords (hdr 0 19) (withCheck 9 1 payload)

/-- The end of its codeword `i` in one iteration. -/
def obs (i : Nat) : CodewordObs := ⟨i, [words.getD i []]⟩

/-- A hop header from `a` to `d` with `h` hops to go, `c` done, FLOOD_K `k`, flood ID `f`, then 4 data bytes. -/
def hop (d a h c f k : Nat) : List Byte :=
  beBytes 4 d ++ beBytes 4 a ++ beBytes 2 1 ++ [BitVec.ofNat 8 h, BitVec.ofNat 8 c] ++ beBytes 2 f ++ [BitVec.ofNat 8 k, 0, 7, 7, 7, 7]

/-- A good frame received on channel 3, port 7, with a high SNR. -/
def heard (type : Nat) (b : List Byte) : GoodFrame :=
  { chan := 3, frame := { rxf type (b.length - 1) with cws := [], port := 7, snr := 0x1400, launch := 959500000, endAt := 960500000 }, bytes := b, check := 0 }

/-- Good frames that wait for the relay engine. -/
def relayInbox (gs : List GoodFrame) (s : State) : State := at_ 961000000 (ln (fun l => { l with relay := { l.relay with inbox := gs } }) s)

/-- A copy on channel 3 that launches at `t`. -/
def copy (type : Nat) (t : Tick) (r : Option (List Byte)) : Copy :=
  { id := 0, type := type, chan := 3, rx := 3, hdr := hdr type 19, check := frameCheck 9 1 payload, len := 19, dest := 9, src := 4, seq := 1, floodId := 5, htg := 2, hc := 1,
    launch := t, stroke := 64, spread := 0, decided := 0, resident := r }

/-- A state with one pending copy. -/
def copied (k : Copy) (s : State) : State := ln (fun l => { l with relay := { l.relay with copies := [k] } }) s

/-- Flood group 5, relaying and delivering. -/
def grouped (s : State) : State := ln (fun l => { l with relay := { l.relay with groups := [⟨5, true, true, -20, 0⟩] } }) s

/-- A link report from node 4 with one entry, about node 7, at a RATE_K. -/
def reportFrame (version rateK : Nat) : GoodFrame :=
  heard 0 ((hop 0xFFFFFFFF 4 0 1 0 0).take 16 ++ [BitVec.ofNat 8 version, 5, 1, BitVec.ofNat 8 rateK, 0, 0, 0, 0, 1, 2, 3, 4, 5, 6, 7, 8]
    ++ beBytes 4 7 ++ beBytes 2 500 ++ beBytes 2 600 ++ [4, 3, 0, 0])

/-- A state with serial port `n` changed, its direction enabled. -/
def sp (n : Nat) (f : Serial → Serial) (s : State) : State := hs (HostSide.modSp n fun p => f { p with ctrl := 0x183 }) s

/-- The levels of the character 0x41 at 9,600 Bd and 8N1: low for the start bit, then its bits and the stop bit. -/
def char : CharObs := ⟨[25000, 50000, 175000, 200000, 225000]⟩

/-- A received entry of value `v`. -/
def rxe (v : Nat) : RxEntry := ⟨BitVec.ofNat 16 v, 10, 20, none⟩

/-- A filling block 0 with `n` entries. -/
def fil (n : Nat) : Filling := ⟨0, List.replicate n 7, 5, 9⟩

/-- A RELAY node with its time in order, the beacon and flood group 5, and one good frame to take up. -/
def crewNode (g : GoodFrame) : State :=
  ln (fun l => { l with clock := { l.clock with disciplined := true }, time := { l.time with eBase := 10, segs := [{ nEff := 0, bEff := 0, pRaw := 983040000000, pb := 200 }] } })
    (relayInbox [g] (grouped (node .relay)))

/-- A state to whose line side the command `c` of an opcode comes next. -/
def toL (opcode : Nat) (c : Cmd) (s : State) : State := lineInbox [.cmdLine ⟨c, opcode, s.host.follower, true, (0, 0), []⟩] s

/-- What the line side then takes. -/
def gotOf (opcode : Nat) (c : Cmd) (s : State) : Accepted × BarrierEnd := (⟨c, opcode, s.host.follower, true, (0, 0), []⟩, { s.link.line with inbox := [] })

/-- Nothing found where the one thing that could be found gives nothing. -/
theorem none_of_all {α β γ : Type} {a : Option α} {b : Option β} {w : α → β → Option γ} (h : (a.all fun x => b.all fun y => (w x y).isNone) = true) :
    ∀ x y, a = some x → b = some y → w x y = none := by
  rintro x y rfl rfl
  simpa using h

/-- A state in which the command `c` of an opcode has been accepted and waits for its command processor. -/
def toH (opcode : Nat) (c : Cmd) : State → State := hs fun h => { h with accepted := h.accepted ++ [⟨c, opcode, h.follower, false, (0, 0), []⟩] }

/-- A falling edge of port `n`. -/
def fall (n : Nat) : EdgeObs := ⟨n, true, false⟩

/-- A PTP master in domain 0 over UDP. -/
def master : PtpHead := ⟨false, 0, 5, 1⟩

/-- The grandmaster that it tells, with a priority. -/
def grade (p : Nat) : PtpGrade := ⟨p, 6, 33, 0, 128, 5, 0⟩

/-- A node that follows the master over a path of 40 ticks, with H_PTP_CTRL `v`. -/
def ptpOn (v : W32) (m : Mode) : State :=
  hs (fun h => { h with eth := { h.eth with link := true, ipv4 := 1 },
                        ptp := { h.ptp with ctrl := v, inForce := v, requalify := false, best := some (master, grade 128), path := some 40, last := some (7, 9) } })
    (tm (fun x => { x with source := 1, ptpQual := true, ptpGood := 3 }) (ln (fun l => { l with clock := { l.clock with disciplined := true } }) (up m)))

/-- A filling buffer of SP0 with one frame between flags, which ends at tick 7. -/
def flagged (bs : List Byte) : State → State := hs fun h => { h with sp0Buf := (0x7E, 1) :: bs.map (fun b => (b, 3)) ++ [(0x7E, 7)] }

/-- A header codeword on channel 3 that has lost its context. -/
def freed : HeaderWord := { chan := 3, ctx := 1, at_ := 257625, rep := 1, lock := candLock, rateK := 0, syms := [], marks := [], cfg := chanDefaults }

/-- What holds of everything found, where nothing is. -/
theorem of_isNone {α : Type} {a : Option α} {p : α → Prop} (h : a.isNone = true) : ∀ x, a = some x → p x := by
  rintro x rfl
  simp at h

/-- What holds of everything found, where one thing is. -/
theorem of_all {α : Type} {a : Option α} {q : α → Bool} (h : a.all q = true) : ∀ x, a = some x → q x = true := by
  rintro x rfl
  simpa using h

/-! ## Ill-formed commands -/

theorem test_ill_formed_commands_are_refused_1 : ([
    .commandRingDoorbell 0 ⟨2, none⟩ 0, .drvenRise 0 96 0, .drvenRise 0 0 256, .transmitFrameEnd 0 ⟨256, []⟩, .drvenFall 0 96, .onAirEndingComplete 0 96 0,
    .onAirEndingComplete 0 0 256, .drvfltAssert 0 96, .drvfltAccepted 0 96, .ilimWindow 0 96 ⟨0, 0, 0⟩, .impedanceBlock 0 96 0 ⟨0, ⟨0, 0⟩, ⟨0, 0⟩, 0⟩,
    .impedanceBlock 0 0 256 ⟨0, ⟨0, 0⟩, ⟨0, 0⟩, 0⟩, .cplSettleEnd 0 96, .selfOverlapHoldEnd 0 256, .zeroCrossing 0 6 ⟨true, true, 0, 0⟩,
    .senseLossTimeout 0 6, .strokeSource 0 96, .syncCandidate 0 256 ⟨0, List.replicate 320 ⟨0, 0⟩, 0⟩, .syncCandidate 0 0 ⟨0, List.replicate 319 ⟨0, 0⟩, 0⟩, .headerTest 0 256 0 ⟨⟨[], []⟩, []⟩, .headerTest 0 0 2 ⟨⟨[], []⟩, []⟩,
    .wash 0 256 0 ⟨[], []⟩, .wash 0 0 2 ⟨[], []⟩, .codewordEnd 0 256 0 ⟨0, []⟩,
    .committedFrameEnd 0 256 ⟨0, ⟨[], []⟩⟩, .committedFrameEnd 0 0 ⟨2, ⟨[], []⟩⟩, .noiseMapObservation 0 96 0 ⟨[], []⟩, .noiseMapObservation 0 0 256 ⟨[], []⟩,
    .linkReportSend 0 256, .linkAgeExpiry 0 2048, .linkRemoval 0 2048, .verdictDecay 0 2048, .hopAgeExpiry 0 4096,
    .barrierMessageReceive 0 .line 4 0 true, .laneRetrain 0 .line 4 0, .alarmRaised 0 8, .rungWake 0 10, .bankHandover 0 32 0,
    .marchFailedClear 0 32, .bankOwner 0 32, .bar2Access 0 8388608 (.read 0), .queueWindowRead 0 8, .stalledReadComplete 0 16] : List Instr).all (fun i => !i.wf) = true := by decide +kernel
theorem test_ill_formed_commands_are_refused_2 : ([
    .stallLimitExpiry 0 16, .queueReset 0 8, .queueHoldDrain 0 8, .queueLostRead 0 8, .queueHwmRead 0 8, .deviceRingWrite 0 ⟨6, none⟩,
    .deviceRingWrite 0 ⟨1, none⟩, .ringEnable 0 6 0, .ringHoldoffEnd 0 6, .registerWrite 0 69632 0, .registerWrite 0 2 0, .serialStartEdge 0 (fall 8),
    .serialCharacter 0 8 ⟨[]⟩, .serialRxDma 0 8, .serialRxTimeout 0 8, .serialBreak 0 ⟨8, ⟨[]⟩⟩, .serialStuck 0 ⟨8, ⟨[]⟩⟩, .serialIdle 0 ⟨8, ⟨[]⟩⟩,
    .serialRxRelease 0 8 0, .serialTxDescriptor 0 8 0, .serialTxCharacterEnd 0 8, .serialTxBreakSet 0 8, .serialTxBreakClear 0 8,
    .serialBreakHoldEnd 0 8, .serialTxDisable 0 8, .serialRxDisable 0 8, .serialFormatChange 0 8 true 0, .serialDeTailEnd 0 8,
    .serialCtsChange 0 8 true, .serialRxqRead 0 8, .serialRxqReset 0 8, .cipherOpStart 0 16, .cipherSuspend 0 16, .cipherRelease 0 16,
    .cipherOpEnd 0 16, .cipherZeroingDone 0 16, .keyStagingWrite 0 64 0 0, .keyStagingWrite 0 0 8 0, .keyCommit 0 64 0, .cuGo 0 8 0,
    .cuAbort 0 8, .cuRunDone 0 8, .cuStatusRead 0 8, .drvfltDeassert 0 96, .alarmSourceInactive 0 8, .serialFalseStart 0 ⟨8, ⟨[]⟩⟩,
    .strokeBoundary 0 ⟨.localOf 96, []⟩, .nop 0 ⟨.ring0, 0, false, false, List.replicate 1022 0⟩, .routeSet 0 ⟨.udp, 0, false, true, []⟩] : List Instr).all (fun i => !i.wf) = true := by decide +kernel
/-- A packet of LENGTH 1,024, the longest, is well formed, and so is the last resource of each kind. -/
theorem test_last_resources_are_well_formed : ([.nop 0 ⟨.ring0, 0, false, false, List.replicate 1021 0⟩, .drvenRise 0 95 255, .queueReset 0 7,
    .deviceRingWrite 0 ⟨2, none⟩, .rungWake 0 17, .keyStagingWrite 0 63 7 0, .registerWrite 0 69628 0] : List Instr).all Instr.wf = true := by decide +kernel

/-! ## Worked examples of the specification -/

/-- The results over the nine characters "123456789" (Table 17.1). -/
theorem test_check_values : let m := (List.range 9).map fun i => BitVec.ofNat 8 (0x31 + i)
    crc16 m = 0x29B1 ∧ crc24 m = 0x21CF02 ∧ crc32 m = 0xCBF43926 ∧ crc32c m = 0xE3069283 := by decide +kernel

/-- CHECK of the NOP packet with tag 1 (chapter 11, Table 11.4). -/
theorem test_nop_packet_check : crc16 [0x00, 0x00, 0x01, 0x00, 0x03, 0x00] = 0x2DF7 := by decide +kernel

/-- Tag 0x007E goes out as 0x7D, 0x5E, 0x00 (chapter 11). -/
theorem test_flag_is_escaped : escape [0x7E, 0x00] = [0x7D, 0x5E, 0x00] := by decide

/-- NOP in CONFIG: word 0 of the reply is 0x0020, word 2 is 16, word 3 is 0x1000, word 4 is 0x8010 (chapter 11). -/
theorem test_nop_reply : (match exec (.nop 0 ⟨.ring0, 1, false, false, []⟩) (up .config) with
    | .next t => (t.host.queues.flatMap fun q => q.pkts.map fun p => [0, 1, 2, 3, 4].map fun i => (nth p.entries i (0, 0)).1)
    | _ => []) = [[0x0020, 1, 16, 0x1000, 0x8010]] := by decide +kernel

/-- The first six positions of an interleaved stream of two words of 576 bits: c0b0, c1b17, c0b73, c1b90, c0b146, c1b163 (R157). -/
theorem test_interleaving_order : [(0, 0), (1, 17), (0, 73), (1, 90), (0, 146), (1, 163)].zipIdx.all (fun x =>
    (interleave 576 [(List.range 576).map (fun i => x.1.1 == 0 && i == x.1.2), (List.range 576).map (fun i => x.1.1 == 1 && i == x.1.2)])[x.2]? == some true) = true := by
  decide +kernel

/-- The rate-1/2 shift 57 is 28, 14 and 7 at Z = 96, 48 and 24 (chapter 6). -/
theorem test_shift_scaling : [96, 48, 24].map (fun z => scaled z 57) = [28, 14, 7] := by decide

/-- Table 6.8: codewords, data symbols and symbols of 1,000 data bytes in 256-QAM at rate 3/4 at the four lifting sizes. -/
theorem test_table_6_8 : [0, 1, 2, 3].map (fun z => (codewordCount 2 z 1015, dataSymbols 4 2 z 1015, frameSymbols 4 2 z 1015)) =
    [(19, 1720, 2096), (10, 1792, 2170), (5, 1792, 2170), (3, 2080, 2468)] := by decide

/-- 32 KiB in 1024-QAM at rate 5/6 and Z = 192: 69 codewords, 32,148 data symbols, 33,506 symbols, 8,380.25 µs at RATE_K 0 (chapter 6). -/
theorem test_longest_payload : (codewordCount 3 3 32767, dataSymbols 5 3 3 32767, frameSymbols 5 3 3 32767) = (69, 32148, 33506)
    ∧ frameTicks 0 5 3 3 32767 = 12570375 := by decide

/-- The header spans S + 8 and the completion E_R of a header for R = 1, 4 and 6 (R164, R204). -/
theorem test_header_spans : [1, 4, 6].map headerSpan = [691, 1781, 2508] ∧ [1, 4, 6].map headerDone = [698, 1788, 2515] := by decide

/-- The first hop of chapter 10: N 5,440, 8,182,500 ticks at RATE_K 2; SYNC reference instant 396,000 and header end 1,036,500 after the launch. -/
theorem test_first_hop : frameSymbols 1 0 2 515 = 5440 ∧ frameTicks 2 1 0 2 515 = 8182500 ∧ syncInstant (-455882) 2 = -59882
    ∧ headerEnd (-750000) 2 1 = 286500 := by decide

/-- E_crew of that hop is 23 ns: 23 meets it, 24 does not (chapter 10). -/
theorem test_crew_budget : crewError 23 2 20 = true ∧ crewError 24 2 20 = false := by decide +kernel

/-- The symbols of 1, 0, 0, 1 in 16-QAM and the level of 0, 1, 1, 0, 1 in 1024-QAM (chapter 5). -/
theorem test_constellations : symbolOf [true, false, false, true] = (-1, 3) ∧ level [false, true, true, false, true] = 25 := by decide

/-- DRVEN rises DRV_LEAD and TX_TRIM ahead: 15,300 ticks at a TX_TRIM of 300 and 16,200 at one of 1,200 (Table 4.3). -/
theorem test_driver_enable_lead : ({ (State.reset.line.port 5) with cfg := (State.reset.line.port 5).cfg.set 3 300 } : Port).riseAt 0 = -15300
    ∧ ({ (State.reset.line.port 6) with cfg := (State.reset.line.port 6).cfg.set 3 1200 } : Port).riseAt 0 = -16200 := by decide +kernel

/-- Table 4.6: beside MC017 at 1 MBd, MC018 at 6.8 MHz overlaps the notch at 1 MBd and fits at 250 kBd. -/
theorem test_placements_on_lp05 :
    let l := (Line.modPort 5 (fun q => { q with cfg := q.cfg.set 0 1, bands := [(1600000, 30000000)], notches := [(7000000, 7300000)] }) State.reset.line)
    let at_ (f : W32) (k : Nat) : Placement := { rxPort := 5, portSet := [5, 255, 255, 255, 255, 255, 255, 255], f := f, rateK := k }
    l.placementOk 17 (at_ 0x00C49BA6 2) = true ∧ l.placementOk 18 (at_ 0x012918B6 2) = false ∧ l.placementOk 18 (at_ 0x012918B6 4) = true := by decide +kernel

/-- Table 3.13: 200,000 ticks of lead slip the hamper by one stroke, to L = 17,400,000. -/
theorem test_slipped_launch :
    let s := node .headend
    let a : Action := { fact none 0 with spec := ⟨.stroke, true, 0, 0, 64, 2400000, 0⟩, refPort := 7, accepted := 962200000 }
    ((s.line.judgeAction a).2.map fun b => (b.launch - 960000000, b.slipped)) = some (17400000, 1) := by decide +kernel

/-- A packet of LENGTH 905 takes 29 slots of a ring, a reply of 150 takes 5 (chapter 13). -/
theorem test_ring_slots : slotsOf 905 = 29 ∧ slotsOf 150 = 5 := by decide

/-- Table 12.13: the last word again with UNDERRUN, EMPTY and PEND reads as 0x000E_4C9A, with PEND alone as 0x0002_4C9A. -/
theorem test_window_values : windowWord (0x4C9A, 2) = 0x00024C9A ∧ windowEmpty 0x4C9A 2 = 0x000E4C9A := by decide

/-- Table 14.1: ten bits at 9,600 Bd last 1,041.67 µs and at 115,200 Bd 86.8 µs. -/
theorem test_character_times : charTimes (0x183, 0x00061A80) 1 = 1562500 ∧ charTimes (0x183, 0x00008235) 1 = 130208 := by decide

/-- Table 9.7: with s_eff 19.8 dB the held step is 7, frames over a profile of 1.5 dB go at step 6, a wash drop gives 5 and 4. -/
theorem test_mode_ladder :
    let s := node .headend
    let e : LinkEntry := { entry with chan := 3, offset := 0, report := some ⟨0x189A, 0xEC33, 44, 0, 0⟩ }
    let washed : LinkEntry := { e with report := some ⟨0x189A, 0xEC33, 44, 4, 0⟩ }
    e.rawStep s.line 0 9 1015 = 7 ∧ e.rawStep s.line (3/2) 9 1015 = 6 ∧ washed.rawStep s.line 0 9 1015 = 5 ∧ washed.rawStep s.line (3/2) 9 1015 = 4 := by
  decide +kernel

/-- The lift rule gives Z = 96 at rate 3/4 and Z = 48 at rate 1/2 for 1,000 data bytes (chapter 9). -/
theorem test_lift_rule : liftRule 2 1015 = 2 ∧ liftRule 0 1015 = 1 := by decide

/-- Table 22.1, order 1: DEVICE_CONFIGURE sets node 0x0A31_0010 and NETWORK_ID 0x4D21. -/
theorem test_bring_up_identity : (let c := cmd [3, 0x0010, 0x0A31, 0x4D21]
    match exec (.deviceConfigure 0 c) (toL 3 c (up .config)) with
    | .next t => (t.line.nodeId, t.line.netId) | _ => (0, 0)) = (0x0A310010, 0x4D21) := by decide +kernel

/-- Table 22.1, order 8: MC018 gets RX_PORT 6 and no port set; ACCEPTED, and the epoch goes to 1 at the launch. -/
theorem test_bring_up_placement :
    let p : List W16 := [0, 0, 0, 0, 0, 18, 6, 0xFFFF, 0xFFFF, 0xFFFF, 0xFFFF, 0x9BA6, 0x00C4, 0x0002]
    (match exec (.channelPlace 0 (cmd p)) (toL 0x48 (cmd p) (onPort 6 (up .config))) with
    | .next t => t.line.sched.actions.map (fun a => a.tag) | _ => []) = [(cmd p).tag] := by decide +kernel

/-- Table 17.2: CU2 with DEST 0x0A31_0012 and SEQ 0x01C4 folded in computes the frame check of that string (R182, R438). -/
theorem test_frame_check_fold : frameCheck 0x0A310012 0x01C4 [1, 2] = BitVec.ofNat 32 (crc32c [0x0A, 0x31, 0x00, 0x12, 0x01, 0xC4, 1, 2]) := by decide +kernel

/-- The AES-128 and AES-256 example vectors of FIPS 197, Appendix C. -/
theorem test_aes_vectors :
    let p : List Byte := (List.range 16).map fun i => BitVec.ofNat 8 (0x11 * i)
    aesBlock (roundKeys ((List.range 16).map (BitVec.ofNat 8))) p =
        [0x69, 0xC4, 0xE0, 0xD8, 0x6A, 0x7B, 0x04, 0x30, 0xD8, 0xCD, 0xB7, 0x80, 0x70, 0xB4, 0xC5, 0x5A]
    ∧ aesBlock (roundKeys ((List.range 32).map (BitVec.ofNat 8))) p =
        [0x8E, 0xA2, 0xB7, 0xCA, 0x51, 0x67, 0x45, 0xBF, 0xEA, 0xFC, 0x49, 0x90, 0x4B, 0x49, 0x60, 0x89] := by decide +kernel

/-- GCM: the example of one zero block under a zero key (SP 800-38D's test case 2). -/
theorem test_gcm_vector :
    let key : List Byte := List.replicate 16 0
    let ct := cryptData .gcm key (List.replicate 12 0) 0 (List.replicate 16 0)
    ct = [0x03, 0x88, 0xDA, 0xCE, 0x60, 0xB6, 0xA3, 0x92, 0xF3, 0x28, 0xC2, 0xB9, 0x71, 0xB2, 0xFE, 0x78]
    ∧ cryptTag .gcm key (List.replicate 12 0) [] [] ct 16 =
        [0xAB, 0x6E, 0x47, 0xD4, 0x2C, 0xEC, 0x13, 0xBD, 0xF5, 0x3A, 0x67, 0xB2, 0x12, 0x57, 0xBD, 0xDF] := by decide +kernel

/-- CCM: example 3 of SP 800-38C. -/
theorem test_ccm_vector :
    let seq (a n : Nat) : List Byte := (List.range n).map fun i => BitVec.ofNat 8 (a + i)
    (cryptData .ccm (seq 0x40 16) (seq 0x10 12) 0 (seq 0x20 24)).take 8 = [0xE3, 0xB2, 0x01, 0xA9, 0xF5, 0xB7, 0x1A, 0x7A]
    ∧ cryptTag .ccm (seq 0x40 16) (seq 0x10 12) (seq 0 20) (seq 0x20 24) [] 8 = [0x48, 0x43, 0x92, 0xFB, 0xC1, 0xB0, 0x99, 0x51] := by decide +kernel

/-! ## Witnesses -/

theorem witness_StepRunsTheFrontCommand : ∃ (s : State), s.pending = [] :=
  ⟨State.reset, by decide +kernel⟩

theorem witness_StepKeepsMemoriesCanonical : ∃ (s : State) (t : State), canonical s ∧ step s = .next t :=
  ⟨State.reset, State.reset, ⟨by decide +kernel, rfl⟩⟩

theorem witness_MemoriesReadBackAndAreDeterminedByTheirReads :
    (∃ (m : Memory) (a : Nat) (b : Nat) (x : Byte), m.wf = true) ∧
    (∃ (m : Memory) (a n : Nat) (bs : List Byte), m.wf = true ∧ bs.length = n) ∧
    (∃ (m : Memory) (n : Memory), m.wf = true ∧ n.wf = true ∧ ((∀ a, m.read a = n.read a))) :=
  ⟨⟨[(4, 9)], 4, 5, 7, by decide +kernel⟩,
   ⟨[(4, 9)], 4, 2, [1, 2], by decide⟩,
   ⟨[(4, 9)], [(4, 9)], ⟨by decide, by decide, fun _ => rfl⟩⟩⟩

theorem witness_HostStatusCommandsReport :
    -- nop
    (∃ (dt : Nat) (cmd : Cmd) (s : State), ((if cmd.expect then cmd.params.dropLast else cmd.params).length ≤ 64)
      ∧ taken infoNop cmd (State.modeRef cmd (s.advance dt)) (s.advance dt) ∧ (fits cmd (if cmd.expect then cmd.params.dropLast else cmd.params).length (s.advance dt))) ∧
    -- identify
    (∃ (dt : Nat) (cmd : Cmd) (s : State), taken infoIdentify cmd (State.modeRef cmd (s.advance dt)) (s.advance dt) ∧ fits cmd 13 (s.advance dt)) ∧
    -- deviceStatus
    (∃ (dt : Nat) (cmd : Cmd) (s : State), taken infoDeviceStatus cmd (State.modeRef cmd (s.advance dt)) (s.advance dt) ∧ fits cmd 2 (s.advance dt)) ∧
    -- alarmStatus
    (∃ (dt : Nat) (cmd : Cmd) (s : State), taken infoAlarmStatus cmd (State.modeRef cmd (s.advance dt)) (s.advance dt) ∧ fits cmd 7 (s.advance dt)) ∧
    -- keySlotStatus
    (∃ (dt : Nat) (cmd : Cmd) (s : State), 1 ≤ cmd.word 4 ∧ cmd.word 3 + cmd.word 4 ≤ 64
      ∧ taken infoKeySlotStatus cmd (State.keyRef cmd (cmd.word 3) (s.advance dt)) (s.advance dt)
      ∧ (fits cmd (((s.host.keys.drop (cmd.word 3)).take (cmd.word 4)).flatMap fun k => [w (slotCode k.state), w k.len,
      k.epoch] ++ wordsOf 3 k.remaining).length (s.advance dt))) ∧
    -- cipherStatus
    (∃ (dt : Nat) (cmd : Cmd) (s : State), taken infoCipherStatus cmd (State.modeRef cmd (s.advance dt)) (s.advance dt)
      ∧ (fits cmd (counterWords (s.host.engines.flatMap fun g => g.ctrs)).length (s.advance dt))) ∧
    -- serialStatus
    (∃ (dt : Nat) (cmd : Cmd) (s : State), cmd.word 3 < 8 ∧ taken infoSerialStatus cmd (State.rxqRef cmd (cmd.word 3) (s.advance dt)) (s.advance dt)
      ∧ fits cmd (counterWords (wrapCtr (s.host.sp (cmd.word 3)).queueEpoch.toNat :: (s.host.sp (cmd.word 3)).ctrs)).length (s.advance dt)) ∧
    -- diagStatus
    (∃ (dt : Nat) (cmd : Cmd) (s : State), taken infoDiagStatus cmd (State.modeRef cmd (s.advance dt)) (s.advance dt)
      ∧ fits cmd (4 + (counterWords s.host.transport).length) (s.advance dt)) ∧
    -- barrierStatus
    (∃ (dt : Nat) (cmd : Cmd) (s : State), taken infoBarrierStatus cmd (State.modeRef cmd (s.advance dt)) (s.advance dt) ∧ fits cmd ([w (b2n (!s.link.host.up)),
      w s.link.laneBits] ++ counterWords ((s.advance dt).countMissed).link.ctrs).length (s.advance dt)) :=
  ⟨⟨0, cmd [1, 2], toH infoNop.opcode (cmd [1, 2]) (up .config), by decide +kernel⟩,
   ⟨0, cmd [], toH infoIdentify.opcode (cmd []) (up .config), by decide +kernel⟩,
   ⟨0, cmd [], toH infoDeviceStatus.opcode (cmd []) (up .config), by decide +kernel⟩,
   ⟨0, cmd [], toH infoAlarmStatus.opcode (cmd []) (up .quarantine), by decide +kernel⟩,
   ⟨0, cmd [62, 2], toH infoKeySlotStatus.opcode (cmd [62, 2]) (up .config), by decide +kernel⟩,
   ⟨0, { cmd [] with clr := true }, toH infoCipherStatus.opcode ({ cmd [] with clr := true }) (up .config), by decide +kernel⟩,
   ⟨0, { cmd [7] with clr := true }, toH infoSerialStatus.opcode ({ cmd [7] with clr := true }) (up .config), by decide +kernel⟩,
   ⟨0, { cmd [] with clr := true }, toH infoDiagStatus.opcode ({ cmd [] with clr := true }) (up .config), by decide +kernel⟩,
   ⟨0, { cmd [] with clr := true }, toH infoBarrierStatus.opcode ({ cmd [] with clr := true }) (up .config), by decide +kernel⟩⟩

theorem witness_HostCommandsAct :
    -- quarantineRelease
    (∃ (dt : Nat) (cmd : Cmd) (s : State), taken infoQuarantineRelease cmd (State.modeRef cmd (s.advance dt)) (s.advance dt)
      ∧ s.dev.alarmActive &&& s.dev.enabledSources = 0 ∧ fits cmd 1 (s.advance dt)) ∧
    -- rungSet
    (∃ (dt : Nat) (cmd : Cmd) (s : State) (r : Rung), taken infoRungSet cmd (State.modeRef cmd (s.advance dt)) (s.advance dt)
      ∧ rungOf (bitsOf (cmd.word 3) 0 3) = some r ∧ permits s.dev.mode r = true ∧ (s.advance dt).rungBusy r = false ∧ fits cmd 1 (s.advance dt)
      ∧ ((s.dev.rung ≠ .ashore ∨ s.headerKept = true))) ∧
    -- flashProgram
    (∃ (dt : Nat) (cmd : Cmd) (s : State), taken infoFlashProgram cmd (State.modeRef cmd (s.advance dt)) (s.advance dt) ∧ cmd.word 3 ≤ 2 ∧ s.host.flash.job = none
      ∧ fits cmd 0 (s.advance dt) ∧ (s.advance dt).blocked (cpMaster cmd.via) (cmd.value 4 2) (cmd.value 6 2) false = false) ∧
    -- reset
    (∃ (dt : Nat) (cmd : Cmd) (s : State), taken infoReset cmd (State.modeRef cmd (s.advance dt)) (s.advance dt) ∧ cmd.word 3 ≤ 2 ∧ fits cmd 0 (s.advance dt)) ∧
    -- keyErase
    (∃ (dt : Nat) (cmd : Cmd) (s : State), taken infoKeyErase cmd (State.keyRef cmd (firstNamed cmd) (s.advance dt)) (s.advance dt) ∧ fits cmd 1 (s.advance dt)) ∧
    -- cipherRun
    (∃ (dt : Nat) (cmd : Cmd) (s : State) (mode : CMode), taken infoCipherRun cmd (State.keyRef cmd (cmd.word 3) (s.advance dt)) (s.advance dt)
      ∧ cmodeOf (bitsOf (cmd.word 4) 12 4) = some mode ∧ cmd.word 3 < 64 ∧ (tagLengths mode).contains (bitsOf (cmd.word 4) 0 8) = true
      ∧ (s.host.key (cmd.word 3)).state = .loaded ∧ cmd.word 11 ≤ cmd.value 9 2
      ∧ ((bitOf (cmd.word 4) 11 = true → cmd.word 11 + bitsOf (cmd.word 4) 0 8 ≤ cmd.value 9 2)) ∧ fits cmd 0 (s.advance dt)) ∧
    -- alarmConfigure
    (∃ (dt : Nat) (cmd : Cmd) (s : State), taken infoAlarmConfigure cmd (State.modeRef cmd (s.advance dt)) (s.advance dt) ∧ 1 ≤ cmd.word 5 ∧ cmd.word 5 ≤ 10000
      ∧ fits cmd 0 (s.advance dt)) ∧
    -- serialRoute
    (∃ (dt : Nat) (cmd : Cmd) (s : State), taken infoSerialRoute cmd (State.rxqRef cmd (cmd.word 3) (s.advance dt)) (s.advance dt) ∧ 1 ≤ cmd.word 3
      ∧ cmd.word 3 ≤ 7 ∧ cmd.word 4 ≤ 1 ∧ sized s ∧ fits cmd 0 (s.advance dt)) ∧
    -- routeSet
    (∃ (dt : Nat) (cmd : Cmd) (s : State) (d : Dest), taken infoRouteSet cmd (State.queueRef cmd (cmd.word 3) (s.advance dt)) (s.advance dt) ∧ cmd.word 3 ≤ 1
      ∧ destOf (cmd.word 4) = some d ∧ ¬(cmd.word 3 = 1 ∧ d = .sp0) ∧ s.host.queues.length = 6 ∧ fits cmd 0 (s.advance dt)) :=
  ⟨⟨0, cmd [], toH infoQuarantineRelease.opcode (cmd []) (up .quarantine), by decide +kernel⟩,
   ⟨0, cmd [1, 3], toH infoRungSet.opcode (cmd [1, 3]) (up .config), .paddle, by decide +kernel⟩,
   ⟨0, cmd [2, 0, 0, 16, 0], toH infoFlashProgram.opcode (cmd [2, 0, 0, 16, 0]) (up .config), by decide +kernel⟩,
   ⟨0, cmd [2], toH infoReset.opcode (cmd [2]) (up .config), by decide +kernel⟩,
   ⟨0, cmd [0, 0, 0, 0x8000], toH infoKeyErase.opcode (cmd [0, 0, 0,
     0x8000]) (hs (HostSide.modKey 63 fun k => { k with state := .loaded, key := [1] }) (up .config)), by decide +kernel⟩,
   ⟨0, cmd [63, 0x1010, 0, 0, 0, 0, 64, 0, 8], toH infoCipherRun.opcode (cmd [63, 0x1010, 0, 0, 0, 0, 64, 0,
     8]) (hs (HostSide.modKey 63 fun k => { k with state := .loaded, key := List.replicate 16 1 }) (up .config)), .ccm, by decide +kernel⟩,
   ⟨0, cmd [15, 15, 10000], toH infoAlarmConfigure.opcode (cmd [15, 15, 10000]) (up .config), by decide +kernel⟩,
   ⟨0, cmd [7, 1], toH infoSerialRoute.opcode (cmd [7, 1]) (up .config), by decide +kernel⟩,
   ⟨0, cmd [0, 1, 0xC0A8, 1, 99], toH infoRouteSet.opcode (cmd [0, 1, 0xC0A8, 1, 99]) (up .config), .udp, by decide +kernel⟩⟩

theorem witness_ActionsAreScheduled :
    (∃ (dt : Nat) (cmd : Cmd) (s : State) (got : Accepted × BarrierEnd) (spec : LaunchSpec) (k : ActKind) (b : Action),
      (s.advance dt).arrived infoModeSet.opcode cmd = some got ∧ parseSpec cmd = some spec
      ∧ (((fun c => (modeOf (c.word 8 % 16)).map .modeSet) : Cmd → Option ActKind) cmd = some k) ∧ (((fun c s => ∀ m,
      modeOf (c.word 8 % 16) = some m → s.mayEnter m = true ∧ (needsNode m = false ∨ s.line.nodeId ≠ 0)) : Cmd → State → Prop) cmd s)
      ∧ ((s.advance dt).line.judgeAction (draft got.1 spec k (((fun _ _ => 0) : Cmd → State → Nat) cmd s) (s.advance dt)) = (.accepted, some b))
      ∧ fits cmd 5 (crossing got (s.advance dt))) ∧
    (∃ (dt : Nat) (cmd : Cmd) (s : State) (got : Accepted × BarrierEnd) (spec : LaunchSpec) (k : ActKind) (b : Action),
      (s.advance dt).arrived infoLineFirmwareUpdate.opcode cmd = some got ∧ parseSpec cmd = some spec
      ∧ (((fun c => some (.lineFirmware (c.value 8 2) (c.value 10 2))) : Cmd → Option ActKind) cmd = some k) ∧ (((fun _ _ => True) : Cmd → State → Prop) cmd s)
      ∧ ((s.advance dt).line.judgeAction (draft got.1 spec k (((fun _ _ => 0) : Cmd → State → Nat) cmd s) (s.advance dt)) = (.accepted, some b))
      ∧ fits cmd 5 (crossing got (s.advance dt))) ∧
    (∃ (dt : Nat) (cmd : Cmd) (s : State) (got : Accepted × BarrierEnd) (spec : LaunchSpec) (k : ActKind) (b : Action),
      (s.advance dt).arrived infoPortMute.opcode cmd = some got ∧ parseSpec cmd = some spec
      ∧ (((fun c => some (.mute (c.word 8) (c.word 9))) : Cmd → Option ActKind) cmd = some k) ∧ (((fun c _ => c.word 8 < 96
      ∧ c.word 9 ≤ 2) : Cmd → State → Prop) cmd s)
      ∧ ((s.advance dt).line.judgeAction (draft got.1 spec k (((fun c _ => c.word 8) : Cmd → State → Nat) cmd s) (s.advance dt)) = (.accepted, some b))
      ∧ fits cmd 5 (crossing got (s.advance dt))) ∧
    (∃ (dt : Nat) (cmd : Cmd) (s : State) (got : Accepted × BarrierEnd) (spec : LaunchSpec) (k : ActKind) (b : Action),
      (s.advance dt).arrived infoPortUnmute.opcode cmd = some got ∧ parseSpec cmd = some spec
      ∧ (((fun c => some (.unmute (c.word 8))) : Cmd → Option ActKind) cmd = some k) ∧ (((fun c _ => c.word 8 < 96) : Cmd → State → Prop) cmd s)
      ∧ ((s.advance dt).line.judgeAction (draft got.1 spec k (((fun c _ => c.word 8) : Cmd → State → Nat) cmd s) (s.advance dt)) = (.accepted, some b))
      ∧ fits cmd 5 (crossing got (s.advance dt))) ∧
    (∃ (dt : Nat) (cmd : Cmd) (s : State) (got : Accepted × BarrierEnd) (spec : LaunchSpec) (k : ActKind) (b : Action),
      (s.advance dt).arrived infoChannelPlace.opcode cmd = some got ∧ parseSpec cmd = some spec
      ∧ (((fun c => some (.place (c.word 8) (parsePlace c))) : Cmd → Option ActKind) cmd = some k) ∧ (((fun c s => c.word 8 < 256 ∧ ∀ p,
      parsePlace c = some p → p.legal = true ∧ s.line.placementOk (c.word 8) p = true) : Cmd → State → Prop) cmd s)
      ∧ ((s.advance dt).line.judgeAction (draft got.1 spec k (((fun c s => match (s.line.chan (c.word 8)).place with | some p => p.refPort | none => ((parsePlace c).map Placement.refPort).getD 0) : Cmd → State → Nat) cmd s) (s.advance dt)) = (.accepted, some b)) ∧ fits cmd 5 (crossing got (s.advance dt))) ∧
    (∃ (dt : Nat) (cmd : Cmd) (s : State) (got : Accepted × BarrierEnd) (spec : LaunchSpec) (k : ActKind) (b : Action),
      (s.advance dt).arrived infoChannelMode.opcode cmd = some got ∧ parseSpec cmd = some spec
      ∧ (((fun c => some (.chanMode (c.word 8) (c.value 9 3) (c.params.drop 9))) : Cmd → Option ActKind) cmd = some k) ∧ (((fun c s => c.word 8 < 256
      ∧ c.value 9 3 < 2 ^ 33 ∧ inRanges chanRanges (applySettings (c.value 9 3) 0 (c.params.drop 9) (s.line.chan (c.word 8)).cfg) = true
      ∧ nth (applySettings (c.value 9 3) 0 (c.params.drop 9) (s.line.chan (c.word 8)).cfg) 23 0 ≤ nth (applySettings (c.value 9 3) 0 (c.params.drop 9) (s.line.chan (c.word 8)).cfg) 24 0) : Cmd → State → Prop) cmd s) ∧ ((s.advance dt).line.judgeAction (draft got.1 spec k (((fun c s => (s.line.chan (c.word 8)).refPort) : Cmd → State → Nat) cmd s) (s.advance dt)) = (.accepted, some b)) ∧ fits cmd 5 (crossing got (s.advance dt))) ∧
    (∃ (l : Line) (a : Action) (t : Tick), l.launchOf a.kind.device a.spec a.refPort a.accepted (a.frames.map (·.desc)) = some t ∧ l.sched.actions.length < 8192
      ∧ t ≤ a.accepted + 90000000000 ∧ ((a.spec.form = .next ∨ a.accepted + 300000 ≤ t))) ∧
    (∃ (l : Line) (a : Action) (t : Tick), l.launchOf a.kind.device a.spec a.refPort a.accepted (a.frames.map (·.desc)) = some t ∧ l.sched.actions.length < 8192
      ∧ t < a.accepted + 300000 ∧ a.spec.form ≠ .next ∧ a.spec.slip = false) ∧
    (∃ (l : Line) (a : Action), 8192 ≤ l.sched.actions.length) :=
  ⟨⟨0, cmd [1, 0x4240, 15, 0, 0, 3], toL infoModeSet.opcode (cmd [1, 0x4240, 15, 0, 0, 3]) (ln (fun l => { l with nodeId := 5 }) (up .config)),
    gotOf infoModeSet.opcode (cmd [1, 0x4240, 15, 0, 0, 3]) (ln (fun l => { l with nodeId := 5 }) (up .config)), specOf (cmd [1, 0x4240, 15, 0, 0, 3]),
    .modeSet .headend, bOf infoModeSet (cmd [1, 0x4240, 15, 0, 0, 3]) (.modeSet .headend) 0 (up .config), by decide +kernel⟩,
   ⟨0, cmd [1, 0x4240, 15, 0, 0, 0, 0, 64, 0], toL infoLineFirmwareUpdate.opcode (cmd [1, 0x4240, 15, 0, 0, 0, 0, 64, 0]) (up .config),
     gotOf infoLineFirmwareUpdate.opcode (cmd [1, 0x4240, 15, 0, 0, 0, 0, 64, 0]) (up .config), specOf (cmd [1, 0x4240, 15, 0, 0, 0, 0, 64, 0]), .lineFirmware 0 64,
     bOf infoLineFirmwareUpdate (cmd [1, 0x4240, 15, 0, 0, 0, 0, 64, 0]) (.lineFirmware 0 64) 0 (up .config), by decide +kernel⟩,
   ⟨0, cmd [1, 0x4240, 15, 0, 0, 95, 2], toL infoPortMute.opcode (cmd [1, 0x4240, 15, 0, 0, 95, 2]) (up .config), gotOf infoPortMute.opcode (cmd [1, 0x4240, 15, 0,
     0, 95, 2]) (up .config), specOf (cmd [1, 0x4240, 15, 0, 0, 95, 2]), .mute 95 2, bOf infoPortMute (cmd [1, 0x4240, 15, 0, 0, 95,
     2]) (.mute 95 2) 95 (up .config), by decide +kernel⟩,
   ⟨0, cmd [1, 0x4240, 15, 0, 0, 95], toL infoPortUnmute.opcode (cmd [1, 0x4240, 15, 0, 0, 95]) (up .config), gotOf infoPortUnmute.opcode (cmd [1, 0x4240, 15, 0, 0,
     95]) (up .config), specOf (cmd [1, 0x4240, 15, 0, 0, 95]), .unmute 95, bOf infoPortUnmute (cmd [1, 0x4240, 15, 0, 0, 95]) (.unmute 95) 95 (up .config),
     by decide +kernel⟩,
   ⟨0, cmd [1, 0x4240, 15, 0, 0, 255, 255, 0xFF00, 0xFFFF, 0xFFFF, 0xFFFF, 0xCA00, 0x3B9A, 6], toL infoChannelPlace.opcode (cmd [1, 0x4240, 15, 0, 0, 255, 255,
     0xFF00, 0xFFFF, 0xFFFF, 0xFFFF, 0xCA00, 0x3B9A, 6]) (onPort 0 (up .config)), gotOf infoChannelPlace.opcode (cmd [1, 0x4240, 15, 0, 0, 255, 255, 0xFF00, 0xFFFF,
     0xFFFF, 0xFFFF, 0xCA00, 0x3B9A, 6]) (onPort 0 (up .config)), specOf (cmd [1, 0x4240, 15, 0, 0, 255, 255, 0xFF00, 0xFFFF, 0xFFFF, 0xFFFF, 0xCA00, 0x3B9A, 6]),
     .place 255 (parsePlace (cmd [1, 0x4240, 15, 0, 0, 255, 255, 0xFF00, 0xFFFF, 0xFFFF, 0xFFFF, 0xCA00, 0x3B9A, 6])), bOf infoChannelPlace (cmd [1, 0x4240, 15, 0,
     0, 255, 255, 0xFF00, 0xFFFF, 0xFFFF, 0xFFFF, 0xCA00, 0x3B9A, 6]) (.place 255 (parsePlace (cmd [1, 0x4240, 15, 0, 0, 255, 255, 0xFF00, 0xFFFF, 0xFFFF, 0xFFFF,
     0xCA00, 0x3B9A, 6]))) 0 (onPort 0 (up .config)), by decide +kernel⟩,
   ⟨0, cmd [1, 0x4240, 15, 0, 0, 3, 1, 0, 0, 16], toL infoChannelMode.opcode (cmd [1, 0x4240, 15, 0, 0, 3, 1, 0, 0, 16]) (placed 3 7 (up .config)),
     gotOf infoChannelMode.opcode (cmd [1, 0x4240, 15, 0, 0, 3, 1, 0, 0, 16]) (placed 3 7 (up .config)), specOf (cmd [1, 0x4240, 15, 0, 0, 3, 1, 0, 0, 16]),
     .chanMode 3 1 [16], bOf infoChannelMode (cmd [1, 0x4240, 15, 0, 0, 3, 1, 0, 0, 16]) (.chanMode 3 1 [16]) 7 (placed 3 7 (up .config)), by decide +kernel⟩,
   ⟨Line.reset, act (.unmute 0) 300000, 300000, by decide +kernel⟩,
   ⟨Line.reset, act (.unmute 0) 299999, 299999, by decide +kernel⟩,
   ⟨{ Line.reset with sched := { Line.reset.sched with actions := List.replicate 8192 (act (.unmute 0) 0) } }, act (.unmute 0) 300000, by decide +kernel⟩⟩

theorem witness_DeviceTimeAndSenseSettingsAreWritten :
    (∃ (dt : Nat) (cmd : Cmd) (s : State) (got : Accepted × BarrierEnd), takenL infoDeviceConfigure cmd (State.modeRefL cmd (s.advance dt)) got (s.advance dt)
      ∧ deviceRanges cmd = true ∧ fits cmd 0 (crossing got (s.advance dt))) ∧
    (∃ (dt : Nat) (cmd : Cmd) (s : State) (got : Accepted × BarrierEnd), takenL infoTimeConfigure cmd (State.timeRefL (s.advance dt)) got (s.advance dt)
      ∧ ((s.dev.mode = .config ∨ [2, 3, 4, 5, 8].any (bitOf (cmd.word 3)) = false)) ∧ ((∀ i,
      i < 16 → bitOf (cmd.word 3) i = true → timeRowOk i (nth (timeRows cmd) i 0) = true)) ∧ fits cmd 0 (crossing got (s.advance dt))) ∧
    (∃ (dt : Nat) (cmd : Cmd) (s : State) (got : Accepted × BarrierEnd), takenL infoPortTiming cmd (State.portRefL (cmd.word 3) (s.advance dt)) got (s.advance dt)
      ∧ (cmd.word 3) < 96 ∧ timingOk cmd = true ∧ sized s ∧ fits cmd 0 (crossing got (s.advance dt))) ∧
    (∃ (dt : Nat) (cmd : Cmd) (s : State) (got : Accepted × BarrierEnd), takenL infoSenseControl cmd (State.timeRefL (s.advance dt)) got (s.advance dt) ∧ sized s
      ∧ fits cmd 1 (crossing got (s.advance dt))) :=
  ⟨⟨0, cmd [31, 5, 0, 9, 5, 64, 6], toL infoDeviceConfigure.opcode (cmd [31, 5, 0, 9, 5, 64, 6]) (up .config), gotOf infoDeviceConfigure.opcode (cmd [31, 5, 0, 9,
    5, 64, 6]) (up .config), by decide +kernel⟩,
   ⟨0, cmd [2, 0, 0x4240, 15], toL infoTimeConfigure.opcode (cmd [2, 0, 0x4240, 15]) (up .config), gotOf infoTimeConfigure.opcode (cmd [2, 0, 0x4240,
     15]) (up .config), by decide +kernel⟩,
   ⟨0, cmd [95, 7, 2, 5, 0x1234], toL infoPortTiming.opcode (cmd [95, 7, 2, 5, 0x1234]) (up .config), gotOf infoPortTiming.opcode (cmd [95, 7, 2, 5,
     0x1234]) (up .config), by decide +kernel⟩,
   ⟨0, cmd [0x3F, 0x21], toL infoSenseControl.opcode (cmd [0x3F, 0x21]) (up .config), gotOf infoSenseControl.opcode (cmd [0x3F, 0x21]) (up .config), by decide +kernel⟩⟩

theorem witness_PortSettingsAreWritten :
    (∃ (dt : Nat) (cmd : Cmd) (s : State) (got : Accepted × BarrierEnd),
      takenL (infoPortConfigure (decide (changedRows ((s.line.port (cmd.word 3)).cfg) (maskedRows (bitsOf (cmd.word 4) 0 14) 5 cmd ((s.line.port (cmd.word 3)).cfg)) % 2 ^ 11 ≠ 0))) cmd (State.portRefL (cmd.word 3) (s.advance dt)) got (s.advance dt) ∧ (cmd.word 3) < 96 ∧ inRanges portRanges (maskedRows (bitsOf (cmd.word 4) 0 14) 5 cmd ((s.line.port (cmd.word 3)).cfg)) = true ∧ ¬(nth ((s.line.port (cmd.word 3)).cfg) 0 0 = 0 ∧ nth (maskedRows (bitsOf (cmd.word 4) 0 14) 5 cmd ((s.line.port (cmd.word 3)).cfg)) 0 0 = 1 ∧ s.dev.allowance ≤ s.line.enabled) ∧ ¬(nth ((s.line.port (cmd.word 3)).cfg) 0 0 = 1 ∧ nth (maskedRows (bitsOf (cmd.word 4) 0 14) 5 cmd ((s.line.port (cmd.word 3)).cfg)) 0 0 = 0 ∧ s.line.chans.any (Chan.uses (cmd.word 3)) = true) ∧ sized s ∧ fits cmd 0 (crossing got (s.advance dt))) ∧
    (∃ (dt : Nat) (cmd : Cmd) (s : State) (got : Accepted × BarrierEnd), takenL infoPortRearm cmd (State.portRefL (cmd.word 3) (s.advance dt)) got (s.advance dt)
      ∧ (cmd.word 3) < 96 ∧ (s.line.port (cmd.word 3)).fltSince = none ∧ (s.line.port (cmd.word 3)).overLimit = false ∧ sized s
      ∧ fits cmd 0 (crossing got (s.advance dt))) ∧
    (∃ (dt : Nat) (cmd : Cmd) (s : State) (got : Accepted × BarrierEnd), takenL infoPortMask cmd (State.portRefL (cmd.word 3) (s.advance dt)) got (s.advance dt)
      ∧ (cmd.word 3) < 96 ∧ cmd.word 4 % 16 ≤ 8 ∧ bitsOf (cmd.word 4) 8 5 ≤ 16 ∧ ((∀ x ∈ s.line.chans,
      x.failsMask (cmd.word 3) { s.line.port (cmd.word 3) with bands := (edgePairs cmd 5 (cmd.word 4 % 16)), notches := (edgePairs cmd (5 + 4 * (cmd.word 4 % 16)) (bitsOf (cmd.word 4) 8 5)) } = false)) ∧ sized s ∧ fits cmd 1 (crossing got (s.advance dt))) :=
  ⟨⟨0, cmd [95, 0x3FFF, 1, 3, 127, 4095, 4095, 500, 500, 1, 2000, 20000, 2000, 20000, 40, 10000], toL 0x040 (cmd [95, 0x3FFF, 1, 3, 127, 4095, 4095, 500, 500, 1,
    2000, 20000, 2000, 20000, 40, 10000]) (up .config), gotOf 0x040 (cmd [95, 0x3FFF, 1, 3, 127, 4095, 4095, 500, 500, 1, 2000, 20000, 2000, 20000, 40,
    10000]) (up .config), by decide +kernel⟩,
   ⟨0, cmd [95], toL infoPortRearm.opcode (cmd [95]) (ln (Line.modPort 95 fun q => { q with fault := true, cause := 1 }) (up .config)),
     gotOf infoPortRearm.opcode (cmd [95]) (ln (Line.modPort 95 fun q => { q with fault := true, cause := 1 }) (up .config)), by decide +kernel⟩,
   ⟨0, cmd [95, 0x101, 0xA120, 7, 0x4240, 15, 0x8480, 30, 0x1000, 31], toL infoPortMask.opcode (cmd [95, 0x101, 0xA120, 7, 0x4240, 15, 0x8480, 30, 0x1000,
     31]) (up .config), gotOf infoPortMask.opcode (cmd [95, 0x101, 0xA120, 7, 0x4240, 15, 0x8480, 30, 0x1000, 31]) (up .config), by decide +kernel⟩⟩

theorem witness_MapLoopbackAndMarchSettingsAreWritten :
    (∃ (dt : Nat) (cmd : Cmd) (s : State) (got : Accepted × BarrierEnd),
      takenL infoNoiseMapConfigure cmd (State.portRefL (cmd.word 3) (s.advance dt)) got (s.advance dt) ∧ (cmd.word 3) < 96
      ∧ ((nth (s.line.newMapRows cmd) 0 0 < 32 ∨ nth (s.line.newMapRows cmd) 0 0 = 0xFF)) ∧ nth (s.line.newMapRows cmd) 1 0 ≤ 599980000
      ∧ nth (s.line.newMapRows cmd) 1 0 % 1000 = 0 ∧ nth (s.line.newMapRows cmd) 2 0 ≤ 7 ∧ nth (s.line.newMapRows cmd) 3 0 ≤ 8
      ∧ ((nth (s.line.newMapRows cmd) 0 0 = 0xFF ∨ ∀ q, q < 96 → q ≠ (cmd.word 3) → (s.line.port q).mapSlot ≠ nth (s.line.newMapRows cmd) 0 0)) ∧ sized s
      ∧ fits cmd 0 (crossing got (s.advance dt))) ∧
    (∃ (dt : Nat) (cmd : Cmd) (s : State) (got : Accepted × BarrierEnd),
      takenL infoTestLoopback cmd (State.portRefL (cmd.word 3) (s.advance dt)) got (s.advance dt) ∧ (cmd.word 3) < 96 ∧ ((cmd.word 4 < 96 ∨ cmd.word 4 = 0xFF))
      ∧ sized s ∧ fits cmd 0 (crossing got (s.advance dt))) ∧
    (∃ (dt : Nat) (cmd : Cmd) (s : State) (got : Accepted × BarrierEnd), takenL infoMarchControl cmd (State.modeRefL cmd (s.advance dt)) got (s.advance dt)
      ∧ (cmd.word 8) ≤ 3 ∧ ((((cmd.word 8) = 0 ∨ (cmd.word 8) = 2) ∨ ((marchBanks cmd).contains 62 = false ∧ (marchBanks cmd).contains 63 = false))) ∧ sized s
      ∧ fits cmd 0 (crossing got (s.advance dt))) :=
  ⟨⟨0, cmd [95, 15, 31, 1000, 0, 7, 8], toL infoNoiseMapConfigure.opcode (cmd [95, 15, 31, 1000, 0, 7, 8]) (up .config),
    gotOf infoNoiseMapConfigure.opcode (cmd [95, 15, 31, 1000, 0, 7, 8]) (up .config), by decide +kernel⟩,
   ⟨0, cmd [0, 95], toL infoTestLoopback.opcode (cmd [0, 95]) (up .test), gotOf infoTestLoopback.opcode (cmd [0, 95]) (up .test), by decide +kernel⟩,
   ⟨0, cmd [0xFFFF, 0xFFFF, 0xFFFF, 0xFFFF, 15, 2], toL infoMarchControl.opcode (cmd [0xFFFF, 0xFFFF, 0xFFFF, 0xFFFF, 15, 2]) (up .config),
     gotOf infoMarchControl.opcode (cmd [0xFFFF, 0xFFFF, 0xFFFF, 0xFFFF, 15, 2]) (up .config), by decide +kernel⟩⟩

theorem witness_RelaySettingsAndTablesAreWritten :
    (∃ (dt : Nat) (cmd : Cmd) (s : State) (got : Accepted × BarrierEnd), takenL infoRelayConfigure cmd (State.modeRefL cmd (s.advance dt)) got (s.advance dt)
      ∧ relayRanges cmd = true ∧ sized s ∧ fits cmd 0 (crossing got (s.advance dt))) ∧
    (∃ (dt : Nat) (cmd : Cmd) (s : State) (got : Accepted × BarrierEnd), takenL infoFloodGroupSet cmd (State.modeRefL cmd (s.advance dt)) got (s.advance dt)
      ∧ (w (cmd.word 3)) ≠ 0 ∧ (((bitOf (cmd.word 4) 15) = true ∨ (floorOk (cmd.word 5) = true ∧ cmd.word 6 ≤ 40000)))
      ∧ (((bitOf (cmd.word 4) 15) = true ∨ s.line.relay.groups.any (fun x => x.id == (w (cmd.word 3))) = true ∨ s.line.relay.groups.length < 64))
      ∧ fits cmd 1 (crossing got (s.advance dt))) ∧
    (∃ (dt : Nat) (cmd : Cmd) (s : State) (got : Accepted × BarrierEnd),
      takenL infoRelayTableWrite cmd (State.relayRef cmd (s.line.writeIndex cmd) (s.advance dt)) got (s.advance dt) ∧ (cmd.word 6) ≤ 2
      ∧ (((cmd.word 6) = 0 → cmd.word 5 ≤ 254)) ∧ (((cmd.word 6) = 0 → s.line.hop? (BitVec.ofNat 32 (cmd.value 3 2)) = none → s.line.hopIndex ≠ none))
      ∧ fits cmd 1 (crossing got (s.advance dt))) :=
  ⟨⟨0, cmd [31, 0, 80, 0x5180, 1, 2, 255, 0], toL infoRelayConfigure.opcode (cmd [31, 0, 80, 0x5180, 1, 2, 255, 0]) (up .config),
    gotOf infoRelayConfigure.opcode (cmd [31, 0, 80, 0x5180, 1, 2, 255, 0]) (up .config), by decide +kernel⟩,
   ⟨0, cmd [5, 3, 0xFFEC, 40000], toL infoFloodGroupSet.opcode (cmd [5, 3, 0xFFEC, 40000]) (up .config), gotOf infoFloodGroupSet.opcode (cmd [5, 3, 0xFFEC,
     40000]) (up .config), by decide +kernel⟩,
   ⟨0, cmd [5, 0, 254, 0], toL infoRelayTableWrite.opcode (cmd [5, 0, 254, 0]) (up .config), gotOf infoRelayTableWrite.opcode (cmd [5, 0, 254, 0]) (up .config),
     by decide +kernel⟩⟩

theorem witness_LinkCommandsTimeSetAndCancelAct :
    (∃ (dt : Nat) (cmd : Cmd) (s : State) (got : Accepted × BarrierEnd) (e : LinkEntry),
      takenL infoLinkVerdict cmd (State.linkNamedRef cmd (s.advance dt)) got (s.advance dt)
      ∧ s.line.entry? (cmd.word 3) (BitVec.ofNat 32 (cmd.value 4 2)) = some e ∧ 1 ≤ cmd.word 6 ∧ cmd.word 6 ≤ 12 ∧ fits cmd 1 (crossing got (s.advance dt))) ∧
    (∃ (dt : Nat) (cmd : Cmd) (s : State) (got : Accepted × BarrierEnd) (e : LinkEntry),
      takenL infoLinkPin cmd (State.linkNamedRef cmd (s.advance dt)) got (s.advance dt) ∧ s.line.entry? (cmd.word 3) (BitVec.ofNat 32 (cmd.value 4 2)) = some e
      ∧ ((cmd.word 6 ≤ 12 ∨ cmd.word 6 = 0xFF)) ∧ fits cmd 1 (crossing got (s.advance dt))) ∧
    -- timeSet
    (∃ (dt : Nat) (cmd : Cmd) (s : State) (got : Accepted × BarrierEnd), (s.advance dt).arrived infoTimeSet.opcode cmd = some got
      ∧ epochDiffers cmd s.line.time.epoch = false) ∧
    (∃ (dt : Nat) (cmd : Cmd) (s : State) (got : Accepted × BarrierEnd), takenL infoActionCancel cmd (State.modeRefL cmd (s.advance dt)) got (s.advance dt)
      ∧ ((((s.line.sched.actions.filter fun a => a.tag == w (cmd.word 3)).filter fun a => !a.frames.any (·.launched) && a.deferred.isNone && decide ((got.1.at_) + 300000 ≤ a.launch)) ≠ [] ∨ (s.line.sched.actions.filter fun a => a.tag == w (cmd.word 3)) = [])) ∧ fits cmd 2 (crossing got (s.advance dt))) :=
  ⟨⟨0, cmd [0, 9, 0, 12], toL infoLinkVerdict.opcode (cmd [0, 9, 0, 12]) (linked entry (up .config)), gotOf infoLinkVerdict.opcode (cmd [0, 9, 0,
    12]) (linked entry (up .config)), entry, by decide +kernel⟩,
   ⟨0, cmd [0, 9, 0, 255], toL infoLinkPin.opcode (cmd [0, 9, 0, 255]) (linked entry (up .config)), gotOf infoLinkPin.opcode (cmd [0, 9, 0,
     255]) (linked entry (up .config)), entry, by decide +kernel⟩,
   ⟨0, cmd [1, 2, 3, 4], toL infoTimeSet.opcode (cmd [1, 2, 3, 4]) (up .config), gotOf infoTimeSet.opcode (cmd [1, 2, 3, 4]) (up .config), by decide +kernel⟩,
   ⟨0, cmd [7], toL infoActionCancel.opcode (cmd [7]) (waiting (act (.unmute 0) 300000) (up .config)),
     gotOf infoActionCancel.opcode (cmd [7]) (waiting (act (.unmute 0) 300000) (up .config)), by decide +kernel⟩⟩

theorem witness_TableAndMemoryReadsReport :
    (∃ (dt : Nat) (cmd : Cmd) (s : State) (got : Accepted × BarrierEnd),
      takenL infoNoiseMapRead cmd (State.portRefL (cmd.word 3) (s.advance dt)) got (s.advance dt) ∧ cmd.word 3 < 96 ∧ 1 ≤ cmd.word 5 * cmd.word 7
      ∧ cmd.word 5 * cmd.word 7 ≤ 1024 ∧ cmd.word 4 + cmd.word 5 ≤ 256 ∧ cmd.word 6 + cmd.word 7 ≤ 128
      ∧ (fits cmd (wordsOf 2 (s.line.port (cmd.word 3)).mapF0 ++ wordsOf 2 (nth binWidths (s.line.port (cmd.word 3)).mapBinw 5000000) ++ (List.range (cmd.word 5)).flatMap (fun i => (List.range (cmd.word 7)).map fun j => w ((s.advance dt).line.cellValue (cmd.word 3) (cmd.word 4 + i) (cmd.word 6 + j)))).length (crossing got (s.advance dt)))) ∧
    (∃ (dt : Nat) (cmd : Cmd) (s : State) (got : Accepted × BarrierEnd), takenL infoLinkTableRead cmd (State.linkReadRef cmd (s.advance dt)) got (s.advance dt)
      ∧ 1 ≤ cmd.word 4 ∧ cmd.word 4 ≤ 46
      ∧ (fits cmd (w (s.line.linkSlice cmd).length :: (s.line.linkSlice cmd).flatMap (fun e => w e.index :: e.words (s.advance dt).line)).length (crossing got (s.advance dt)))) ∧
    (∃ (dt : Nat) (cmd : Cmd) (s : State) (got : Accepted × BarrierEnd), takenL infoFloodGroupRead cmd (State.modeRefL cmd (s.advance dt)) got (s.advance dt)
      ∧ fits cmd (w s.line.relay.groups.length :: s.line.relay.groups.flatMap FloodGroup.words).length (crossing got (s.advance dt))) ∧
    (∃ (dt : Nat) (cmd : Cmd) (s : State) (got : Accepted × BarrierEnd), takenL infoRelayTableRead cmd (State.relayReadRef cmd (s.advance dt)) got (s.advance dt)
      ∧ 1 ≤ cmd.word 4 ∧ cmd.word 4 ≤ 118
      ∧ (fits cmd (w (s.line.hopSlice cmd).length :: (s.line.hopSlice cmd).flatMap fun e => w e.index :: e.words s.line.relay.epochs).length (crossing got (s.advance dt)))) ∧
    (∃ (dt : Nat) (cmd : Cmd) (s : State) (got : Accepted × BarrierEnd), takenL infoLineMemoryRead cmd (State.modeRefL cmd (s.advance dt)) got (s.advance dt)
      ∧ cmd.word 3 < 68 ∧ cmd.value 4 2 % 2 = 0 ∧ 1 ≤ cmd.word 6 ∧ cmd.word 6 ≤ 1024 ∧ cmd.value 4 2 + 2 * cmd.word 6 ≤ lineBankSize (cmd.word 3)
      ∧ fits cmd (byteWords ((s.advance dt).lbRead (lineBankAt (cmd.word 3) + cmd.value 4 2) (2 * cmd.word 6))).length (crossing got (s.advance dt))) :=
  ⟨⟨0, cmd [95, 255, 1, 127, 1], toL infoNoiseMapRead.opcode (cmd [95, 255, 1, 127, 1]) (up .config), gotOf infoNoiseMapRead.opcode (cmd [95, 255, 1, 127,
    1]) (up .config), by decide +kernel⟩,
   ⟨0, cmd [0, 46], toL infoLinkTableRead.opcode (cmd [0, 46]) (linked entry (up .config)), gotOf infoLinkTableRead.opcode (cmd [0,
     46]) (linked entry (up .config)), by decide +kernel⟩,
   ⟨0, cmd [], toL infoFloodGroupRead.opcode (cmd []) (ln (fun l => { l with relay := { l.relay with groups := [⟨5, true, false, -20, 100⟩] } }) (up .config)),
     gotOf infoFloodGroupRead.opcode (cmd []) (ln (fun l => { l with relay := { l.relay with groups := [⟨5, true, false, -20, 100⟩] } }) (up .config)),
     by decide +kernel⟩,
   ⟨0, cmd [7, 118], toL infoRelayTableRead.opcode (cmd [7,
     118]) (ln (fun l => { l with relay := { l.relay with hops := [{ index := 7, node := 5, hops := 1, static := true, updated := 0 }] } }) (up .config)),
     gotOf infoRelayTableRead.opcode (cmd [7,
     118]) (ln (fun l => { l with relay := { l.relay with hops := [{ index := 7, node := 5, hops := 1, static := true, updated := 0 }] } }) (up .config)),
     by decide +kernel⟩,
   ⟨0, cmd [67, 0, 0, 4], toL infoLineMemoryRead.opcode (cmd [67, 0, 0, 4]) ({ up .test with lbMem := [(0, 9)] }), gotOf infoLineMemoryRead.opcode (cmd [67, 0, 0,
     4]) ({ up .test with lbMem := [(0, 9)] }), by decide +kernel⟩⟩

theorem witness_LineStatusesReport :
    (∃ (dt : Nat) (cmd : Cmd) (s : State) (got : Accepted × BarrierEnd),
    let u := s.advance dt
    let c := crossing got u
    let x := s.line.time
    let words := [w x.source, w x.stratumNow, w (u.line.errorBound s.dev.mode)] ++ wordsOf 2 x.mainsFreq ++ [w x.ref,
      w x.senseBits] ++ wordsOf 2 ((x.cox.map fun c => c.1.toNat).getD 0) ++ [w ((x.cox.map (·.2)).getD 15)] ++ wordsOf 2 ((x.parent.map (·.toNat)).getD 0) ++ wordsOf 2 (((x.gridStroke u.line.clock.tb).map (·.toNat)).getD 0) ++ x.offsetWords ++ counterWords x.ctrs
    takenL infoTimeStatus cmd (State.timeRefL u) got u ∧ fits cmd words.length c) ∧
    (∃ (dt : Nat) (cmd : Cmd) (s : State) (got : Accepted × BarrierEnd), takenL infoScheduleStatus cmd (State.modeRefL cmd (s.advance dt)) got (s.advance dt)
      ∧ fits cmd ([w s.line.sched.actions.length,
      w s.line.relay.copies.length] ++ counterWords (s.line.sched.ctrs.take 4 ++ [⟨(satAdd 32 s.host.adjusted.val s.line.adjusted).val,
      (satAdd 32 s.host.adjusted.val s.line.adjusted).ovf || s.host.adjusted.ovf⟩] ++ s.line.sched.ctrs.drop 4)).length (crossing got (s.advance dt))) ∧
    (∃ (dt : Nat) (cmd : Cmd) (s : State) (got : Accepted × BarrierEnd), takenL infoRelayStatus cmd (State.modeRefL cmd (s.advance dt)) got (s.advance dt)
      ∧ fits cmd (counterWords ((s.line.relay).ctrs ++ (s.line.relay).drops ++ [(s.line.relay).hwm])).length (crossing got (s.advance dt))) ∧
    (∃ (dt : Nat) (cmd : Cmd) (s : State) (got : Accepted × BarrierEnd), takenL infoLineMemoryStatus cmd (State.modeRefL cmd (s.advance dt)) got (s.advance dt)
      ∧ (fits cmd ((List.range 68).map (fun b => w (lineOwner b * 256 + b2n (nth (s.line.mem).vital b false) * 2 + b2n (nth (s.line.mem).marked b false))) ++ counterWords ((s.line.mem).conflicts ++ (s.line.mem).writeLost ++ (s.line.mem).faults ++ [(s.line.mem).marchFails])).length (crossing got (s.advance dt)))) ∧
    (∃ (dt : Nat) (cmd : Cmd) (s : State) (got : Accepted × BarrierEnd), takenL infoPortStatus cmd (State.portRefL (cmd.word 3) (s.advance dt)) got (s.advance dt)
      ∧ (cmd.word 3) < 96 ∧ sized s ∧ fits cmd ((s.advance dt).line.portStatusWords (cmd.word 3)).length (crossing got (s.advance dt))) ∧
    (∃ (dt : Nat) (cmd : Cmd) (s : State) (got : Accepted × BarrierEnd),
      takenL infoChannelStatus cmd (State.chanRefL (cmd.word 3) (s.advance dt)) got (s.advance dt) ∧ cmd.word 3 < 256 ∧ sized s
      ∧ fits cmd (placeWords (s.line.chan (cmd.word 3)).place ++ (s.line.chan (cmd.word 3)).cfg.map w ++ [w (s.line.chan (cmd.word 3)).via] ++ counterWords (s.line.chan (cmd.word 3)).counters).length (crossing got (s.advance dt))) :=
  ⟨⟨0, { cmd [] with clr := true }, toL infoTimeStatus.opcode ({ cmd [] with clr := true }) (up .config),
    gotOf infoTimeStatus.opcode ({ cmd [] with clr := true }) (up .config), by dsimp only; decide +kernel⟩,
   ⟨0, { cmd [] with clr := true }, toL infoScheduleStatus.opcode ({ cmd [] with clr := true }) (up .config),
     gotOf infoScheduleStatus.opcode ({ cmd [] with clr := true }) (up .config), by decide +kernel⟩,
   ⟨0, { cmd [] with clr := true }, toL infoRelayStatus.opcode ({ cmd [] with clr := true }) (up .config),
     gotOf infoRelayStatus.opcode ({ cmd [] with clr := true }) (up .config), by decide +kernel⟩,
   ⟨0, { cmd [] with clr := true }, toL infoLineMemoryStatus.opcode ({ cmd [] with clr := true }) (up .config),
     gotOf infoLineMemoryStatus.opcode ({ cmd [] with clr := true }) (up .config), by decide +kernel⟩,
   ⟨0, { cmd [95] with clr := true }, toL infoPortStatus.opcode ({ cmd [95] with clr := true }) (up .config),
     gotOf infoPortStatus.opcode ({ cmd [95] with clr := true }) (up .config), by decide +kernel⟩,
   ⟨0, { cmd [255] with clr := true }, toL infoChannelStatus.opcode ({ cmd [255] with clr := true }) (up .config),
     gotOf infoChannelStatus.opcode ({ cmd [255] with clr := true }) (up .config), by decide +kernel⟩⟩

theorem witness_QueuesFollowTheirWindow :
    -- queueWindowRead
    (∃ (dt : Nat) (n : Nat) (s : State) (p : QPacket) (r : List QPacket) (e : W16 × BitVec 2) (es : List (W16 × BitVec 2)), reachable s ∧ sized s ∧ n < 6
      ∧ (s.host.queue n).waiting = [] ∧ (s.host.queue n).pkts = p :: r ∧ p.entries = e :: es) ∧
    -- queueWindowRead
    (∃ (dt : Nat) (n : Nat) (s : State), reachable s ∧ sized s ∧ n < 6 ∧ (s.host.queue n).waiting = [] ∧ (s.host.queue n).pkts = []) ∧
    -- stalledReadComplete
    (∃ (dt : Nat) (n : Nat) (s : State) (a : QAccess) (rest : List QAccess) (p : QPacket) (r : List QPacket) (e : W16 × BitVec 2) (es : List (W16 × BitVec 2)),
      reachable s ∧ sized s ∧ n < 6 ∧ (s.host.queue n).waiting = a :: rest ∧ (s.host.queue n).pkts = p :: r ∧ p.entries = e :: es ∧ (s.advance dt).host.foreign n = []) ∧
    -- stallLimitExpiry, queueWindowRead, queueLostRead, queueHwmRead
    (∃ (dt : Nat) (n : Nat) (s : State) (a : QAccess) (rest : List QAccess), reachable s ∧ sized s ∧ n < 6 ∧ (s.host.queue n).waiting = a :: rest) ∧
    -- queueLostRead, queueHwmRead
    (∃ (dt : Nat) (n : Nat) (s : State), reachable s ∧ sized s ∧ n < 6 ∧ (s.host.queue n).waiting = []) ∧
    -- queueReset
    (∃ (dt : Nat) (n : Nat) (s : State), reachable s ∧ sized s ∧ n < 6 ∧ (s.host.queue n).waiting.length ≤ 1) ∧
    -- queueHoldDrain
    (∃ (dt : Nat) (n : Nat) (s : State) (p : Packet) (r : List Packet), sized s ∧ n < 2 ∧ (s.host.queue n).hold = p :: r
      ∧ ((s.host.queue n).fits (if n = 0 then 64 else 0) p = true) ∧ (s.advance dt).host.lossFits n = true ∧ (s.host.queue n).dest = .pcie
      ∧ (s.advance dt).host.foreign 0 = [] ∧ (s.advance dt).host.foreign n = []) :=
  ⟨⟨0, 5, qu 5 (fun q => { q with pkts := [pk [1, 2], pk [3]] }) (up .config), pk [1, 2], [pk [3]], (1, 1), [(2, 1)], by decide +kernel⟩,
   ⟨0, 5, up .config, by decide +kernel⟩,
   ⟨0, 0, qu 0 (fun q => { q with pkts := [pk [1, 2]], waiting := [.read] }) (up .config), .read, [], pk [1, 2], [], (1, 1), [(2, 1)], by decide +kernel⟩,
   ⟨0, 5, at_ 100000000 (qu 5 (fun q => { q with waiting := [.read], stallEnd := 5 }) (up .config)), .read, [], by decide +kernel⟩,
   ⟨0, 5, up .config, by decide +kernel⟩,
   ⟨0, 5, qu 5 (fun q => { q with pkts := [pk [1, 2]], waiting := [.read] }) (up .config), by decide +kernel⟩,
   ⟨0, 1, qu 1 (fun q => { q with hold := [⟨[1, 2, 3], false, (0, 0)⟩] }) (up .config), ⟨[1, 2, 3], false, (0, 0)⟩, [], by decide +kernel⟩⟩

theorem witness_RingsMoveWholePackets :
    -- commandRingDoorbell
    (∃ (dt : Nat) (r : Nat) (prod : W32) (s : State), reachable s ∧ sized s ∧ r < 2 ∧ s.host.running = true
      ∧ ({ s.host.ring r with prod := prod } : Ring).enabled = true ∧ s.mayRequest = true ∧ s.host.reads r = true
      ∧ 3 ≤ ((nth (readSlots ({ s.host.ring r with prod := prod } : Ring) s.hostRam 1 ({ s.host.ring r with prod := prod } : Ring).cons.toNat) 2 0).toNat)
      ∧ ((nth (readSlots ({ s.host.ring r with prod := prod } : Ring) s.hostRam 1 ({ s.host.ring r with prod := prod } : Ring).cons.toNat) 2 0).toNat) ≤ 1024
      ∧ (prod - ({ s.host.ring r with prod := prod } : Ring).cons).toNat = slotsOf ((nth (readSlots ({ s.host.ring r with prod := prod } : Ring) s.hostRam 1 ({ s.host.ring r with prod := prod } : Ring).cons.toNat) 2 0).toNat) ∧ slotsOf ((nth (readSlots ({ s.host.ring r with prod := prod } : Ring) s.hostRam 1 ({ s.host.ring r with prod := prod } : Ring).cons.toNat) 2 0).toNat) ≤ ({ s.host.ring r with prod := prod } : Ring).size ∧ (opcodeTable.lookup (opcodeOf ((readSlots ({ s.host.ring r with prod := prod } : Ring) s.hostRam (slotsOf ((nth (readSlots ({ s.host.ring r with prod := prod } : Ring) s.hostRam 1 ({ s.host.ring r with prod := prod } : Ring).cons.toNat) 2 0).toNat)) ({ s.host.ring r with prod := prod } : Ring).cons.toNat).take ((nth (readSlots ({ s.host.ring r with prod := prod } : Ring) s.hostRam 1 ({ s.host.ring r with prod := prod } : Ring).cons.toNat) 2 0).toNat)))).isSome = true ∧ othersIdle r s) ∧
    -- commandRingDoorbell
    (∃ (dt : Nat) (r : Nat) (prod : W32) (s : State), reachable s ∧ sized s ∧ r < 2
      ∧ (((s.host.ring r).enabled = false ∨ s.mayRequest = false ∨ (prod - (s.host.ring r).cons).toNat > (s.host.ring r).size)) ∧ othersIdle r s) ∧
    -- commandRingDoorbell
    (∃ (dt : Nat) (r : Nat) (bit : Nat) (prod : W32) (s : State), reachable s ∧ sized s ∧ r < 2 ∧ s.mayRequest = true ∧ (s.host.ring r).enabled = true) ∧
    -- deviceRingWrite
    (∃ (dt : Nat) (r : Nat) (s : State) (p : QPacket) (rest : List QPacket), 2 ≤ r ∧ r < 6 ∧ sized s ∧ s.mayRequest = true
      ∧ (s.host.queue (ringQueue r)).dest = .pcie ∧ (s.host.queue (ringQueue r)).access = false ∧ (s.host.ring r).enabled = true
      ∧ (s.host.queue (ringQueue r)).whole = p :: rest ∧ ((s.host.ring r).prod - (s.host.ring r).cons).toNat + (slotsOf p.words.length) ≤ (s.host.ring r).size) ∧
    -- ringEnable
    (∃ (dt : Nat) (r : Nat) (v : W32) (s : State), reachable s ∧ sized s ∧ r < 6) ∧
    -- ringHoldoffEnd
    (∃ (dt : Nat) (r : Nat) (s : State), sized s ∧ r < 6 ∧ (s.host.ring r).owedCause = true ∧ (s.host.ring r).holdoffEnd ≤ (s.advance dt).host.follower) :=
  ⟨⟨0, 1, 1, { ringUp 1 (up .config) with hostRam := [(2, 7), (4, 3)] }, by decide +kernel⟩,
   ⟨0, 1, 0xFFFFFFFF, ringUp 1 (up .config), by decide +kernel⟩,
   ⟨0, 1, 14, 1, ringUp 1 (up .config), by decide +kernel⟩,
   ⟨0, 5, qu 1 (fun q => { q with pkts := [pk [1, 2, 3]] }) (ringUp 5 (up .config)), pk [1, 2, 3], [], by decide +kernel⟩,
   ⟨0, 5, 9, ringUp 5 (up .config), by decide +kernel⟩,
   ⟨0, 5, hs (HostSide.modRing 5 fun g => { g with owedCause := true }) (ringUp 5 (up .config)), by decide +kernel⟩⟩

theorem witness_HostRegistersActByTheirAccess :
    -- intCauseWrite
    (∃ (dt : Nat) (v : W32) (s : State), reachable s) ∧
    -- intMaskWrite
    (∃ (dt : Nat) (v : W32) (s : State), reachable s) ∧
    -- timeLoRead
    (∃ (dt : Nat) (s : State), reachable s) ∧
    -- memCdataRead
    (∃ (dt : Nat) (s : State) (c : Ctr), reachable s ∧ s.host.mem.selected = some c) ∧
    -- registerWrite
    (∃ (dt : Nat) (v : W32) (s : State), reachable s ∧ sized s) :=
  ⟨⟨0, 0xFFFFFFFF, up .config, by decide +kernel⟩,
   ⟨0, 0xFFFFFFFF, up .config, by decide +kernel⟩,
   ⟨0, up .config, by decide +kernel⟩,
   ⟨0, up .config, Ctr.zero, by decide +kernel⟩,
   ⟨0, 0x1F, up .config, by decide +kernel⟩⟩

theorem witness_DatagramsAndSerialFramesBecomeCommands :
    -- udpDatagramReceive
    (∃ (dt : Nat) (src : W32) (port : W16) (d : W16) (ws : List W16) (s : State), s.etherOn = true ∧ s.dev.rung = .row ∧ s.host.eth.ipv4 ≠ 0 ∧ s.host.full = false
      ∧ 3 ≤ ws.length ∧ ws.length ≤ 1024 ∧ (nth ws 2 0).toNat = ws.length ∧ (opcodeTable.lookup (opcodeOf ws)).isSome = true ∧ othersIdle 0 s ∧ othersIdle 1 s
      ∧ s.host.eth.used + (wordBytes ([0x0100, d] ++ ws ++ [w (crc16 (wordBytes ws))])).length + 28 ≤ 262144) ∧
    -- udpDatagramReceive
    (∃ (dt : Nat) (src : W32) (port : W16) (bytes : List Byte) (s : State), s.etherOn = true ∧ s.host.eth.ipv4 ≠ 0
      ∧ ((nth (byteWords bytes) 0 0 ≠ 0x0100 ∨ s.host.eth.used + bytes.length + 28 > 262144)) ∧ othersIdle 0 s ∧ othersIdle 1 s) ∧
    -- sp0FrameReceive
    (∃ (dt : Nat) (ws : List W16) (x : Tick) (rest : List (Byte × Tick)) (s : State), s.sp0On = true ∧ s.dev.rung = .row ∧ s.host.full = false ∧ 3 ≤ ws.length
      ∧ ws.length ≤ 1024 ∧ (nth ws 2 0).toNat = ws.length ∧ (opcodeTable.lookup (opcodeOf ws)).isSome = true
      ∧ sp0First s.host.sp0Buf = some ((escape ([0x00] ++ wordBytes (ws ++ [w (crc16 (wordBytes ws))]))), x, rest)) ∧
    -- sp0FrameReceive
    (∃ (dt : Nat) (bytes : List Byte) (x : Tick) (rest : List (Byte × Tick)) (s : State), s.sp0On = true ∧ sp0First s.host.sp0Buf = some (bytes, x, rest)
      ∧ sp0Packet bytes = none) :=
  ⟨⟨0, 9, 8, 1, [0, 7, 3], hs (fun h => { h with eth := { h.eth with ipv4 := 1 } }) (up .config), by decide +kernel⟩,
   ⟨0, 9, 8, [], hs (fun h => { h with eth := { h.eth with ipv4 := 1 } }) (up .config), by decide +kernel⟩,
   ⟨0, [0, 0x7E7D, 3], 7, [(0x7E, 7)], flagged (escape ([0x00] ++ wordBytes ([0, 0x7E7D, 3] ++ [w (crc16 (wordBytes [0, 0x7E7D, 3]))]))) (up .config), by decide +kernel⟩,
   ⟨0, [1], 7, [(0x7E, 7)], flagged [1] (up .config), by decide +kernel⟩⟩

theorem witness_EthernetI2cAndTestPortAct :
    -- ethFrameReceive
    (∃ (dt : Nat) (n : Nat) (sender : W32) (s : State), s.etherOn = true ∧ s.dev.rung = .row ∧ s.host.eth.ipv4 ≠ 0 ∧ n ≤ s.host.eth.mtu ∧ s.host.eth.buffered = []) ∧
    -- ethFrameReceive
    (∃ (dt : Nat) (n : Nat) (src : W32) (data : List Byte) (s : State), s.etherOn = true ∧ s.dev.rung = .row ∧ s.host.eth.ipv4 ≠ 0 ∧ n ≤ s.host.eth.mtu
      ∧ s.host.eth.buffered = []) ∧
    -- ethFrameReceive
    (∃ (dt : Nat) (n : Nat) (sender : W32) (s : State), s.etherOn = true ∧ s.dev.rung = .row ∧ s.host.eth.ipv4 ≠ 0 ∧ n ≤ s.host.eth.mtu ∧ s.host.eth.buffered = []) ∧
    -- ethFrameReceive
    (∃ (dt : Nat) (f : EthFrame) (s : State), ((f.tagged = true ∨ f.length > s.host.eth.mtu))) ∧
    -- arpRetry
    (∃ (dt : Nat) (s : State), s.etherOn = true ∧ s.host.eth.ipv4 ≠ 0) ∧
    -- ethLinkChange
    (∃ (dt : Nat) (up : Bool) (s : State), s.hostOn = true ∧ s.linksStopped = false ∧ s.host.eth.link ≠ up) ∧
    -- i2cWrite
    (∃ (dt : Nat) (n : Nat) (b : Byte) (data : List Byte) (s : State), s.dev.hostRails = true ∧ s.linksStopped = false ∧ b :: data ≠ [0x0A, 0xA5, 0x5A]) ∧
    -- i2cWrite
    (∃ (dt : Nat) (n : Nat) (s : State), s.dev.hostRails = true ∧ s.linksStopped = false) ∧
    -- i2cResetReq
    (∃ (dt : Nat) (s : State), s.hostOn = true ∧ s.linksStopped = false) ∧
    -- jtagInstruction
    (∃ (dt : Nat) (i : JtagInstr) (s : State), s.dev.hostRails = true) :=
  ⟨⟨0, 1500, 5, hs (fun h => { h with eth := { h.eth with ipv4 := 1 } }) (up .config), by decide +kernel⟩,
   ⟨0, 1500, 5, [1, 2], hs (fun h => { h with eth := { h.eth with ipv4 := 1 } }) (up .config), by decide +kernel⟩,
   ⟨0, 1500, 5, hs (fun h => { h with eth := { h.eth with ipv4 := 1, arp := [4] } }) (up .config), by decide +kernel⟩,
   ⟨0, { tagged := false, length := 1501, payload := .other }, up .config, by decide +kernel⟩,
   ⟨0, hs (HostSide.modQueue 0 fun q => { q with dest := .udp, destAddr := 9 }) (hs (fun h => { h with eth := { h.eth with ipv4 := 1, arp := [4] } }) (up .config)),
     by decide +kernel⟩,
   ⟨0, true, up .config, by decide +kernel⟩,
   ⟨0, 0, 0x0A, [0xA5, 0x5B], up .config, by decide +kernel⟩,
   ⟨0, 3, up .config, by decide +kernel⟩,
   ⟨0, up .config, by decide +kernel⟩,
   ⟨0, .extest, up .config, by decide +kernel⟩⟩

theorem witness_KeysAndCheckUnitsRunAsTheirRegistersSay :
    -- keyStagingWrite
    (∃ (dt : Nat) (n : Nat) (i : Nat) (v : W32) (s : State), reachable s ∧ sized s ∧ n < 64) ∧
    -- keyCommit
    (∃ (dt : Nat) (n : Nat) (v : W32) (s : State), reachable s ∧ sized s ∧ n < 64 ∧ bitsOf v.toNat 24 8 = 0xA5 ∧ s.dev.mode ≠ .quarantine ∧ (bitsOf v.toNat 0 2) ≠ 3) ∧
    -- keyCommit
    (∃ (dt : Nat) (n : Nat) (v : W32) (s : State), reachable s ∧ ((bitsOf v.toNat 24 8 ≠ 0xA5 ∨ s.dev.mode = .quarantine))) ∧
    -- cuGo
    (∃ (dt : Nat) (n : Nat) (v : W32) (s : State), reachable s ∧ sized s ∧ n < 8 ∧ v.getLsbD 31 = true ∧ v.getLsbD 30 = false) ∧
    -- cuRunDone
    (∃ (dt : Nat) (n : Nat) (s : State) (r : CuRun), sized s ∧ n < 8 ∧ (s.host.cu n).run = some r ∧ (s.advance dt).blocked (0x40 + n) r.src r.len false = false) ∧
    -- cuStatusRead
    (∃ (dt : Nat) (n : Nat) (s : State), reachable s ∧ sized s ∧ n < 8) :=
  ⟨⟨0, 63, 7, 5, up .config, by decide +kernel⟩,
   ⟨0, 63, 0xA5000002, up .config, by decide +kernel⟩,
   ⟨0, 63, 0xA4000000, up .config, by decide +kernel⟩,
   ⟨0, 7, 0x80001003, up .config, by decide +kernel⟩,
   ⟨0, 7, hs (HostSide.modCu 7 fun c => { c with run := some crun }) (up .config), crun, by decide +kernel⟩,
   ⟨0, 7, up .config, by decide +kernel⟩⟩

theorem witness_AbortStopsACheckRun :
    -- cuAbort
    (∃ (dt : Nat) (n : Nat) (s : State), reachable s ∧ sized s ∧ n < 8 ∧ (s.host.cu n).run ≠ none) ∧
    -- cuAbort
    (∃ (dt : Nat) (n : Nat) (s : State), reachable s ∧ sized s ∧ n < 8 ∧ (s.host.cu n).run = none) :=
  ⟨⟨0, 7, hs (HostSide.modCu 7 fun c => { c with run := some crun }) (up .config), by decide +kernel⟩,
   ⟨0, 7, up .config, by decide +kernel⟩⟩

theorem witness_CipherOperationsStartAndEnd :
    -- cipherOpStart
    (∃ (dt : Nat) (e : Nat) (s : State) (o : CipherOp), s.dev.rung = .row ∧ sized s ∧ e < 16 ∧ o.slot < 64 ∧ (s.host.engine e).active = none
      ∧ (s.host.engine e).suspended = none ∧ bestOp s.host.cipherQ = some o ∧ (s.host.key o.slot).state = .loaded) ∧
    -- cipherSuspend
    (∃ (dt : Nat) (e : Nat) (s : State) (o : CipherOp) (a : CipherOp), s.dev.rung = .row ∧ sized s ∧ e < 16 ∧ o.slot < 64 ∧ bestOp s.host.cipherQ = some o
      ∧ (s.host.key o.slot).state = .loaded ∧ (s.host.engine e).active = some a ∧ s.host.suspends e o.cls = true) ∧
    (∃ (l : List CipherOp) (o : CipherOp), bestOp l = some o) ∧
    -- cipherOpEnd
    (∃ (dt : Nat) (e : Nat) (s : State) (o : CipherOp), s.dev.rung = .row ∧ sized s ∧ e < 16 ∧ (s.advance dt).engineWaits e = false
      ∧ (s.host.engine e).active = some o ∧ o.origin = .run ∧ o.zeroing = false ∧ o.decrypt = false
      ∧ (((s.host.engine e).suspended.all fun b => b.erased.isNone || b.origin == .run) = true) ∧ o.released = 0 ∧ o.input = [] ∧ o.clobbers = false
      ∧ o.touched = false) ∧
    -- cipherOpEnd
    (∃ (dt : Nat) (e : Nat) (ac : Nat) (ix : Nat) (s : State) (o : CipherOp), s.dev.rung = .row ∧ sized s ∧ e < 16 ∧ (s.advance dt).engineWaits e = false
      ∧ (s.host.engine e).active = some o ∧ o.origin = .tx ac ix ∧ o.zeroing = false
      ∧ (((s.host.engine e).suspended.all fun b => b.erased.isNone || b.origin == .run) = true)) ∧
    -- cipherRelease
    (∃ (dt : Nat) (e : Nat) (s : State) (o : CipherOp), s.dev.rung = .row ∧ sized s ∧ e < 16 ∧ (s.advance dt).engineWaits e = false
      ∧ (s.host.engine e).active = some o ∧ o.origin = .run ∧ o.zeroing = false ∧ o.stream = true ∧ o.decrypt = true ∧ o.mode ≠ .ctr ∧ 0 < o.released
      ∧ o.released + 4096 < o.outLen ∧ o.clobbers = false ∧ o.touched = false) ∧
    -- cipherZeroingDone
    (∃ (dt : Nat) (e : Nat) (s : State) (o : CipherOp), s.dev.rung = .row ∧ sized s ∧ e < 16 ∧ (s.advance dt).engineWaits e = false
      ∧ (s.host.engine e).active = some o ∧ o.origin = .run ∧ o.zeroing = true ∧ s.hbMem.wf = true
      ∧ (((s.host.engine e).suspended.all fun b => b.erased.isNone || b.origin == .run) = true)) :=
  ⟨⟨0, 15, hs (fun h => { h with cipherQ := [op 16] }) (keyed 3 (up .config)), op 16, by decide +kernel⟩,
   ⟨0, 15, hs (fun h => { h with engines := h.engines.map (fun g => { g with active := some (op 64) }) }) (hs (fun h => { h with cipherQ := [{ op 16 with origin := .tx 0 0 }] }) (keyed 3 (up .config))), { op 16 with origin := .tx 0 0 }, op 64, by decide +kernel⟩,
   ⟨[op 16, { op 16 with origin := .tx 0 0 }], { op 16 with origin := .tx 0 0 }, by decide +kernel⟩,
   ⟨0, 15, busy 15 (op 20) (up .config), op 20, by decide +kernel⟩,
   ⟨0, 15, 4, 1, busy 15 { op 20 with origin := .tx 4 1, input := List.replicate 26 3 } (up .config),
     { op 20 with origin := .tx 4 1, input := List.replicate 26 3 }, by decide +kernel⟩,
   ⟨0, 15, busy 15 { op 9000 with decrypt := true, stream := true, released := 4096, dst := 16384, src := 32768 } (up .config),
     { op 9000 with decrypt := true, stream := true, released := 4096, dst := 16384, src := 32768 }, by decide +kernel⟩,
   ⟨0, 15, { busy 15 { op 20 with zeroing := true, written := 20 } (up .config) with hbMem := [(5, 1), (256, 9), (276, 4)] },
     { op 20 with zeroing := true, written := 20 }, by decide +kernel⟩⟩

theorem witness_BanksAndAccessesFollowTheOwner :
    -- bankHandover
    (∃ (dt : Nat) (n : Nat) (v : W32) (s : State), reachable s ∧ sized s ∧ n < 32) ∧
    -- marchFailedClear
    (∃ (dt : Nat) (n : Nat) (s : State), reachable s ∧ sized s ∧ n < 32) ∧
    -- bankOwner
    (∃ (dt : Nat) (n : Nat) (s : State) (hv : Handover), sized s ∧ n < 32 ∧ (s.host.bank n).handover = some hv) ∧
    -- bar2Access
    (∃ (dt : Nat) (ofs : Nat) (n : Nat) (s : State), reachable s ∧ ofs + n ≤ bar2Size ∧ 0 < n ∧ ofs % 16 + n ≤ 16
      ∧ (s.host.bank (ofs / 0x40000)).waits 0x20 (.read n) = false) ∧
    -- bar2Access
    (∃ (dt : Nat) (ofs : Nat) (bs : List (Option Byte)) (s : State), reachable s ∧ ofs + bs.length ≤ bar2Size ∧ bs ≠ [] ∧ ofs % 16 + bs.length ≤ 16
      ∧ (s.host.bank (ofs / 0x40000)).waits 0x20 (.write bs) = false) ∧
    -- bankAccess
    (∃ (dt : Nat) (q : BankReq) (bs : List (Option Byte)) (s : State), s.dev.rung = .row ∧ 128 ≤ q.bank ∧ q.bank < 160 ∧ q.access = .write bs ∧ bs ≠ []
      ∧ q.offset % 16 + bs.length ≤ 16 ∧ q.offset + bs.length ≤ 0x40000 ∧ (s.host.bank (q.bank - 128)).waits q.master q.access = false
      ∧ (s.host.bank (q.bank - 128)).serves (classOf q.master) true = true) ∧
    -- bankAccess
    (∃ (dt : Nat) (q : BankReq) (s : State) (hv : Handover), s.dev.rung = .row ∧ sized s ∧ 128 ≤ q.bank ∧ q.bank < 160
      ∧ (s.host.bank (q.bank - 128)).handover = some hv ∧ (s.host.bank (q.bank - 128)).waits q.master q.access = true ∧ 0 < accessSize q.access ∧ q.offset < 0x40000) ∧
    -- bar2Access
    (∃ (dt : Nat) (ofs : Nat) (acc : RowAccess) (s : State) (hv : Handover), reachable s ∧ sized s ∧ ofs < bar2Size ∧ 0 < accessSize acc
      ∧ (s.host.bank (ofs / 0x40000)).handover = some hv ∧ (s.host.bank (ofs / 0x40000)).waits 0x20 acc = true) ∧
    -- bankAccess
    (∃ (dt : Nat) (n : Nat) (q : BankReq) (s : State), s.dev.rung = .row ∧ q.bank < 68 ∧ q.access = .read n ∧ q.portA = none ∧ 0 < n ∧ q.offset % 16 + n ≤ 16
      ∧ lineServes q.bank q.master false = true) :=
  ⟨⟨0, 31, 0x1105, up .config, by decide +kernel⟩,
   ⟨0, 31, hs (HostSide.modBank 31 fun b => { b with failed := true }) (up .config), by decide +kernel⟩,
   ⟨0, 31, hs (HostSide.modBank 31 fun b => { b with handover := some ⟨3, 5, 0, []⟩ }) (up .config), ⟨3, 5, 0, []⟩, by decide +kernel⟩,
   ⟨0, 0, 16, up .config, by decide +kernel⟩,
   ⟨0, 0, [some 1, none], up .config, by decide +kernel⟩,
   ⟨0, ⟨0x20, 128, 0x3FFF0, .write [some 1, none], none⟩, [some 1, none], up .config, by decide +kernel⟩,
   ⟨0, ⟨0x24, 159, 0, .write [some 7], none⟩, hs (HostSide.modBank 31 fun b => { b with handover := some ⟨3, 5, 0, []⟩ }) (up .config), ⟨3, 5, 0, []⟩, by decide +kernel⟩,
   ⟨0, 0x7C0000, .write [some 7, none], hs (HostSide.modBank 31 fun b => { b with owner := 0x10, handover := some ⟨3, 5, 0, []⟩ }) (up .config), ⟨3, 5, 0, []⟩,
     by decide +kernel⟩,
   ⟨0, 16, ⟨0, 67, 0, .read 16, none⟩, { up .config with lbMem := [(lineBankAt 67 + 1, 5)] }, by decide +kernel⟩⟩

theorem witness_TheMarchTestRestoresItsGroup :
    -- marchBorrow
    (∃ (dt : Nat) (s : State) (m : March), s.dev.rung = .row ∧ s.hostOn = true
      ∧ (s.host.mem.march.next (fun (b : Nat) => (s.host.bank b).march && !(s.host.bank b).vital && !(s.host.bank b).failed) 32 = some m)) ∧
    -- marchBorrow
    (∃ (dt : Nat) (s : State) (m : March), s.dev.rung = .row ∧ s.dev.lineRails = true ∧ s.dev.lineReset = false
      ∧ (s.line.mem.march.next (fun (b : Nat) => nth s.line.mem.marked b false && !nth s.line.mem.vital b false) 68 = some m)) ∧
    -- marchBorrow
    (∃ (dt : Nat) (die : Die) (f : Option MarchFault) (s : State), s.dev.rung ≠ .row) :=
  ⟨⟨0, hs (HostSide.modBank 31 fun b => { b with march := true }) (up .config), ⟨31, 0, false, none⟩, by decide +kernel⟩,
   ⟨0, ln (Line.modMem fun m => { m with marked := m.marked.set 67 true }) (up .config), ⟨67, 0, false, none⟩, by decide +kernel⟩,
   ⟨0, .host, none, dv (fun d => { d with rung := .paddle }) (up .config), by decide +kernel⟩⟩

theorem witness_SuppliesPinsAndWatchdogsReset :
    -- diePowered
    (∃ (dt : Nat) (s : State), s.dev.hostRails = false) ∧
    -- diePowered
    (∃ (dt : Nat) (s : State), s.dev.lineRails = false) ∧
    -- railOutOfRange
    (∃ (dt : Nat) (s : State), s.dev.hostRails = true) ∧
    -- railOutOfRange
    (∃ (dt : Nat) (s : State), s.dev.lineRails = true) ∧
    -- resetN
    (∃ (dt : Nat) (s : State), s.hostOn = true) ∧
    -- resetNRelease
    (∃ (dt : Nat) (s : State), s.dev.resetPin = false) ∧
    -- resetPattern
    (∃ (dt : Nat) (c : Nat) (s : State), s.dev.lineRails = true ∧ s.link.line.lanes.any id = true ∧ s.dev.pattern = some c) ∧
    -- perstN
    (∃ (dt : Nat) (s : State), s.hostOn = true) ∧
    -- hostWatchdog
    (∃ (dt : Nat) (s : State), s.hostOn = true ∧ s.host.running = true) ∧
    -- lineWatchdog
    (∃ (dt : Nat) (s : State), s.dev.lineRails = true ∧ s.dev.lineReset = false ∧ s.line.running = true) :=
  ⟨⟨0, dv (fun d => { d with hostRails := false }) (up .config), by decide +kernel⟩,
   ⟨0, dv (fun d => { d with lineRails := false }) (up .config), by decide +kernel⟩,
   ⟨0, keyed 3 { up .config with hbMem := [(3, 4)] }, by decide +kernel⟩,
   ⟨0, placed 3 7 (up .config), by decide +kernel⟩,
   ⟨0, keyed 3 (up .headend), by decide +kernel⟩,
   ⟨0, dv (fun d => { d with resetPin := false, lineReset := true, pattern := some 2 }) (up .boot), by decide +kernel⟩,
   ⟨0, 7, dv (fun d => { d with pattern := some 7 }) (placed 3 7 (up .config)), by decide +kernel⟩,
   ⟨0, ringUp 3 (up .config), by decide +kernel⟩,
   ⟨0, keyed 3 (up .headend), by decide +kernel⟩,
   ⟨0, placed 3 7 (up .headend), by decide +kernel⟩⟩

theorem witness_BootWakeAndFlashEnd :
    -- hostFirmwareCheck
    (∃ (dt : Nat) (s : State), s.hostOn = true ∧ s.host.running = false) ∧
    -- lineImageLoaded
    (∃ (dt : Nat) (i : Nat) (s : State), s.link.host.up = true ∧ s.link.line.up = true ∧ s.dev.lineRails = true ∧ s.dev.lineReset = false ∧ s.line.running = false
      ∧ s.host.flash.used 1 = some i) ∧
    -- lineReady
    (∃ (dt : Nat) (s : State), s.line.running = true ∧ s.line.ready = false) ∧
    -- lineNotReady
    (∃ (dt : Nat) (s : State) (d : Tick), s.dev.bootDeadline = some d ∧ d ≤ (s.advance dt).host.follower ∧ s.host.running = true ∧ s.linePresent = false) ∧
    -- rungWake
    (∃ (dt : Nat) (src : Nat) (s : State), s.hostOn = true ∧ s.host.running = true ∧ s.dev.rung ≠ .row ∧ ((s.dev.exit ≠ none ∨ s.mayWake src = true))
      ∧ ((s.dev.rung ≠ .ashore ∨ s.headerKept = true))) ∧
    -- flashDone
    (∃ (dt : Nat) (s : State) (j : FlashJob), s.host.flash.job = some j) :=
  ⟨⟨0, State.reset, by decide +kernel⟩,
   ⟨0, 1, ln (fun l => { l with running := false }) (hs (fun h => { h with flash := { h.flash with inUse := [none, some 1, none] } }) (up .config)), by decide +kernel⟩,
   ⟨0, ln (fun l => { l with ready := false }) (up .boot), by decide +kernel⟩,
   ⟨0, dv (fun d => { d with bootDeadline := some 5 }) (at_ 5 (ln (fun l => { l with ready := false }) (up .boot))), 5, by decide +kernel⟩,
   ⟨0, 16, dv (fun d => { d with rung := .moored }) (up .config), by decide +kernel⟩,
   ⟨0, hs (fun h => { h with flash := { h.flash with job := some ⟨7, .ring0, 2, false, ⟨[], []⟩⟩ } }) (up .config), ⟨7, .ring0, 2, false, ⟨[], []⟩⟩, by decide +kernel⟩⟩

theorem witness_AlarmsEraseKeysAndQuarantine :
    -- alarmRaised
    (∃ (dt : Nat) (i : Nat) (s : State), s.hostOn = true ∧ sized s ∧ i < 8 ∧ i ≠ 6 ∧ (s.advance dt).sourceFires i = true ∧ s.dev.alarmActive.getLsbD i = false) ∧
    -- alarmSourceInactive
    (∃ (dt : Nat) (i : Nat) (s : State), i < 8) ∧
    -- lineAlarmDetected
    (∃ (dt : Nat) (s : State), s.dev.lineRails = true ∧ s.dev.lineReset = false ∧ s.dev.lineAlarm = false) ∧
    -- alarmMessageReceive
    (∃ (dt : Nat) (s : State) (r : List Msg), s.link.line.inbox = .alarm :: r) :=
  ⟨⟨0, 4, keyed 3 (up .headend), by decide +kernel⟩,
   ⟨0, 7, dv (fun d => { d with alarmActive := 0xFF, alarmLatched := 0xFF }) (up .quarantine), by decide +kernel⟩,
   ⟨0, up .headend, by decide +kernel⟩,
   ⟨0, lineInbox [.alarm, .alarm] (waiting (act (.unmute 0) 300000) (up .headend)), [.alarm], by decide +kernel⟩⟩

theorem witness_HeartbeatsLanesAndMarginsAreWatched :
    -- heartbeatSend
    (∃ (dt : Nat) (die : Die) (s : State), s.alive die = true ∧ s.link.suspended = false) ∧
    -- heartbeatReceive
    (∃ (dt : Nat) (die : Die) (s : State), s.alive die = true ∧ s.link.suspended = false ∧ (s.link.endOf (otherDie die)).beat = true
      ∧ (s.link.endOf die).lanes.any id = true ∧ (s.link.endOf die).up = true ∧ (s.link.endOf die).bootHeard = s.bootOf (otherDie die)) ∧
    -- heartbeatReceive
    (∃ (dt : Nat) (die : Die) (s : State), s.alive die = true ∧ s.link.suspended = false ∧ (s.link.endOf (otherDie die)).beat = true
      ∧ (s.link.endOf die).lanes.any id = true) ∧
    -- heartbeatTimeout
    (∃ (dt : Nat) (s : State), s.link.suspended = false ∧ s.link.line.up = true ∧ 45000 ≤ (s.advance dt).line.clock.tb - s.link.line.lastValid) ∧
    -- heartbeatTimeout
    (∃ (dt : Nat) (s : State), s.link.suspended = false ∧ s.link.host.up = true ∧ 45000 ≤ (s.advance dt).host.follower - s.link.host.lastValid) ∧
    -- timingLaneFail
    (∃ (dt : Nat) (s : State), s.link.timingUp = true) ∧
    -- timingLaneMeasure
    (∃ (dt : Nat) (delay : Nat) (s : State), s.link.host.up = true ∧ s.link.line.up = true) ∧
    -- barrierNoteClose
    (∃ (dt : Nat) (s : State) (d : Tick), s.host.downAt = some d ∧ 1500000000 ≤ (s.advance dt).host.follower - d) ∧
    -- marginMeasure
    (∃ (dt : Nat) (m : W16) (s : State), s.host.running = true ∧ m.toNat < 295 ∧ s.host.marginLow = false) ∧
    -- marginMeasure
    (∃ (dt : Nat) (m : W16) (s : State), s.line.running = true ∧ 308 ≤ m.toNat ∧ s.line.marginOwed = false ∧ s.host.marginOwed = false) ∧
    -- marginMeasure
    (∃ (dt : Nat) (m : W16) (s : State) (a : Tick) (b : Tick), s.line.running = true ∧ 308 ≤ m.toNat ∧ (s.line.marginOwed = true ∨ s.host.marginOwed = true)
      ∧ s.line.marginOkFrom = some a ∧ 15000000 ≤ (s.advance dt).line.clock.tb - a ∧ s.host.marginOkFrom = some b ∧ 15000000 ≤ (s.advance dt).host.follower - b) :=
  ⟨⟨0, .host, up .config, by decide +kernel⟩,
   ⟨0, .host, lk (fun k => { k with line := { k.line with beat := true } }) (up .config), by decide +kernel⟩,
   ⟨0, .host, lk (fun k => { k with line := { k.line with beat := true } }) (up .config), by decide +kernel⟩,
   ⟨0, at_ 45000 (placed 3 7 (up .headend)), by decide +kernel⟩,
   ⟨0, at_ 45000 (up .headend), by decide +kernel⟩,
   ⟨0, up .headend, by decide +kernel⟩,
   ⟨0, 77, lk (fun k => { k with timingUp := false }) (up .headend), by decide +kernel⟩,
   ⟨0, at_ 1500000005 (hs (fun h => { h with downAt := some 5, notes := [(act (.unmute 0) 5).note] }) (up .safe)), 5, by decide +kernel⟩,
   ⟨0, 294, up .headend, by decide +kernel⟩,
   ⟨0, 308, up .headend, by decide +kernel⟩,
   ⟨0, 308, at_ 15000005 (ln (fun l => { l with marginOwed := true, marginLow := true, marginOkFrom := some 5 }) (hs (fun h => { h with marginOkFrom := some 4 }) (up .headend))), 5, 4, by decide +kernel⟩⟩

theorem witness_BarrierMessagesArriveInSequence :
    -- barrierMessageReceive
    (∃ (dt : Nat) (lane : Nat) (die : Die) (s : State) (m : InFlight) (r : List InFlight), s.alive die = true ∧ s.link.suspended = false
      ∧ nth (s.link.endOf die).lanes lane false = true ∧ (s.link.endOf die).up = true ∧ (s.link.endOf (otherDie die)).up = true
      ∧ (s.link.endOf (otherDie die)).flight = m :: r ∧ (r.all (fun x => !x.received) = true) ∧ ((∀ c, m.msg ≠ .lineReset c)) ∧ m.msg.internal = false) ∧
    -- barrierMessageReceive
    (∃ (dt : Nat) (lane : Nat) (a : Nat) (i : Nat) (c : Nat) (cause : Nat) (s : State) (m : InFlight) (r : List InFlight), s.alive .line = true
      ∧ s.link.suspended = false ∧ nth (s.link.line).lanes lane false = true ∧ (s.link.line).up = true ∧ s.link.host.up = true ∧ s.link.host.flight = m :: r
      ∧ (r.all (fun x => !x.received) = true) ∧ c < 256 ∧ sized s) ∧
    -- barrierMessageReceive
    (∃ (dt : Nat) (lane : Nat) (die : Die) (seq : W16) (s : State), s.alive die = true ∧ s.link.suspended = false ∧ nth (s.link.endOf die).lanes lane false = true
      ∧ nth (s.link.endOf die).fails lane 0 < 15) ∧
    -- retryTimeout
    (∃ (dt : Nat) (die : Die) (seq : W16) (s : State) (m : InFlight), (s.link.endOf die).flight[(seq - (s.link.endOf die).seq).toNat]? = some m
      ∧ m.received = false ∧ (s.link.endOf die).up = true ∧ s.link.suspended = false ∧ 3000 ≤ ((s.advance dt).clockOf die) - m.sent) ∧
    -- laneRetrain
    (∃ (dt : Nat) (lane : Nat) (good : Nat) (die : Die) (s : State), lane < (s.link.endOf die).lanes.length ∧ nth (s.link.endOf die).lanes lane true = false
      ∧ 16 ≤ good ∧ s.alive die = true) :=
  ⟨⟨0, 3, .host, lk (fun k => { k with line := { k.line with flight := [fly .alarm, fly .alarm] } }) (up .config), fly .alarm, [fly .alarm], ⟨by decide +kernel,
    by decide +kernel, by decide +kernel, by decide +kernel, by decide +kernel, by decide +kernel, by decide +kernel, ⟨fun _ h => (nomatch h), by decide +kernel⟩⟩⟩,
   ⟨0, 3, 0, 0, 3, 4,
     lk (fun k => { k with host := { k.host with flight := [fly (.frameGone 0 0 3 4)] } }) (waiting (fact none 3000000) (placed 3 7 (up .headend))),
     fly (.frameGone 0 0 3 4), [], by decide +kernel⟩,
   ⟨0, 3, .line, 5, lk (fun k => { k with line := { k.line with fails := [0, 0, 0, 14] } }) (up .config), by decide +kernel⟩,
   ⟨0, .host, 0, lk (fun k => { k with host := { k.host with flight := [fly .alarm] } }) (at_ 3000 (up .config)), fly .alarm, by decide +kernel⟩,
   ⟨0, 3, 16, .line, lk (fun k => { k with line := { k.line with lanes := [true, true, true, false], fails := [0, 0, 0, 15] } }) (up .config), by decide +kernel⟩⟩

theorem witness_RecordsThatCrossEnterTheirQueue :
    -- frameUpReceive
    (∃ (dt : Nat) (s : State) (f : FrameUp) (r : List Msg), s.link.host.inbox = .frameUp f :: r ∧ f.kind = 1 ∧ f.sec = false ∧ s.host.cutOf f.chan f.rxId = none
      ∧ s.host.rxHeld f.chan = false ∧ sized s ∧ (s.host.queue 1).hold = [] ∧ (s.host.queue 1).fits 0 f.packet = true ∧ (s.host.queue 1).dest = .pcie
      ∧ (s.advance dt).host.foreign 1 = []) ∧
    -- eventMessageReceive
    (∃ (dt : Nat) (s : State) (p : Packet) (r : List Msg), s.link.host.inbox = .event p none :: r ∧ p.source ≠ 0x8000 ∧ sized s ∧ (s.host.queue 0).hold = []
      ∧ (s.host.queue 0).fits 64 p = true ∧ (s.host.queue 0).dest = .pcie ∧ (s.advance dt).host.foreign 0 = []) ∧
    -- eventMessageReceive
    (∃ (dt : Nat) (s : State) (p : Packet) (r : List Msg), s.link.host.inbox = .event p none :: r ∧ p.source = 0x8000 ∧ sized s ∧ (s.host.queue 0).hold = []
      ∧ (s.host.queue 0).fits 64 ((s.advance dt).host.restamp 0x8000 ((s.advance dt).hostTime (p.instant (s.advance dt).line.clock.tb)) p).1 = true
      ∧ (s.host.queue 0).dest = .pcie ∧ (s.advance dt).host.foreign 0 = []) ∧
    -- eventMessageReceive
    (∃ (dt : Nat) (a : Nat) (i : Nat) (s : State) (p : Packet) (r : List Msg) (n : Note), s.link.host.inbox = .event p (some (a, i)) :: r ∧ p.source ≠ 0x8000
      ∧ sized s ∧ (s.host.notes.find? (fun n => n.action == a && n.index == i) = some n) ∧ (s.host.queue 0).hold = [] ∧ (s.host.queue 0).fits 64 p = true
      ∧ (s.host.queue 0).dest = .pcie ∧ (s.advance dt).host.foreign 0 = []) ∧
    -- replyLineReceive
    (∃ (dt : Nat) (s : State) (x : LineReply) (r : List Msg) (a : Accepted), s.link.host.inbox = .replyLine x :: r ∧ sized s ∧ x.via = .ring0
      ∧ (s.host.queue 2).hold = [] ∧ (s.host.queue 2).fits 0 (.plain x.words) = true ∧ (s.advance dt).host.foreign 2 = []
      ∧ (s.host.accepted.find? (fun a => a.crossed && a.cmd.via == x.via && a.cmd.tag == x.tag) = some a)) ∧
    -- replyLineReceive
    (∃ (dt : Nat) (s : State) (x : LineReply) (r : List Msg), s.link.host.inbox = .replyLine x :: r
      ∧ (s.host.accepted.find? (fun a => a.crossed && a.cmd.via == x.via && a.cmd.tag == x.tag) = none)) ∧
    -- frameDownReceive
    (∃ (dt : Nat) (id : Nat) (i : Nat) (payload : List Byte) (s : State) (r : List Msg) (a : Action) (f : TxFrame),
      s.link.line.inbox = .frameDown id i payload :: r ∧ s.line.action? id = some a ∧ a.frames[i]? = some f ∧ f.launched = false ∧ f.ended = false
      ∧ f.payload = none ∧ sized s ∧ f.desc.chan < 256) :=
  ⟨⟨0, inbox [.frameUp frameUp, .alarm] (up .headend), frameUp, [.alarm], by decide +kernel⟩,
   ⟨0, inbox [.event ⟨[1, 2], false, (0, 0)⟩ none] (up .headend), ⟨[1, 2], false, (0, 0)⟩, [], by decide +kernel⟩,
   ⟨0, inbox [.event ⟨[0, 0, 0x8000, 0, 0, 0, 0, 0], false, (0, 0)⟩ none] (at_ 5000 (up .headend)), ⟨[0, 0, 0x8000, 0, 0, 0, 0, 0], false, (0, 0)⟩, [],
     by decide +kernel⟩,
   ⟨0, 0, 256, inbox [.event ⟨[1, 2], false, (0, 0)⟩ (some (0, 256))] (hs (fun h => { h with notes := [(act (.unmute 0) 5).note] }) (up .headend)), ⟨[1, 2], false,
     (0, 0)⟩, [], (act (.unmute 0) 5).note, by decide +kernel⟩,
   ⟨0, inbox [.replyLine ⟨.ring0, 7, [1, 2], some (act (.unmute 0) 5).note,
     []⟩] (hs (fun h => { h with accepted := [⟨cmd [], 4, 0, true, (0, 0), []⟩] }) (up .headend)), ⟨.ring0, 7, [1, 2], some (act (.unmute 0) 5).note, []⟩, [],
     ⟨cmd [], 4, 0, true, (0, 0), []⟩, by decide +kernel⟩,
   ⟨0, inbox [.replyLine ⟨.ring0, 7, [1, 2], none, []⟩] (up .headend), ⟨.ring0, 7, [1, 2], none, []⟩, [], by decide +kernel⟩,
   ⟨0, 0, 0, [1, 2], lineInbox [.frameDown 0 0 [1, 2]] (waiting (fact none 3000000) (placed 3 7 (up .headend))), [], fact none 3000000, txf none, by decide +kernel⟩⟩

theorem witness_ModeChangesAndFixPointsAreJudged :
    -- modeChangeAtLaunch
    (∃ (dt : Nat) (id : Nat) (s : State) (a : Action) (m : Mode), (s.advance dt).line.dueAction id = some a ∧ a.kind = .modeSet m ∧ s.stale a = false
      ∧ s.mayEnter m = true ∧ ((needsNode m = false ∨ s.line.nodeId ≠ 0))) ∧
    -- modeChangeAtLaunch
    (∃ (dt : Nat) (id : Nat) (s : State) (a : Action) (m : Mode), (s.advance dt).line.dueAction id = some a ∧ a.kind = .modeSet m ∧ s.stale a = true) ∧
    -- enterMaintain
    (∃ (dt : Nat) (id : Nat) (o : Nat) (n : Nat) (s : State) (a : Action), (s.advance dt).line.dueAction id = some a ∧ a.kind = .lineFirmware o n
      ∧ s.stale a = false ∧ setUpdate s.dev.mode = true) ∧
    -- lineFirmwareStarted, firmwareImageFailed
    (∃ (dt : Nat) (s : State) (f : FwUpdate), s.dev.mode = .maintain ∧ s.line.fw = some f ∧ (s.advance dt).imageWaits f = false) ∧
    -- fixPoint
    (∃ (dt : Nat) (id : Nat) (s : State) (a : Action), s.line.action? id = some a ∧ a.fixed = false ∧ a.frames = []
      ∧ (s.advance dt).line.clock.tb + 300000 ≤ ((s.advance dt).line.recomputed a).launch
      ∧ ((s.advance dt).line.recomputed a).launch - 1500000 ≤ (s.advance dt).line.clock.tb) ∧
    -- residencyCheck
    (∃ (dt : Nat) (id : Nat) (i : Nat) (s : State) (a : Action) (f : TxFrame), s.line.action? id = some a ∧ a.frames[i]? = some f ∧ f.launched = false
      ∧ f.ended = false ∧ f.payload = none ∧ a.spec.slip = false ∧ a.frameLaunch f - 60000 ≤ (s.advance dt).line.clock.tb) ∧
    -- residencyCheck
    (∃ (dt : Nat) (id : Nat) (i : Nat) (s : State) (a : Action) (f : TxFrame), s.line.action? id = some a ∧ a.frames[i]? = some f ∧ f.payload ≠ none) :=
  ⟨⟨0, 0, at_ 300000 (waiting (act (.modeSet .headend) 300000) (ln (fun l => { l with nodeId := 5 }) (up .config))), act (.modeSet .headend) 300000, .headend,
    by decide +kernel⟩,
   ⟨0, 0, at_ 300000 (waiting { act (.modeSet .headend) 300000 with expEpoch := some 9 } (up .config)), { act (.modeSet .headend) 300000 with expEpoch := some 9 },
     .headend, by decide +kernel⟩,
   ⟨0, 0, 0, 64, at_ 300000 (waiting (act (.lineFirmware 0 64) 300000) (up .headend)), act (.lineFirmware 0 64) 300000, by decide +kernel⟩,
   ⟨0, dv (fun d => { d with held := .config }) (ln (fun l => { l with fw := some ⟨act (.lineFirmware 0 64) 5, 0, 64⟩ }) (up .maintain)),
     ⟨act (.lineFirmware 0 64) 5, 0, 64⟩, by decide +kernel⟩,
   ⟨0, 0, waiting { act (.unmute 0) 1500000 with fixed := false } (up .headend), { act (.unmute 0) 1500000 with fixed := false }, by decide +kernel⟩,
   ⟨0, 0, 0, at_ 2940000 (waiting (fact none 3000000) (placed 3 7 (up .headend))), fact none 3000000, txf none, by decide +kernel⟩,
   ⟨0, 0, 0, at_ 2940000 (waiting (fact (some [1]) 3000000) (placed 3 7 (up .headend))), fact (some [1]) 3000000, txf (some [1]), by decide +kernel⟩⟩

theorem witness_PortAndChannelActionsTakeEffect :
    -- portMuteTakesEffect
    (∃ (dt : Nat) (id : Nat) (p : Nat) (cpl : Nat) (s : State) (a : Action), (s.advance dt).line.dueAction id = some a ∧ a.kind = .mute p cpl ∧ a.expEpoch = none
      ∧ p < 96 ∧ sized s) ∧
    -- portUnmuteTakesEffect
    (∃ (dt : Nat) (id : Nat) (p : Nat) (s : State) (a : Action), (s.advance dt).line.dueAction id = some a ∧ a.kind = .unmute p ∧ a.expEpoch = none ∧ p < 96 ∧ sized s) ∧
    -- placementTakesEffect
    (∃ (dt : Nat) (id : Nat) (c : Nat) (s : State) (a : Action) (new : Option Placement), (s.advance dt).line.dueAction id = some a ∧ a.kind = .place c new
      ∧ a.expEpoch = none ∧ c < 256 ∧ sized s ∧ (s.line.chan c).onAir = none ∧ ((∀ p, new = some p → s.line.placementOk c p = true))) ∧
    -- channelModeTakesEffect
    (∃ (dt : Nat) (id : Nat) (c : Nat) (mask : Nat) (values : List W16) (s : State) (a : Action), (s.advance dt).line.dueAction id = some a
      ∧ a.kind = .chanMode c mask values ∧ a.expEpoch = none ∧ c < 256 ∧ sized s) ∧
    -- deferredChannelAction
    (∃ (dt : Nat) (id : Nat) (c : Nat) (mask : Nat) (values : List W16) (s : State) (a : Action), (s.advance dt).line.deferredNow id = some a
      ∧ a.kind = .chanMode c mask values ∧ c < 256 ∧ sized s) :=
  ⟨⟨0, 0, 7, 2, at_ 300000 (waiting (act (.mute 7 2) 300000) (placed 3 7 (up .headend))), act (.mute 7 2) 300000, by decide +kernel⟩,
   ⟨0, 0, 95, at_ 300000 (waiting (act (.unmute 95) 300000) (up .headend)), act (.unmute 95) 300000, by decide +kernel⟩,
   ⟨0, 0, 3, at_ 300000 (waiting (act (.place 3 none) 300000) (placed 3 7 (up .headend))), act (.place 3 none) 300000, none, ⟨by decide +kernel, by decide +kernel,
     by decide +kernel, by decide +kernel, by decide +kernel, by decide +kernel, fun _ h => nomatch h⟩⟩,
   ⟨0, 0, 255, 1, [16], at_ 300000 (waiting (act (.chanMode 255 1 [16]) 300000) (up .headend)), act (.chanMode 255 1 [16]) 300000, by decide +kernel⟩,
   ⟨0, 0, 255, 1, [16], at_ 300000 (waiting { act (.chanMode 255 1 [16]) 200000 with deferred := some 300000 } (up .headend)),
     { act (.chanMode 255 1 [16]) 200000 with deferred := some 300000 }, by decide +kernel⟩⟩

theorem witness_SubmittedFramesAreTakenIn :
    -- frameSubmit
    (∃ (dt : Nat) (cmd : Cmd) (s : State) (got : Accepted × BarrierEnd) (spec : LaunchSpec) (b : Action) (es : List FrameDesc),
      (s.advance dt).arrived 0x140 cmd = some got ∧ parseSpec cmd = some spec ∧ cmd.word 8 = 1 ∧ ([parseDesc cmd 0]).all FrameDesc.inRange = true
      ∧ ([parseDesc cmd 0]).any s.refusesDesc = false ∧ (crossing got (s.advance dt)).txCount < 8192
      ∧ (s.advance dt).line.judgeAction (frameDraft got.1 spec false ([parseDesc cmd 0]) (s.advance dt)) = (.accepted, some b)
      ∧ (s.advance dt).line.chooseAll (s.line.chan (cmd.word 9 % 256)).refPort b.launch ([parseDesc cmd 0]) = some es ∧ ((∀ a ∈ s.line.sched.actions,
      a.id ≠ s.line.sched.nextId)) ∧ fits cmd 8 (crossing got (s.advance dt))) ∧
    -- hamperSubmit
    (∃ (dt : Nat) (n : Nat) (cmd : Cmd) (s : State) (got : Accepted × BarrierEnd) (spec : LaunchSpec) (b : Action) (es : List FrameDesc),
      (s.advance dt).arrived 0x141 cmd = some got ∧ parseSpec cmd = some spec ∧ cmd.word 8 = n ∧ 1 ≤ n ∧ n ≤ 64 ∧ cmd.params.length = 6 + 14 * n
      ∧ ((List.range n).map (parseDesc cmd)).all FrameDesc.inRange = true ∧ ((List.range n).map (parseDesc cmd)).any s.refusesDesc = false
      ∧ (crossing got (s.advance dt)).txCount + n ≤ 8192
      ∧ (s.advance dt).line.judgeAction (frameDraft got.1 spec true ((List.range n).map (parseDesc cmd)) (s.advance dt)) = (.accepted, some b)
      ∧ (s.advance dt).line.chooseAll (s.line.chan (cmd.word 9 % 256)).refPort b.launch ((List.range n).map (parseDesc cmd)) = some es
      ∧ ((∀ a ∈ s.line.sched.actions, a.id ≠ s.line.sched.nextId)) ∧ fits cmd (6 + 2 * n) (crossing got (s.advance dt))) ∧
    (∃ (dt : Nat) (cmd : Cmd) (s : State) (got : Accepted × BarrierEnd),
      takenL infoTransmitAbort cmd (State.chanRefL (cmd.word 3) (s.advance dt)) got (s.advance dt) ∧ (cmd.word 3) < 256 ∧ sized s
      ∧ fits cmd 1 (crossing got (s.advance dt))) :=
  ⟨⟨0, cmd (frames 1), toL 0x140 (cmd (frames 1)) twoChans, gotOf 0x140 (cmd (frames 1)) twoChans, specOf (cmd (frames 1)), fOf infoFrameSubmit false 1,
    esOf infoFrameSubmit false 1, by decide +kernel⟩,
   ⟨0, 2, cmd (frames 2), toL 0x141 (cmd (frames 2)) twoChans, gotOf 0x141 (cmd (frames 2)) twoChans, specOf (cmd (frames 2)), fOf infoHamperSubmit true 2,
     esOf infoHamperSubmit true 2, by decide +kernel⟩,
   ⟨0, cmd [3], toL infoTransmitAbort.opcode (cmd [3]) (aired 3 onair (up .headend)), gotOf infoTransmitAbort.opcode (cmd [3]) (aired 3 onair (up .headend)),
     by decide +kernel⟩⟩

theorem witness_FramesCrossLaunchAndEnd :
    -- frameDownSend
    (∃ (dt : Nat) (s : State) (f : HostFrame) (p : List Byte), s.link.host.up = true
      ∧ firstDue (s.host.txq.filter (HostFrame.due (s.advance dt).host.follower s.line.stageTicks)) = some f
      ∧ poolFits s.poolUse (poolSize (lenM1 f.desc + 1)) = true ∧ f.payload = some p) ∧
    (∃ (l : List HostFrame) (f : HostFrame), firstDue l = some f) ∧
    -- frameLaunch
    (∃ (dt : Nat) (id : Nat) (i : Nat) (s : State) (a : Action) (f : TxFrame) (p : List Byte), s.line.action? id = some a ∧ a.frames[i]? = some f
      ∧ f.launched = false ∧ f.ended = false ∧ a.frameLaunch f = (s.advance dt).line.clock.tb ∧ s.dev.mode ≠ .maintain ∧ s.line.ready = true
      ∧ (s.advance dt).line.mustWait a [(4, (f.desc.chan))] = false ∧ f.payload = some p ∧ f.touched = false ∧ (s.line.chan (f.desc.chan)).onAir = none
      ∧ (s.advance dt).line.rivalEnd a f.desc = none ∧ f.desc.expEpoch = none ∧ (s.line.chan (f.desc.chan)).entries ≠ []
      ∧ tooLong (s.line.chan (f.desc.chan)).rateK f.desc.mod f.desc.rate f.desc.lift (lenM1 f.desc) = false
      ∧ (({ (s.advance dt).line.airOf s.dev.mode (f.desc.chan) (.host a.tag a.id i a.slipped f.desc.seq f.desc.level) none (makeHeader s.line.netId f.desc.type f.desc.mod f.desc.rate f.desc.lift (lenM1 f.desc) f.seed (s.line.txbFor f.desc.type (f.desc.chan) f.desc.level) f.desc.sec) (poolSize (lenM1 f.desc + 1)) f.desc.level (withCheck f.desc.dest f.desc.seq p) with data := some (f.desc.dataOfs, f.desc.dataLen, if f.desc.sec then 32 else 16) } : OnAir).starts = true) ∧ (f.desc.chan) < 256 ∧ sized s) ∧
    -- transmitFrameEnd
    (∃ (dt : Nat) (c : Nat) (clips : List ClipSample) (s : State) (o : OnAir), (s.line.chan c).onAir = some o ∧ o.dueAt ≤ (s.advance dt).line.clock.tb ∧ c < 256
      ∧ sized s) :=
  ⟨⟨0, at_ 2900000 (hs (fun h => { h with txq := [hostFrameOf (some [1, 2])] }) twoChans), hostFrameOf (some [1, 2]), [1, 2], by decide +kernel⟩,
   ⟨[hostFrameOf none, { hostFrameOf none with launch := 5 }], { hostFrameOf none with launch := 5 }, by decide +kernel⟩,
   ⟨0, 0, 0, at_ 3000000 (waiting (fact (some (List.replicate 24 1)) 3000000) twoChans), fact (some (List.replicate 24 1)) 3000000,
     txf (some (List.replicate 24 1)), List.replicate 24 1, by decide +kernel⟩,
   ⟨0, 3, [], at_ 1000750 (aired 3 onair (up .headend)), onair, by decide +kernel⟩⟩

theorem witness_DriversRunThroughTheirStates :
    -- drvenRise
    (∃ (dt : Nat) (p : Nat) (c : Nat) (s : State), p < 96 ∧ sized s ∧ (s.advance dt).line.carries s.dev.mode p = true ∧ outputsActive s.dev.mode = true
      ∧ (s.line.port p).holders.count c < (s.advance dt).line.asks c p) ∧
    -- drvenFall
    (∃ (dt : Nat) (p : Nat) (s : State) (x : Tick), p < 96 ∧ sized s ∧ (s.line.port p).drven = true ∧ (s.line.port p).fallAt = some x) ∧
    -- drvfltAssert, drvfltDeassert
    (∃ (dt : Nat) (p : Nat) (s : State), p < 96 ∧ sized s) ∧
    -- drvfltAccepted
    (∃ (dt : Nat) (p : Nat) (s : State) (x : Tick), p < 96 ∧ sized s ∧ (s.line.port p).fltSince = some x ∧ x + 1500 ≤ (s.advance dt).line.clock.tb
      ∧ (s.line.port p).fltTaken = false ∧ (s.line.port p).on = true ∧ (((s.line.port p).row 7 = 0 ∨ (s.line.port p).drven = true))
      ∧ (s.line.port p).fault = false ∧ (s.line.port p).faultDue = none ∧ ((∀ x ∈ (s.line.port p).lateEnds, x.chan < 256 ∧ x.at_ ≤ (s.advance dt).line.clock.tb))) ∧
    -- ilimWindow
    (∃ (dt : Nat) (p : Nat) (x : WindowObs) (s : State), p < 96 ∧ sized s ∧ (s.line.port p).overRun < 4 ∧ ((∀ x ∈ (s.line.port p).lateEnds, x.chan < 256
      ∧ x.at_ ≤ (s.advance dt).line.clock.tb))) ∧
    -- onAirEndingComplete
    (∃ (dt : Nat) (p : Nat) (c : Nat) (s : State) (o : OnAir) (e : TxEntry) (x : Tick) (k : Nat), c < 256 ∧ sized s ∧ (s.line.chan c).onAir = some o
      ∧ (o.entries.find? (fun e => e.port == p && e.started && !e.complete) = some e) ∧ e.ended = some (x, k) ∧ x + 750 ≤ (s.advance dt).line.clock.tb) ∧
    -- impedanceBlock
    (∃ (dt : Nat) (p : Nat) (c : Nat) (s : State) (o : OnAir) (b : ZBlock), p < 96 ∧ c < 256 ∧ sized s ∧ (s.line.chan c).onAir = some o
      ∧ (s.advance dt).line.zDue p o c b = true) ∧
    -- cplSettleEnd
    (∃ (dt : Nat) (p : Nat) (s : State) (x : Tick), p < 96 ∧ sized s ∧ (s.line.port p).settle = some x) ∧
    -- selfOverlapHoldEnd
    (∃ (dt : Nat) (c : Nat) (s : State) (x : Tick), c < 256 ∧ sized s ∧ (s.line.chan c).holdUntil = some x ∧ x ≤ (s.advance dt).line.clock.tb
      ∧ s.line.stillHeld c = false ∧ (s.advance dt).line.heldAhead s.dev.mode c = false) :=
  ⟨⟨0, 7, 3, at_ 2999999 (waiting (fact (some [1]) 3000000) twoChans), by decide +kernel⟩,
   ⟨0, 95, at_ 50 (ln (Line.modPort 95 fun q => { q with drven := true, fallAt := some 50 }) (up .headend)), 50, by decide +kernel⟩,
   ⟨0, 95, up .headend, by decide +kernel⟩,
   ⟨0, 7, at_ 1500 (ln (Line.modPort 7 fun q => { q with fltSince := some 0 }) (onPort 7 (up .headend))), 0, by decide +kernel⟩,
   ⟨0, 7, ⟨400000000000000000, 0, 0⟩, at_ 15000 (onPort 7 (up .headend)), by decide +kernel⟩,
   ⟨0, 7, 3, at_ 850 (aired 3 { onair with entries := [⟨7, 0, 48, true, some (100, 5), false⟩, ⟨8, 0, 48, true, none, false⟩] } (up .headend)),
     { onair with entries := [⟨7, 0, 48, true, some (100, 5), false⟩, ⟨8, 0, 48, true, none, false⟩] }, ⟨7, 0, 48, true, some (100, 5), false⟩, 100, 5,
     by decide +kernel⟩,
   ⟨0, 7, 3, at_ 2000000 (aired 3 onair (up .headend)), onair, ⟨0, ⟨1000000, 0⟩, ⟨700000, 300000⟩, 5⟩, by decide +kernel⟩,
   ⟨0, 95, at_ 7 (ln (Line.modPort 95 fun q => { q with settle := some 7 }) (up .headend)), 7, by decide +kernel⟩,
   ⟨0, 255, at_ 7 (ln (Line.modChan 255 fun x => { x with holdFrom := some 3, holdUntil := some 7 }) (up .headend)), 7, by decide +kernel⟩⟩

theorem witness_DisciplineHoldsAndIsLost :
    -- ppsEdge
    (∃ (dt : Nat) (high : Nat) (n : Nat) (a : Tick) (s : State), s.link.host.up = true ∧ s.link.line.up = true ∧ s.link.timingUp = true ∧ 100 ≤ high
      ∧ high ≤ 900000000 ∧ s.line.time.source = 0 ∧ s.line.time.ppsQual = true ∧ bitOf (s.line.time.row 0) 0 = true ∧ s.line.time.ptpQual = false
      ∧ s.line.time.bcnQual = false ∧ s.line.time.timeSet = none ∧ s.line.time.ppsLast = some a ∧ s.line.time.second = some n
      ∧ (((s.advance dt).line.clock.tb - s.line.time.ppsDelay - s.line.time.laneDelay : Tick) - a - secondTicks).natAbs ≤ 1500 ∧ s.line.clock.disciplined = true
      ∧ s.line.time.firstStep = false) ∧
    -- ppsEdge
    (∃ (dt : Nat) (high : Nat) (n : Nat) (a : Tick) (s : State), s.link.host.up = true ∧ s.link.line.up = true ∧ s.link.timingUp = true ∧ 100 ≤ high
      ∧ high ≤ 900000000 ∧ s.line.time.source = 3 ∧ s.line.time.ppsQual = false ∧ s.line.time.ppsGood = 3 ∧ bitOf (s.line.time.row 0) 0 = true
      ∧ s.line.time.ptpQual = false ∧ s.line.time.bcnQual = false ∧ s.line.time.timeSet = none ∧ s.line.time.ppsLast = some a ∧ s.line.time.second = some n
      ∧ (((s.advance dt).line.clock.tb - s.line.time.ppsDelay - s.line.time.laneDelay : Tick) - a - secondTicks).natAbs ≤ 1500 ∧ s.dev.mode = .config) ∧
    -- ppsEdge
    (∃ (dt : Nat) (high : Nat) (s : State), ((high < 100 ∨ 900000000 < high))) ∧
    -- ptpMessage
    (∃ (dt : Nat) (m : PtpHead) (b : PtpOrigin) (d : Int) (s : State), s.ptpRuns = true ∧ s.link.host.up = true ∧ s.link.line.up = true
      ∧ s.host.ptp.requalify = false ∧ s.ptpFollows m = true ∧ s.host.ptp.path = some d ∧ s.line.time.source = 1 ∧ s.line.time.ptpQual = true
      ∧ s.line.time.ppsQual = false ∧ bitOf (s.line.time.row 0) 1 = true ∧ s.line.clock.disciplined = true ∧ s.line.time.firstStep = false ∧ b.servo.natAbs ≤ 15000) ∧
    -- ptpMessage
    (∃ (dt : Nat) (m : PtpHead) (b : PtpOrigin) (d : Int) (x : Tick) (s : State), s.ptpRuns = true ∧ s.link.host.up = true ∧ s.link.line.up = true
      ∧ s.ptpFollows m = true ∧ s.host.ptp.path = some d ∧ s.host.ptp.open_ = some (b.seq, x) ∧ s.line.time.source = 1 ∧ s.line.time.ptpQual = true
      ∧ s.line.time.ppsQual = false ∧ bitOf (s.line.time.row 0) 1 = true ∧ b.servo.natAbs ≤ 15000) ∧
    -- ptpMessage
    (∃ (dt : Nat) (m : PtpHead) (b : PtpOrigin) (s : State), s.ptpRuns = true ∧ s.host.ptp.requalify = false ∧ s.ptpFollows m = true) ∧
    -- ptpMessage
    (∃ (dt : Nat) (m : PtpHead) (g : PtpGrade) (s : State), s.ptpRuns = true ∧ s.ptpHears s.host.ptp.inForce m = true ∧ g.steps < 255) ∧
    (∃ (m : PtpHead) (k : PtpHead × PtpGrade) (g : PtpGrade) (s : State), s.host.ptp.best = some k ∧ k.1 ≠ m) ∧
    -- ptpMessage
    (∃ (dt : Nat) (m : PtpHead) (twoStep : Bool) (b : PtpOrigin) (s : State), s.ptpRuns = true ∧ s.link.host.up = true ∧ s.link.line.up = true
      ∧ (s.host.ptp).requalify = true ∧ s.ptpHears (s.host.ptp).ctrl m = true) ∧
    -- ptpMessage
    (∃ (dt : Nat) (m : PtpHead) (sent : Int) (received : Int) (origin : Int) (x : Tick) (s : State), s.ptpRuns = true ∧ s.ptpFollows m = true
      ∧ ptpPeer (s.host.ptp).inForce = false ∧ (s.host.ptp).last = some (origin, x)) ∧
    -- ptpMessage
    (∃ (dt : Nat) (m : PtpHead) (sent : Int) (turn : Int) (s : State), s.ptpRuns = true ∧ s.ptpHears (s.host.ptp).inForce m = true
      ∧ ptpPeer (s.host.ptp).inForce = true) ∧
    -- ptpMessage
    (∃ (dt : Nat) (msg : PtpMsg) (s : State), (s.ptpRuns = false ∨ msg = .other)) ∧
    -- ppsLossTimeout
    (∃ (dt : Nat) (s : State) (a : Tick), s.line.time.ppsLast = some a ∧ 2250000000 ≤ (s.advance dt).line.clock.tb - a ∧ s.line.time.source = 0
      ∧ s.line.time.ptpQual = false ∧ s.line.time.bcnQual = false) ∧
    -- ppsLossTimeout
    (∃ (dt : Nat) (s : State) (a : Tick), s.line.time.ppsLast = some a ∧ (s.advance dt).line.clock.tb - a < 2250000000) ∧
    -- ptpSyncTimeout
    (∃ (dt : Nat) (s : State) (a : Tick), s.line.time.ptpLast = some a ∧ 4500000000 ≤ (s.advance dt).line.clock.tb - a ∧ s.line.time.source = 1
      ∧ s.line.time.ppsQual = false ∧ s.line.time.bcnQual = false) ∧
    -- beaconSourceTimeout
    (∃ (dt : Nat) (s : State) (n : W32) (now : W32) (r : List W32), s.line.time.bcnStrokes = n :: r
      ∧ s.line.time.gridStroke (s.advance dt).line.clock.tb = some now ∧ ((8 * s.line.time.ttPeriod : Nat) : Int) ≤ strokeDist n now ∧ s.line.time.source = 2
      ∧ s.line.time.ppsQual = false ∧ s.line.time.ptpQual = false) :=
  ⟨⟨0, 1000, 4, 0,
    at_ 1500000700 (lk (fun k => k) (tm (fun x => { x with ppsQual := true, source := 0, ppsLast := some 0, second := some 4 }) (ln (fun l => { l with clock := { l.clock with disciplined := true } }) (up .headend)))), by decide +kernel⟩,
   ⟨0, 1000, 4, 0, at_ 1500000700 (tm (fun x => { x with ppsGood := 3, ppsLast := some 0, second := some 4 }) (up .config)), by decide +kernel⟩,
   ⟨0, 99, up .config, by decide +kernel⟩,
   ⟨0, master, ⟨3, 960, 150⟩, 40, at_ 1000 (ptpOn 0 .headend), by decide +kernel⟩,
   ⟨0, master, ⟨3, 960, 150⟩, 40, 990, at_ 1000 (hs (HostSide.modPtp fun p => { p with open_ := some (3, 990) }) (ptpOn 0 .headend)), by decide +kernel⟩,
   ⟨0, master, ⟨3, 960, 150⟩, at_ 1000 (ptpOn 0x0000FF00 .headend), by decide +kernel⟩,
   ⟨0, ⟨false, 0, 4, 1⟩, grade 127, ptpOn 0 .headend, by decide +kernel⟩,
   ⟨⟨false, 0, 4, 1⟩, (master, grade 128), grade 127, ptpOn 0 .headend, by decide +kernel⟩,
   ⟨0, master, false, ⟨3, 960, 150⟩, hs (HostSide.modPtp fun p => { p with ctrl := 9, requalify := true }) (at_ 1000 (ptpOn 0 .headend)), by decide +kernel⟩,
   ⟨0, master, 20, 61, 7, 9, ptpOn 0 .headend, by decide +kernel⟩,
   ⟨0, ⟨true, 0, 4, 1⟩, 900, 30, at_ 1000 (ptpOn 0x00400000 .headend), by decide +kernel⟩,
   ⟨0, .other, ptpOn 0 .headend, by decide +kernel⟩,
   ⟨0, at_ 2250000000 (tm (fun x => { x with source := 0, ppsQual := true, ppsLast := some 0 }) (up .headend)), 0, by decide +kernel⟩,
   ⟨0, at_ 2249999999 (tm (fun x => { x with source := 0, ppsQual := true, ppsLast := some 0 }) (up .headend)), 0, by decide +kernel⟩,
   ⟨0, at_ 4500000000 (tm (fun x => { x with source := 1, ptpQual := true, ptpLast := some 0 }) (up .headend)), 0, by decide +kernel⟩,
   ⟨0, at_ 8000000000 (tm (fun x => { x with source := 2, segs := [⟨0, 0, 983040000000, 0⟩], bcnQual := true, bcnStrokes := [1], parent := some 9, answers := [⟨9, 1, 5, 0⟩] }) (up .headend)), 1, 533, [], by decide +kernel⟩⟩

theorem witness_FollowerStepsWithTheTimebase :
    -- timeSyncSend
    (∃ (dt : Nat) (s : State), s.link.line.up = true ∧ s.line.time.stepAt = none) ∧
    -- timeSyncReceive
    (∃ (dt : Nat) (s : State) (m : Tick) (step : Option (Tick × Nat)) (r : List Msg), s.link.host.inbox = .timeSync m step :: r ∧ s.host.firstSync = false) ∧
    -- timeSyncReceive
    (∃ (dt : Nat) (s : State) (m : Tick) (step : Option (Tick × Nat)) (r : List Msg), s.link.host.inbox = .timeSync m step :: r ∧ s.host.firstSync = true) ∧
    -- timebaseStep
    (∃ (dt : Nat) (n : Nat) (s : State) (x : Tick), s.line.time.stepDue = some n ∧ s.line.time.stepAt = some x ∧ x ≤ (s.advance dt).line.clock.tb) ∧
    -- timeSetTimeout
    (∃ (dt : Nat) (s : State) (y : TimeSet), s.line.time.timeSet = some y) ∧
    -- ppsOutEdge
    (∃ (dt : Nat) (s : State), s.dev.hostRails = true ∧ (s.advance dt).host.time - (wholeSecond (s.advance dt).host.time : Tick) ≤ 5
      ∧ s.host.ppsOut ≠ some (wholeSecond (s.advance dt).host.time : Tick)) ∧
    -- crewHold
    (∃ (dt : Nat) (s : State), (s.advance dt).line.holdoverSpent = true ∧ s.line.time.crewHeld = false) ∧
    -- islandDelayExpiry
    (∃ (dt : Nat) (s : State) (a : Tick), s.dev.mode = .holdover ∧ s.line.time.lossAt = some a ∧ s.line.time.islandDelay ≠ 0
      ∧ s.line.time.islandDelay ≤ (s.advance dt).line.clock.tb - a) :=
  ⟨⟨0, up .headend, by decide +kernel⟩,
   ⟨0, inbox [.timeSync 5 none] (hs (fun h => { h with firstSync := false }) (at_ 50 (up .headend))), 5, none, [], by decide +kernel⟩,
   ⟨0, inbox [.timeSync 5 none, .alarm] (hs (fun h => { h with firstSync := true }) (at_ 50 (up .headend))), 5, none, [.alarm], by decide +kernel⟩,
   ⟨0, 1500001,
     at_ 50 (tm (fun x => { x with stepDue := some 1500001, stepAt := some 50, planned := [own 2 60] }) (hs (fun h => { h with syncStep := some (50, 1500001) }) (node .config))), 50, by decide +kernel⟩,
   ⟨0, at_ 1650000000 (tm (fun x => { x with timeSet := some ⟨⟨cmd [], 0x102, 0, true, (0, 0), []⟩, 9, 0⟩ }) (up .config)), ⟨⟨cmd [], 0x102, 0, true, (0, 0), []⟩,
     9, 0⟩, by decide +kernel⟩,
   ⟨0, at_ 1500000005 (ln (fun l => { l with clock := { l.clock with disciplined := true } }) (up .headend)), by decide +kernel⟩,
   ⟨0, at_ 90000000000000 (tm (fun x => { x with lostAt := some 0 }) (up .holdover)), by decide +kernel⟩,
   ⟨0, at_ 90000000000000 (tm (fun x => { x with lostAt := some 0, cfg := x.cfg.set 7 3600 }) (up .holdover)), 0, by decide +kernel⟩⟩

theorem witness_GridTimeFollowsCrossingsAndSchedules :
    -- zeroCrossing
    (∃ (dt : Nat) (i : Nat) (e : Crossing) (s : State), i < 6 ∧ sized s ∧ (s.line.time.input i).state ≠ .off) ∧
    -- senseLossTimeout
    (∃ (dt : Nat) (i : Nat) (s : State) (a : Tick × W16), i < 6 ∧ sized s ∧ (((s.line.time.input i).state = .valid ∨ (s.line.time.input i).state = .noisy))
      ∧ (s.line.time.input i).anchor = some a ∧ 67500000 ≤ (s.advance dt).line.clock.tb - a.1) ∧
    -- gridStep
    (∃ (dt : Nat) (s : State) (b : Tick) (segs : List Seg), s.line.time.adopting = some (b, segs) ∧ b ≤ (s.advance dt).line.clock.tb) ∧
    -- beaconReceived
    (∃ (dt : Nat) (s : State) (g : GoodFrame) (r : List GoodFrame), s.line.beacons = g :: r) ∧
    -- coxRankExpiry
    (∃ (dt : Nat) (node : W32) (n : W32) (r : Rank) (s : State), (s.line.time.ranks.find? (fun r => r.node == node) = some r)
      ∧ s.line.time.gridStroke (s.advance dt).line.clock.tb = some n ∧ ((8 * r.pb : Nat) : Int) < strokeDist r.heard n) :=
  ⟨⟨0, 5, ⟨true, true, 100, 50000⟩, at_ 5000 (up .headend), by decide +kernel⟩,
   ⟨0, 5, at_ 67500000 (ln (Line.modSense 5 fun x => { x with anchor := some (0, 0), accepted := 15, state := .valid }) (up .headend)), (0, 0), by decide +kernel⟩,
   ⟨0, at_ 9 (tm (fun x => { x with adopting := some (9, [⟨1, 9, 15000000 * 65536, 64⟩]) }) (node .headend)), 9, [⟨1, 9, 15000000 * 65536, 64⟩], by decide +kernel⟩,
   ⟨0, at_ 960000000 (ln (fun l => { l with beacons := [beacon] }) (node .headend)), beacon, [], by decide +kernel⟩,
   ⟨0, 9, 512, ⟨9, 1, 0, 63, []⟩, at_ 7680000000 (tm (fun x => { x with ranks := [⟨9, 1, 0, 63, []⟩] }) (node .headend)), by decide +kernel⟩⟩

theorem witness_StrokesRunOnTheirSource :
    -- strokeBoundary
    (∃ (dt : Nat) (s : State) (n : W32) (clips : List ClipSample), s.line.time.gridStroke (s.advance dt).line.clock.tb = some n) ∧
    -- strokeBoundary
    (∃ (dt : Nat) (p : Nat) (s : State) (clips : List ClipSample), p < 96 ∧ sized s ∧ (s.line.port p).srcNow = 1 ∧ s.line.nextLocal p ≤ (s.advance dt).line.clock.tb) ∧
    -- strokeBoundary
    (∃ (dt : Nat) (s : State) (clips : List ClipSample),
      s.line.time.synthLast ≠ some ((s.line.time.synthRamp (s.advance dt).line.clock.tb).stroke (s.advance dt).line.clock.tb)) ∧
    -- strokeSource
    (∃ (dt : Nat) (p : Nat) (src : Nat) (s : State) (x : Tick) (b : Tick), p < 96 ∧ sized s ∧ (s.line.port p).srcNext = some (src, x)
      ∧ (s.advance dt).line.firstBoundary p src x = some b ∧ b ≤ (s.advance dt).line.clock.tb) :=
  ⟨⟨0, at_ 960000000 (node .headend), 64, [⟨7, false, 5⟩, ⟨7, false, 990000000⟩], by decide +kernel⟩,
   ⟨0, 7, at_ 15000000 (ln (Line.modPort 7 fun q => { q with srcNow := 1 }) (node .headend)), [⟨7, false, 5⟩, ⟨7, false, 990000000⟩], by decide +kernel⟩,
   ⟨0, at_ 960000000 (node .headend), [⟨7, false, 5⟩, ⟨7, false, 990000000⟩], by decide +kernel⟩,
   ⟨0, 7, 2, at_ 960000000 (ln (Line.modPort 7 fun q => { q with srcNext := some (2, 15000000) }) (node .headend)), 15000000, 15000000, by decide +kernel⟩⟩

theorem witness_BeaconsAndReportsAreSent :
    -- beaconOriginate
    (∃ (dt : Nat) (k : Nat) (s : State) (n : W32) (T : Tick) (v : W16) (r : List (W16 × Nat)), (s.advance dt).line.beaconStroke = some (n, T)
      ∧ (s.advance dt).originates = true ∧ s.line.seqs = (v, k) :: r ∧ ((∀ o ∈ s.line.time.planned, o.type = 2 → o.launch ≠ T
      ∧ o.launch ≠ (s.advance dt).line.clock.tb)) ∧ T ≠ (s.advance dt).line.clock.tb) ∧
    -- beaconOriginate
    (∃ (dt : Nat) (s : State) (o : OwnFrame), ((s.advance dt).line.dueOwn 2 (fun _ => true) = some o)
      ∧ ((s.advance dt).line.beaconStroke.all (fun x => s.line.time.planned.any fun p => p.type == 2 && decide (p.launch = x.2)) = true) ∧ sized s) ∧
    -- linkReportSend
    (∃ (dt : Nat) (c : Nat) (s : State) (n : W32) (T : Tick), c < 256 ∧ sized s ∧ (s.advance dt).line.reportStroke c = some (n, T)
      ∧ outputsActive s.dev.mode = true ∧ s.line.nodeId ≠ 0 ∧ (s.line.chan c).row 32 = 1 ∧ (s.line.chan c).rxPort ≠ none ∧ (s.line.chan c).entries ≠ []
      ∧ (s.line.chan c).reportAt ≠ some n ∧ (s.advance dt).line.dueOwn 0 (· == c) = none ∧ T ≠ (s.advance dt).line.clock.tb) ∧
    -- linkReportSend
    (∃ (dt : Nat) (c : Nat) (s : State) (o : OwnFrame), c < 256 ∧ sized s ∧ (s.advance dt).line.dueOwn 0 (· == c) = some o
      ∧ (((s.advance dt).line.reportStroke c).all (fun x => (s.line.chan c).reportAt == some x.1) = true) ∧ startsOwn o s.dev.mode (s.advance dt).line) :=
  ⟨⟨0, 1, at_ 958500000 (node .headend), 64, 959250000, 77, [(78, 2)], by decide +kernel⟩,
   ⟨0, at_ 959250000 (tm (fun x => { x with planned := [own 2 959250000] }) (node .headend)), own 2 959250000, by decide +kernel⟩,
   ⟨0, 3, at_ 120000000 (node .headend), 8, 120750000, by decide +kernel⟩,
   ⟨0, 3, at_ 120750000 (tm (fun x => { x with planned := [own 0 120750000] }) (ln (Line.modChan 3 fun x => { x with reportAt := some 8 }) (node .headend))),
     own 0 120750000, by decide +kernel⟩⟩

theorem witness_TimeTransfersMeasureTheParent :
    -- timeTransferRequest
    (∃ (dt : Nat) (c : Nat) (k : Nat) (s : State) (n : W32) (p : W32) (T : Tick) (v : W16) (r : List (W16 × Nat)), (s.advance dt).line.ttStroke = some (n, T)
      ∧ s.line.time.parent = some p ∧ outputsActive s.dev.mode = true ∧ s.line.nodeId ≠ 0 ∧ bitOf (s.line.time.row 0) 2 = true ∧ ((∀ o ∈ s.line.time.planned,
      o.type = 3 → o.launch ≠ T)) ∧ (s.advance dt).line.ttChannel p = some c ∧ (s.line.chan c).entries ≠ []
      ∧ (s.advance dt).line.ownInCatch c (fmtOf (s.line.time.row 15)).1 T = true ∧ s.line.seqs = (v, k) :: r
      ∧ ((s.advance dt).line.dueOwn 3 (fun _ => true) = none) ∧ T ≠ (s.advance dt).line.clock.tb) ∧
    -- timeTransferRequest
    (∃ (dt : Nat) (s : State) (o : OwnFrame), ((s.advance dt).line.dueOwn 3 (fun _ => true) = some o)
      ∧ ((s.advance dt).line.ttStroke.all (fun x => s.line.time.planned.any fun p => p.type == 3 && decide (p.launch = x.2)) = true) ∧ sized s
      ∧ startsOwn o s.dev.mode (s.advance dt).line) ∧
    -- timeTransferRequestReceived
    (∃ (dt : Nat) (k : Nat) (s : State) (g : GoodFrame) (b : Tick) (v : W16) (r : List (W16 × Nat)),
      (s.line.ttIn.find? (fun g => hdrType g.frame.hdr == 3) = some g) ∧ s.line.nodeId ≠ 0 ∧ hopDest g.bytes = s.line.nodeId ∧ hdrLen g.frame.hdr = 31
      ∧ nth g.bytes 16 0 = 1 ∧ outputsActive s.dev.mode = true ∧ s.line.time.gridBoundary (BitVec.ofNat 32 (field g.bytes 20 4)) = some b
      ∧ ((s.line.chan (s.line.via g.chan)).entries.any (fun e => e.2 == g.frame.port) = true)
      ∧ b - s.line.time.halfCatch ≤ (replyInstant b (g.frame.endAt + 150000) (symbolTicks (s.line.chan (s.line.via g.chan)).rateK))
      ∧ headerEnd (replyInstant b (g.frame.endAt + 150000) (symbolTicks (s.line.chan (s.line.via g.chan)).rateK)) (s.line.chan (s.line.via g.chan)).rateK (hdrMod g.frame.hdr) ≤ b + s.line.time.halfCatch ∧ (s.advance dt).line.ownInCatch (s.line.via g.chan) (hdrMod g.frame.hdr) (replyInstant b (g.frame.endAt + 150000) (symbolTicks (s.line.chan (s.line.via g.chan)).rateK)) = true ∧ s.line.seqs = (v, k) :: r) ∧
    -- timeTransferRequestReceived
    (∃ (dt : Nat) (s : State) (g : GoodFrame), (s.line.ttIn.find? (fun g => hdrType g.frame.hdr == 3) = some g) ∧ hopDest g.bytes ≠ s.line.nodeId) ∧
    -- timeTransferReply
    (∃ (dt : Nat) (s : State) (o : OwnFrame), ((s.advance dt).line.dueOwn 4 (fun _ => true) = some o) ∧ sized s ∧ startsOwn o s.dev.mode (s.advance dt).line) ∧
    -- timeTransferReplyReceived
    (∃ (dt : Nat) (s : State) (g : GoodFrame), (s.line.ttIn.find? (fun g => hdrType g.frame.hdr == 4) = some g) ∧ s.line.nodeId ≠ 0
      ∧ hopDest (g.bytes) = s.line.nodeId ∧ hdrLen g.frame.hdr = 55 ∧ nth (g.bytes) 16 0 = 1) :=
  ⟨⟨0, 3, 1, at_ 73500000 (node .headend), 5, 9, 74250000, 77, [(78, 2)], by decide +kernel⟩,
   ⟨0, at_ 74250000 (tm (fun x => { x with planned := [own 3 74250000] }) (node .headend)), own 3 74250000, by decide +kernel⟩,
   ⟨0, 1, at_ 74600000 (ln (fun l => { (Line.modChan 0 (fun x => { x with via := 3 }) l) with ttIn := [{ good 3 (beBytes 4 5 ++ beBytes 4 9 ++ List.replicate 8 0 ++ [1, 0, 0, 0] ++ beBytes 4 5 ++ List.replicate 8 0) with frame := { rxf 3 31 with port := 7, endAt := 74600000 } }] }) (node .headend)), { good 3 (beBytes 4 5 ++ beBytes 4 9 ++ List.replicate 8 0 ++ [1, 0, 0, 0] ++ beBytes 4 5 ++ List.replicate 8 0) with frame := { rxf 3 31 with port := 7, endAt := 74600000 } }, 75000000, 77, [(78, 2)], by decide +kernel⟩,
   ⟨0, ln (fun l => { l with ttIn := [good 3 (hopBytes 9 4 15)] }) (node .headend), good 3 (hopBytes 9 4 15), by decide +kernel⟩,
   ⟨0, at_ 75000000 (tm (fun x => { x with planned := [own 4 75000000] }) (node .headend)), own 4 75000000, by decide +kernel⟩,
   ⟨0, at_ 75000000 (ln (fun l => { l with ttIn := [good 4 (hopBytes 5 9 39)] }) (node .headend)), good 4 (hopBytes 5 9 39), by decide +kernel⟩⟩

theorem witness_CandidatesAndHeadersRunTheContexts :
    -- syncCandidate
    (∃ (dt : Nat) (c : Nat) (y : SyncCand) (s : State), c < 256 ∧ sized s ∧ (s.advance dt).line.maySearch s.dev.mode c = true ∧ (s.advance dt).line.declares c y = true) ∧
    -- syncCandidate
    (∃ (dt : Nat) (c : Nat) (y : SyncCand) (s : State), ((s.advance dt).line.maySearch s.dev.mode c && (s.advance dt).line.declares c y) = false) ∧
    -- headerTest
    (∃ (dt : Nat) (c : Nat) (i : Nat) (r : Nat) (y : HeaderObs) (k : Lock) (d : Tick) (todo : List Nat) (ss : List Cx) (soft : List Soft) (s : State), c < 256
      ∧ sized s ∧ nth (s.line.chan c).ctx i none = some (.cand k d (r :: todo) ss soft)
      ∧ k.launch + ((headerDone r * symbolTicks (s.line.chan c).rateK : Nat) : Int) ≤ ((s.advance dt).line.clock.tb) ∧ ((∀ h ∈ s.line.headers,
      h.chan ≠ c ∨ h.ctx ≠ i)) ∧ ((∀ h, (s.line.chan c).headerWord ((s.advance dt).line.clock.tb) c i = some h → (s.advance dt).line.headerServed h = true))) ∧
    -- headerTest
    (∃ (dt : Nat) (c : Nat) (i : Nat) (y : HeaderObs) (h : HeaderWord) (s : State), c < 256 ∧ sized s
      ∧ (s.line.headers.find? (fun h => h.chan == c && h.ctx == i) = some h) ∧ ((s.advance dt).line.noteClips y.rx.clips).headerServed h = true) ∧
    -- headerTest
    (∃ (dt : Nat) (c : Nat) (i : Nat) (y : HeaderObs) (s : State), ((∀ h ∈ s.line.headers, h.chan ≠ c ∨ h.ctx ≠ i)) ∧ ((∀ h,
      (s.line.chan c).headerWord (s.advance dt).line.clock.tb c i = some h → (s.advance dt).line.headerServed h = false))) ∧
    -- committedFrameEnd
    (∃ (dt : Nat) (c : Nat) (i : Nat) (rx : RxObs) (r : W16) (e : Tick) (s : State), c < 256 ∧ sized s ∧ nth (s.line.chan c).ctx i none = some (.committed r e)) :=
  ⟨⟨0, 3, cand, at_ 125625 (node .headend), by decide +kernel⟩,
   ⟨0, 255, cand, node .headend, by decide +kernel⟩,
   ⟨0, 3, 1, 1, ⟨⟨hdrSyms (hdr 0 19) 375, []⟩, [hdrBits (hdr 0 19)]⟩, candLock, 5, [4, 6], [], [], at_ 400000 (receiving [none, some (.cand candLock 5 [1, 4,
     6] [] [])] []), ⟨by decide, by decide +kernel, by decide +kernel, by decide +kernel, by decide +kernel, of_all (by decide +kernel)⟩⟩,
   ⟨0, 3, 1, ⟨⟨hdrSyms (hdr 0 19) 375, []⟩, [hdrBits (hdr 0 19)]⟩, freed, at_ 400000 (ln (fun l => { l with headers := [freed] }) (receiving [none, none] [])),
     by decide +kernel⟩,
   ⟨0, 3, 1, ⟨flat 2, []⟩, at_ 400000 (receiving [none, none] []), ⟨by decide +kernel, of_isNone (by decide +kernel)⟩⟩,
   ⟨0, 3, 1, flat 2, 7, 50, at_ 50 (receiving [none, some (.committed 7 50)] []), by decide +kernel⟩⟩

theorem witness_WashesCodewordsAndNoiseAreKept :
    -- wash
    (∃ (dt : Nat) (c : Nat) (i : Nat) (rx : RxObs) (r : W16) (e : Tick) (f : RxFrame) (s : State), c < 256 ∧ sized s
      ∧ nth (s.line.chan c).ctx i none = some (.committed r e) ∧ s.line.frame? c r = some f) ∧
    -- wash
    (∃ (dt : Nat) (c : Nat) (i : Nat) (rx : RxObs) (k : Lock) (d : Tick) (todo : List Nat) (ss : List Cx) (soft : List Soft) (s : State), c < 256 ∧ sized s
      ∧ nth (s.line.chan c).ctx i none = some (.cand k d todo ss soft)) ∧
    -- codewordEnd
    (∃ (dt : Nat) (c : Nat) (r : W16) (y : CodewordObs) (f : RxFrame) (j : Job) (e : Bits × Nat × Nat) (s : State), c < 256 ∧ sized s ∧ s.line.frame? c r = some f
      ∧ (((s.advance dt).line.assign).jobs.find? (fun j => j.chan == c && j.rxId == r && j.index == y.index && j.engine) = some j)
      ∧ ((s.advance dt).line.assign).wordEnds f j y.iters = some e) ∧
    -- codewordEnd
    (∃ (dt : Nat) (c : Nat) (r : W16) (y : CodewordObs) (s : State), ((∀ f j,
      s.line.frame? c r = some f → ((s.advance dt).line.assign).jobs.find? (fun j => j.chan == c && j.rxId == r && j.index == y.index && j.engine) = some j → ((s.advance dt).line.assign).wordEnds f j y.iters = none))) :=
  ⟨⟨0, 3, 1, flat 40, 1, 50, whole, at_ 200000 (receiving [none, some (.committed 1 50)] [whole]), by decide +kernel⟩,
   ⟨0, 3, 1, flat 2, candLock, 5, [4], [], [], at_ 200000 (receiving [none, some (.cand candLock 5 [4] [] [])] []), by decide +kernel⟩,
   ⟨0, 3, 1, obs 0, whole, { (whole.jobs 3 []).getD 0 ⟨3, 1, 0, 2, 50, [], true⟩ with engine := true }, (words.getD 0 [], 0, 1),
     at_ 400000 (ln (fun l => { l with jobs := (whole.jobs 3 []).map fun j => { j with engine := true } }) (receiving [none, some (.committed 1 50)] [whole])),
     by decide +kernel⟩,
   ⟨0, 3, 1, ⟨0, []⟩, at_ 400000 (ln (fun l => { l with jobs := (whole.jobs 3 []).map fun j => { j with engine := true } }) (receiving [none,
     some (.committed 1 50)] [whole])), none_of_all (by decide +kernel)⟩⟩

theorem witness_ReceivedFramesAreTakenUpAndCopiedOnce :
    -- relayEngineTakeUp
    (∃ (dt : Nat) (s : State) (g : GoodFrame) (r : List GoodFrame), s.line.relay.inbox = g :: r) ∧
    -- relayEngineTakeUp
    (∃ (dt : Nat) (s : State) (g : GoodFrame) (r : List GoodFrame), s.line.relay.inbox = g :: r ∧ s.line.down = false ∧ s.line.retracts g = false
      ∧ hopSrc (g.bytes) ≠ s.line.nodeId ∧ s.line.isDup (hopSrc (g.bytes)) (hopSeq (g.bytes)) = false ∧ s.line.nodeId ≠ 0 ∧ hopDest (g.bytes) ≠ s.line.nodeId
      ∧ hopToGo (g.bytes) ≠ 0 ∧ hopCount (g.bytes) ≠ 255 ∧ (g.frame).unconv = false ∧ ((∀ k ∈ s.line.relay.copies, ¬ (k.type = 0 ∧ k.src = hopSrc (g.bytes)
      ∧ k.seq = hopSeq (g.bytes))))) ∧
    -- a flood
    (∃ (s : State) (g : GoodFrame) (grp : FloodGroup) (n : W32) (k : Copy), s.line.relay.inbox = [g] ∧ s.line.down = false ∧ s.line.retracts g = false
      ∧ hopSrc g.bytes ≠ s.line.nodeId ∧ s.line.isDup (hopSrc g.bytes) (hopSeq g.bytes) = false ∧ s.line.nodeId ≠ 0 ∧ hopDest g.bytes ≠ s.line.nodeId
      ∧ hopToGo g.bytes ≠ 0 ∧ hopCount g.bytes ≠ 255 ∧ g.frame.unconv = false ∧ s.line.relay.copies = []
      ∧ (s.advance 0).line.groupOf (hdrType g.frame.hdr) (hopFlood g.bytes) = some grp ∧ (s.advance 0).line.launchStroke g.frame.port g.frame.launch = some n
      ∧ (s.advance 0).line.floodCopy g grp n (((s.advance 0).line.boundary g.frame.port n).getD 0) = some k ∧ hdrType g.frame.hdr = 1 ∧ grp.relay = true
      ∧ s.dev.relaysFloods = true ∧ ((s.advance 0).line.port g.frame.port).srcNow = 0 ∧ hopDest g.bytes = 0xFFFFFFFF
      ∧ grp.floor * 128 ≤ toSigned 16 g.frame.snr.toNat
      ∧ (s.advance 0).line.crewFails s.dev (s.advance 0).line.time.held k ++ (s.advance 0).line.copyFails k = []
      ∧ poolFits (s.advance 0).poolUse (poolSize (k.len + 1)) = true) ∧
    -- a unicast leg
    (∃ (s : State) (g : GoodFrame) (e : HopEntry), s.line.relay.inbox = [g] ∧ s.line.down = false ∧ s.line.retracts g = false ∧ hopSrc g.bytes ≠ s.line.nodeId
      ∧ s.line.isDup (hopSrc g.bytes) (hopSeq g.bytes) = false ∧ s.line.nodeId ≠ 0 ∧ hopDest g.bytes ≠ s.line.nodeId ∧ hopToGo g.bytes ≠ 0
      ∧ hopCount g.bytes ≠ 255 ∧ g.frame.unconv = false ∧ s.line.relay.copies = []
      ∧ ((s.advance 0).line.learn 0 (hopSrc g.bytes) (hopCount g.bytes + 1)).hop? (hopDest g.bytes) = some e ∧ hdrType g.frame.hdr = 0
      ∧ hopDest g.bytes ≠ 0xFFFFFFFF ∧ s.line.relay.ucRelay = true ∧ s.dev.relaysLegs = true ∧ e.hops < hopToGo g.bytes
      ∧ (s.advance 0).line.relay.ucFloor * 128 ≤ toSigned 16 g.frame.snr.toNat ∧ (s.advance 0).line.copyFails ((s.advance 0).line.legCopy g e.hops) = []
      ∧ poolFits (s.advance 0).poolUse (poolSize (((s.advance 0).line.legCopy g e.hops).len + 1)) = true) :=
  ⟨⟨0, relayInbox [heard 0 (hop 5 4 0 1 0 0)] (node .headend), heard 0 (hop 5 4 0 1 0 0), [], by decide +kernel⟩,
   ⟨0, relayInbox [heard 1 (hop 0xFFFFFFFF 4 3 1 5 1)] (grouped (node .headend)), heard 1 (hop 0xFFFFFFFF 4 3 1 5 1), [], by decide +kernel⟩,
   ⟨crewNode (heard 1 (hop 0xFFFFFFFF 4 3 1 5 1)), heard 1 (hop 0xFFFFFFFF 4 3 1 5 1), ⟨5, true, true, -20, 0⟩, 64,
      ((crewNode (heard 1 (hop 0xFFFFFFFF 4 3 1 5 1))).line.floodCopy (heard 1 (hop 0xFFFFFFFF 4 3 1 5 1)) ⟨5, true, true, -20, 0⟩ 64 960000000).getD (copy 1 0 none),
      by decide +kernel⟩,
   ⟨ln (fun l => { l with relay := { l.relay with hops := [⟨0, 9, 2, false, 0⟩] } }) (crewNode (heard 0 (hop 9 4 3 1 0 0))), heard 0 (hop 9 4 3 1 0 0), ⟨0, 9, 2,
     false, 0⟩,
      by decide +kernel⟩⟩

theorem witness_CopiesAreCheckedAndLaunched :
    -- relayStageCheck
    (∃ (dt : Nat) (id : Nat) (staged : List Byte) (s : State) (k : Copy), s.line.copy? id = some k ∧ k.resident = none) ∧
    -- relayFixCheck
    (∃ (dt : Nat) (id : Nat) (s : State) (k : Copy), s.line.copy? id = some k ∧ k.type ≠ 0 ∧ k.launch - 1500000 ≤ (s.advance dt).line.clock.tb) ∧
    -- relayResidencyCheck
    (∃ (dt : Nat) (id : Nat) (s : State) (k : Copy), s.line.copy? id = some k ∧ k.launch - 60000 ≤ (s.advance dt).line.clock.tb) ∧
    (∃ (dt : Nat) (id : Nat) (leg : Bool) (s : State) (k : Copy) (bytes : List Byte), s.line.copy? id = some k ∧ leg = decide (k.type = 0)
      ∧ k.launch = (s.advance dt).line.clock.tb ∧ s.line.ready = true ∧ k.resident = some bytes ∧ (k.chan) < 256 ∧ sized s ∧ (s.line.chan (k.chan)).onAir = none
      ∧ (s.advance dt).line.classWaits (k.chan) = false ∧ tooLong (s.line.chan (k.chan)).rateK (hdrMod (k.hdr)) (hdrRate (k.hdr)) (hdrLift (k.hdr)) k.len = false
      ∧ s.line.viaOk (k.chan) k.rx = true ∧ (s.advance dt).line.hostRival k = false
      ∧ (s.advance dt).line.reportOver (k.chan) k.launch (k.launch + (s.advance dt).line.copyTicks k) = none
      ∧ ((s.advance dt).line.airEntries s.dev.mode (k.chan) ((s.line.chan (k.chan)).row 20) none).any (·.started) = true) :=
  ⟨⟨0, 0, payload, copied (copy 0 999999999 none) (node .headend), copy 0 999999999 none, by decide +kernel⟩,
   ⟨0, 0, at_ 998499999 (copied (copy 1 999999999 none) (node .headend)), copy 1 999999999 none, by decide +kernel⟩,
   ⟨0, 0, at_ 999939999 (copied (copy 1 999999999 none) (node .headend)), copy 1 999999999 none, by decide +kernel⟩,
   ⟨0, 0, false, at_ 999999999 (copied (copy 1 999999999 (some (withCheck 9 1 payload))) (node .headend)), copy 1 999999999 (some (withCheck 9 1 payload)),
     withCheck 9 1 payload, by decide +kernel⟩⟩

theorem witness_ReportsAndAgesKeepTheTables :
    -- linkReportReceived
    (∃ (dt : Nat) (s : State) (g : GoodFrame) (r : List GoodFrame), s.line.links.inbox = g :: r ∧ (g.chan) < 256 ∧ sized s) ∧
    -- linkAgeExpiry
    (∃ (dt : Nat) (i : Nat) (s : State) (e : LinkEntry), (s.line.links.entries.find? (fun e => e.index == i) = some e)) ∧
    -- linkRemoval
    (∃ (dt : Nat) (i : Nat) (s : State) (e : LinkEntry), (s.line.links.entries.find? (fun e => e.index == i) = some e)) ∧
    -- verdictDecay
    (∃ (dt : Nat) (i : Nat) (s : State) (e : LinkEntry), (s.line.links.entries.find? (fun e => e.index == i) = some e) ∧ e.offset ≠ 0
      ∧ (((s.line.chan e.chan).row 30 : Nat) : Int) ≤ strokeDist e.offsetAt ((s.advance dt).line.rxStroke e.chan)) ∧
    -- hopAgeExpiry
    (∃ (dt : Nat) (i : Nat) (s : State) (e : HopEntry), (s.line.relay.hops.find? (fun e => e.index == i) = some e)) :=
  ⟨⟨0, ln (fun l => { l with links := { l.links with inbox := [reportFrame 1 0], entries := [{ entry with chan := 3, node := 4 }] } }) (node .headend),
    reportFrame 1 0, [], by decide +kernel⟩,
   ⟨0, 3, at_ 961000000 (linked { entry with chan := 3 } (ln (fun l => { l with linkAge := 64 }) (node .headend))), { entry with chan := 3 }, by decide +kernel⟩,
   ⟨0, 3, at_ 961000000 (linked { entry with chan := 3, stale := true } (ln (fun l => { l with linkAge := 16 }) (node .headend))),
     { entry with chan := 3, stale := true }, by decide +kernel⟩,
   ⟨0, 3, at_ 961000000 (linked { entry with chan := 3, offset := 2 } (ln (Line.modChan 3 fun x => { x with cfg := x.cfg.set 30 64 }) (node .headend))),
     { entry with chan := 3, offset := 2 }, by decide +kernel⟩,
   ⟨0, 2, at_ 1500000005 (ln (fun l => { l with relay := { l.relay with hopAge := 1, hops := [⟨2, 9, 2, false, 5⟩, ⟨4, 8, 2, false, 5⟩] } }) (node .headend)), ⟨2,
     9, 2, false, 5⟩, by decide +kernel⟩⟩

theorem witness_SerialCharactersAreReceived :
    -- serialStartEdge
    (∃ (dt : Nat) (n : Nat) (o : EdgeObs) (s : State), n < 8 ∧ sized s ∧ s.linksStopped = false ∧ o.port = n) ∧
    -- serialCharacter
    (∃ (dt : Nat) (n : Nat) (c : CharObs) (s : State) (e : Tick), n < 8 ∧ sized s ∧ s.linksStopped = false ∧ (s.host.sp n).edge = some e
      ∧ (s.host.sp n).lineState = .idle ∧ charDone (s.host.sp n).edgeFormat e ≤ (s.advance dt).host.follower
      ∧ ((irBad (s.host.sp n).edgeFormat = true ∨ charFalse (s.host.sp n).edgeFormat c = false))) ∧
    -- serialFalseStart
    (∃ (dt : Nat) (n : Nat) (c : CharObs) (s : State) (e : Tick), n < 8 ∧ sized s ∧ s.linksStopped = false ∧ (s.host.sp n).edge = some e
      ∧ (s.host.sp n).lineState = .idle ∧ falseAt (s.host.sp n).edgeFormat e ≤ (s.advance dt).host.follower ∧ charFalse (s.host.sp n).edgeFormat c = true) ∧
    -- serialBreak
    (∃ (dt : Nat) (n : Nat) (c : CharObs) (s : State) (e : Tick), n < 8 ∧ sized s ∧ s.linksStopped = false ∧ (s.host.sp n).lowSince = some e
      ∧ (s.host.sp n).lineState = .idle ∧ e + charTimes (s.host.sp n).edgeFormat 2 ≤ (s.advance dt).host.follower
      ∧ lineLow (s.host.sp n).edgeFormat c ((s.advance dt).host.follower - e).toNat = true) ∧
    -- serialStuck
    (∃ (dt : Nat) (n : Nat) (c : CharObs) (s : State) (e : Tick), n < 8 ∧ sized s ∧ s.linksStopped = false ∧ (s.host.sp n).lowSince = some e
      ∧ (s.host.sp n).mayStick c ((s.advance dt).host.follower - e).toNat = true
      ∧ e + ((bitsOf (s.host.sp n).limits.toNat 0 16 * 1500000 : Nat) : Int) ≤ (s.advance dt).host.follower) ∧
    -- serialIdle
    (∃ (dt : Nat) (n : Nat) (c : CharObs) (s : State) (e : Tick), n < 8 ∧ sized s ∧ s.linksStopped = false ∧ (s.host.sp n).lowSince = some e
      ∧ (s.host.sp n).lineState ≠ .idle) ∧
    -- serialStartEdge, serialCharacter, serialFalseStart, serialBreak, serialStuck, serialIdle
    (∃ (dt : Nat) (n : Nat) (c : CharObs) (o : EdgeObs) (s : State), s.linksStopped = true) :=
  ⟨⟨0, 1, fall 1, sp 1 id (up .headend), by decide +kernel⟩,
   ⟨0, 1, char, at_ 2000000 (sp 1 (fun p => { p with edge := some 7, edgeFormat := (0x183, 0x00061A80) }) (up .headend)), 7, by decide +kernel⟩,
   ⟨0, 1, ⟨[4000]⟩, at_ 100000 (sp 1 (fun p => { p with edge := some 7, edgeFormat := (0x183, 0x00061A80) }) (up .headend)), 7, by decide +kernel⟩,
   ⟨0, 1, ⟨[]⟩, at_ 50000000 (sp 1 (fun p => { p with edge := some 7, lowSince := some 7, edgeFormat := (0x183, 0x00061A80) }) (up .headend)), 7, by decide +kernel⟩,
   ⟨0, 1, ⟨[]⟩, at_ 150000007 (sp 1 (fun p => { p with edge := some 7, lowSince := some 7, edgeFormat := (0x183, 0x00061A80), lineState := .brk }) (up .headend)),
     7, by decide +kernel⟩,
   ⟨0, 1, ⟨[100000000]⟩,
     at_ 150000007 (sp 1 (fun p => { p with edge := some 7, lowSince := some 7, edgeFormat := (0x183, 0x00061A80), lineState := .brk }) (up .headend)), 7,
     by decide +kernel⟩,
   ⟨0, 1, char, fall 1,
     hs (fun h => { h with jtag := .extest }) (at_ 2000000 (sp 1 (fun p => { p with edge := some 7, edgeFormat := (0x183, 0x00061A80) }) (up .headend))),
     by decide +kernel⟩⟩

theorem witness_SerialBlocksFillCloseAndRelease :
    -- serialRxDma
    (∃ (dt : Nat) (n : Nat) (s : State) (e : RxEntry) (r : List RxEntry), 0 < n ∧ n < 8 ∧ sized s ∧ s.linksStopped = false ∧ (s.host.sp n).fifo = e :: r
      ∧ (s.host.sp n).lineState ≠ .stuck ∧ ((s.dev.rung = .row ∨ s.dev.rung = .paddle ∨ s.dev.rung = .drift))) ∧
    -- serialRxDma
    (∃ (dt : Nat) (s : State) (e : RxEntry) (r : List RxEntry), (s.host.sp 0).fifo = e :: r ∧ (s.host.sp 0).lineState ≠ .stuck
      ∧ ((s.dev.rung = .row ∨ s.dev.rung = .paddle ∨ s.dev.rung = .drift)) ∧ sized s ∧ s.linksStopped = false) ∧
    -- serialRxTimeout
    (∃ (dt : Nat) (n : Nat) (s : State) (x : Tick), n < 8 ∧ sized s ∧ s.linksStopped = false ∧ (s.host.sp n).timeout = some x) ∧
    -- serialRxRelease
    (∃ (dt : Nat) (n : Nat) (v : W32) (s : State), reachable s ∧ 0 < n ∧ n < 8 ∧ sized s) ∧
    -- serialRxqRead
    (∃ (dt : Nat) (n : Nat) (s : State), reachable s ∧ n < 8 ∧ sized s) ∧
    -- serialRxqReset
    (∃ (dt : Nat) (n : Nat) (s : State), reachable s ∧ 0 < n ∧ n < 8 ∧ sized s) ∧
    -- serialRxDisable
    (∃ (dt : Nat) (n : Nat) (s : State), reachable s ∧ n < 8 ∧ sized s ∧ (s.host.sp n).ctrl.getLsbD 0 = true) :=
  ⟨⟨0, 1, sp 1 (fun p => { p with fifo := [rxe 3], filling := some (fil 2) }) (up .headend), rxe 3, [], by decide +kernel⟩,
   ⟨0, sp 0 (fun p => { p with fifo := [rxe 3] }) (up .headend), rxe 3, [], by decide +kernel⟩,
   ⟨0, 1, at_ 500 (sp 1 (fun p => { p with timeout := some 500, filling := some (fil 2) }) (up .headend)), 500, by decide +kernel⟩,
   ⟨0, 1, 3, sp 1 (fun p => { p with held := 5 }) (up .headend), by decide +kernel⟩,
   ⟨0, 1, sp 1 (fun p => { p with queue := [pk [1, 2]] }) (up .headend), by decide +kernel⟩,
   ⟨0, 1, sp 1 (fun p => { p with queue := [pk [1, 2]], held := 3, filling := some (fil 3), nextBlock := 2, fifo := [rxe 4] }) (up .headend), by decide +kernel⟩,
   ⟨0, 1, sp 1 (fun p => { p with fifo := [rxe 4], held := 3, filling := some (fil 3), nextBlock := 2 }) (up .headend), by decide +kernel⟩⟩

theorem witness_SerialCharactersAreSent :
    -- serialTxDescriptor
    (∃ (dt : Nat) (n : Nat) (v : W32) (s : State), reachable s ∧ 0 < n ∧ n < 8 ∧ sized s) ∧
    -- serialTxCharacterEnd
    (∃ (dt : Nat) (n : Nat) (s : State) (c : BitVec 9) (d : TxDesc) (r : List TxDesc), 0 < n ∧ n < 8 ∧ sized s ∧ s.linksStopped = false
      ∧ (s.host.sp n).shifter = some c ∧ (s.host.sp n).descs = d :: r ∧ (s.host.sp n).shiftAt + charTimes (s.host.sp n).txFormat 1 ≤ (s.advance dt).host.follower) ∧
    -- serialTxCharacterEnd
    (∃ (dt : Nat) (s : State) (c : BitVec 9) (f : List Byte × Nat), sized s ∧ s.linksStopped = false ∧ (s.host.sp 0).shifter = some c ∧ s.host.sp0Out = some f
      ∧ (s.host.sp 0).shiftAt + charTimes (s.host.sp 0).txFormat 1 ≤ (s.advance dt).host.follower) ∧
    -- serialTxBreakSet
    (∃ (dt : Nat) (n : Nat) (s : State), reachable s ∧ n < 8 ∧ sized s ∧ (s.host.sp n).ctrl.getLsbD 21 = false) ∧
    -- serialTxBreakClear
    (∃ (dt : Nat) (n : Nat) (s : State) (b : Tick), reachable s ∧ n < 8 ∧ sized s ∧ (s.host.sp n).ctrl.getLsbD 21 = true ∧ (s.host.sp n).breakFrom = some b) ∧
    -- serialBreakHoldEnd
    (∃ (dt : Nat) (n : Nat) (s : State) (b : Tick), n < 8 ∧ sized s ∧ s.linksStopped = false ∧ (s.host.sp n).breakEnding = true ∧ (s.host.sp n).breakFrom = some b
      ∧ b + charTimes ((s.host.sp n).ctrl, (s.host.sp n).rate) 2 ≤ (s.advance dt).host.follower) ∧
    -- serialTxDisable
    (∃ (dt : Nat) (n : Nat) (s : State), reachable s ∧ n < 8 ∧ sized s) ∧
    -- serialDeTailEnd
    (∃ (dt : Nat) (n : Nat) (s : State) (x : Tick), n < 8 ∧ sized s ∧ s.linksStopped = false ∧ (s.host.sp n).tailFrom = some x
      ∧ x + sixteenths (s.host.sp n).txFormat.2 (bitsOf (s.host.sp n).line.toNat 10 10) ≤ (s.advance dt).host.follower) ∧
    -- serialCtsChange
    (∃ (dt : Nat) (n : Nat) (high : Bool) (s : State), n < 8 ∧ sized s ∧ s.linksStopped = false) ∧
    -- serialFormatChange
    (∃ (dt : Nat) (n : Nat) (rateReg : Bool) (v : W32) (s : State), reachable s ∧ n < 8 ∧ sized s) :=
  ⟨⟨0, 1, 0x01000005, sp 1 id (up .headend), by decide +kernel⟩,
   ⟨0, 1, at_ 2000000 (sp 1 (fun p => { p with shifter := some 5, descs := [⟨0, 1, 0⟩] }) (up .headend)), 5, ⟨0, 1, 0⟩, [], by decide +kernel⟩,
   ⟨0, at_ 2000000 (hs (fun h => { h with sp0Out := some ([0x7E, 5, 0x7E], 0) }) (sp 0 (fun p => { p with shifter := some 0x7E }) (up .headend))), 0x7E, ([0x7E, 5,
     0x7E], 0), by decide +kernel⟩,
   ⟨0, 1, sp 1 (fun p => { p with shifter := some 5, descs := [⟨0, 2, 0⟩] }) (up .headend), by decide +kernel⟩,
   ⟨0, 1, at_ 90000000 (sp 1 (fun p => { p with ctrl := 0x200183, breakFrom := some 5, descs := [⟨0, 2, 0⟩] }) (up .headend)), 5, by decide +kernel⟩,
   ⟨0, 1, at_ 90000000 (sp 1 (fun p => { p with breakEnding := true, breakFrom := some 5, descs := [⟨0, 2, 0⟩] }) (up .headend)), 5, by decide +kernel⟩,
   ⟨0, 1, sp 1 (fun p => { p with shifter := some 5, de := true, descs := [⟨0, 2, 0⟩] }) (up .headend), by decide +kernel⟩,
   ⟨0, 1, at_ 90000000 (sp 1 (fun p => { p with de := true, tailFrom := some 5 }) (up .headend)), 5, by decide +kernel⟩,
   ⟨0, 6, false, sp 6 (fun p => { p with ctrl := 0x800183, descs := [⟨0, 2, 0⟩] }) (up .headend), by decide +kernel⟩,
   ⟨0, 1, true, 0x8236, sp 1 (fun p => { p with shifter := some 5, de := true, descs := [⟨0, 2, 0⟩] }) (up .headend), by decide +kernel⟩⟩

theorem witness_StepKeepsTheSizes : ∃ (s : State) (t : State), sized s ∧ step s = .next t :=
  ⟨State.reset, State.reset, ⟨by decide +kernel, rfl⟩⟩

theorem witness_CommandsAreJudgedInOrder :
    (∃ (info : CmdInfo) (cmd : Cmd) (unit : State → EpochRef) (rules : State → Answer) (s : State) (st : Status), s.serves info.opcode = true
      ∧ s.host.holds info.opcode cmd = true ∧ s.inTurn false (acceptance info cmd s) (unit s) = true ∧ s.judge info = some st) ∧
    (∃ (info : CmdInfo) (cmd : Cmd) (unit : State → EpochRef) (rules : State → Answer) (s : State), s.serves info.opcode = true
      ∧ s.host.holds info.opcode cmd = true ∧ s.inTurn false (acceptance info cmd s) (unit s) = true ∧ s.judge info = none ∧ epochDiffers cmd (unit s).epoch = true) ∧
    (∃ (info : CmdInfo) (cmd : Cmd) (unit : State → EpochRef) (rules : State → Answer) (s : State), s.host.holds info.opcode cmd = true
      ∧ s.inTurn false (acceptance info cmd s) (unit s) = false) ∧
    (∃ (info : CmdInfo) (cmd : Cmd) (unit : State → EpochRef) (rules : State → Answer) (s : State), s.serves info.opcode = true
      ∧ s.host.holds info.opcode cmd = false ∧ (s.readInputs).host.holds info.opcode cmd = false) ∧
    (∃ (info : CmdInfo) (cmd : Cmd) (sched : Bool) (unit : State → EpochRef) (rules : Accepted → State → Answer) (s : State) (st : Status),
      s.arrived info.opcode cmd = none ∧ s.serves info.opcode = true ∧ s.host.holds info.opcode cmd = true ∧ s.inTurn true (acceptance info cmd s) (unit s) = true
      ∧ s.judge info = some st) ∧
    (∃ (info : CmdInfo) (cmd : Cmd) (sched : Bool) (unit : State → EpochRef) (rules : Accepted → State → Answer) (s : State), s.arrived info.opcode cmd = none
      ∧ s.host.waits info.opcode cmd = true) ∧
    (∃ (info : CmdInfo) (cmd : Cmd) (sched : Bool) (unit : State → EpochRef) (rules : Accepted → State → Answer) (s : State), crosses info cmd (unit s) s) ∧
    (∃ (info : CmdInfo) (cmd : Cmd) (unit : State → EpochRef) (rules : Accepted → State → Answer) (s : State) (got : Accepted × BarrierEnd),
      s.arrived info.opcode cmd = some got ∧ s.line.actionDue (unit s).kind (unit s).unit = false ∧ epochDiffers cmd (unit (crossing got s)).epoch = true) :=
  ⟨⟨infoChannelStatus, cmd [1, 2, 0, 5], fun _ => ⟨0, 0, 0, 0⟩, fun t => ⟨.ok, [], t⟩, toH infoChannelStatus.opcode (cmd [1, 2, 0, 5]) (up .boot), .mode,
    by decide +kernel⟩,
   ⟨infoNop, { cmd [1] with expect := true }, fun _ => ⟨0, 0, 0, 0⟩, fun t => ⟨.ok, [], t⟩, toH infoNop.opcode { cmd [1] with expect := true } (up .config),
     by decide +kernel⟩,
   ⟨infoNop, cmd [1], fun _ => ⟨0, 0, 0, 0⟩, fun t => ⟨.ok, [], t⟩,
     hs (fun h => { h with accepted := [⟨cmd [2], 2, 0, false, (0, 0), []⟩, ⟨cmd [1], 0, 0, false, (0, 0), []⟩] }) (up .config), by decide +kernel⟩,
   ⟨infoNop, cmd [1], fun _ => ⟨0, 0, 0, 0⟩, fun t => ⟨.ok, [], t⟩, up .config, by decide +kernel⟩,
   ⟨infoChannelStatus, cmd [1, 2, 0, 5], false, fun _ => ⟨0, 0, 0, 0⟩, fun _ t => ⟨.ok, [], t⟩,
     lk (fun k => { k with host := { k.host with up := false } }) (toH infoChannelStatus.opcode (cmd [1, 2, 0, 5]) (up .config)), .barrier, by decide +kernel⟩,
   ⟨infoNop, cmd [1], false, fun _ => ⟨0, 0, 0, 0⟩, fun _ t => ⟨.ok, [], t⟩,
     hs (fun h => { h with accepted := [⟨cmd [1], infoNop.opcode, 0, true, (0, 0), []⟩] }) (up .config), by decide +kernel⟩,
   ⟨infoChannelStatus, cmd [1, 2, 0, 5], false, fun _ => ⟨0, 0, 0, 0⟩, fun _ t => ⟨.ok, [], t⟩, toH infoChannelStatus.opcode (cmd [1, 2, 0, 5]) (up .config),
     by decide +kernel⟩,
   ⟨infoChannelStatus, { cmd [1, 2, 0, 5, 1] with expect := true }, fun _ => ⟨0, 0, 0, 0⟩, fun _ t => ⟨.ok, [], t⟩,
     toL infoChannelStatus.opcode { cmd [1, 2, 0, 5, 1] with expect := true } (up .config),
     gotOf infoChannelStatus.opcode { cmd [1, 2, 0, 5, 1] with expect := true } (up .config), by decide +kernel⟩⟩

theorem witness_SaturatingCountersHoldTheirMaximum :
    (∃ (n : Nat) (c : Ctr), c.val ≤ 2 ^ n - 1) ∧
    -- queueLostRead
    (∃ (dt : Nat) (n : Nat) (s : State), reachable s ∧ sized s ∧ n < 6) ∧
    -- cuStatusRead
    (∃ (dt : Nat) (n : Nat) (s : State), reachable s ∧ sized s ∧ n < 8) :=
  ⟨⟨16, ⟨65535, false⟩, by decide +kernel⟩,
   ⟨0, 5, qu 5 (fun q => { q with lost := ⟨4, true⟩ }) (up .headend), by decide +kernel⟩,
   ⟨0, 7, hs (HostSide.modCu 7 fun c => { c with misCount := ⟨4, true⟩ }) (up .headend), by decide +kernel⟩⟩

theorem witness_TimebaseAccumulatesItsRate :
    (∃ (dt : Nat) (k : Clock), k.coarse = 0 ∧ k.c.natAbs ≤ 858993) ∧
    (∃ (coarse : Bool) (dt : Nat) (k : Clock), k.c.natAbs ≤ 858993) ∧
    (∃ (coarse : Bool) (a : Nat) (b : Nat) (k : Clock), k.slew = 0 ∧ k.c.natAbs ≤ 858993) ∧
    (∃ (ticks : Nat) (h : HostSide), h.followerAhead = 0 ∧ h.followerBehind = 0 ∧ h.followerCoarse = 0) :=
  ⟨⟨5, State.reset.line.clock, by decide +kernel⟩,
   ⟨true, 5, State.reset.line.clock, by decide +kernel⟩,
   ⟨true, 5, 6, State.reset.line.clock, by decide +kernel⟩,
   ⟨7, State.reset.host, by decide +kernel⟩⟩

theorem witness_FramesLastAsTheirSymbolsSay :
    (∃ (o : OnAir) (e : TxEntry) (nco : Nat) (t : Tick), (t < o.launch ∨ frameEnd o.launch o.rateK o.symbols < t)) ∧
    (∃ (o : OnAir) (e : TxEntry) (nco : Nat) (cause : Nat) (b : Tick) (t : Tick), e.ended = some (b, cause) ∧ b + 750 ≤ t - e.trim) ∧
    (∃ (o : OnAir) (m : Nat), m < 320) ∧
    (∃ (o : OnAir) (n : Nat) (k : Nat), o.nco ≤ n) :=
  ⟨⟨{ onair with symbols := 330 }, ⟨7, 0, 48, true, none, false⟩, 0, -1, by decide +kernel⟩,
   ⟨onair, ⟨7, 0, 48, true, some (5000, 1), false⟩, 0, 1, 5000, 5798, by decide +kernel⟩,
   ⟨onair, 0, by decide +kernel⟩,
   ⟨onair, 5, 1000000, by decide +kernel⟩⟩

theorem witness_InterleavingPermutesTheBits :
    (∃ (n : Nat) (t : Nat) (words : List Bits), ((∀ x ∈ words, x.length = n)) ∧ t < words.length * n) ∧
    (∃ (n : Nat) (c : Nat) (t : Nat) (u : Nat), ((n = 352 ∨ ∃ lift, lift < 4 ∧ n = codeBits lift)) ∧ t < c * n ∧ u < c * n ∧ t % c = u % c
      ∧ (73 * (t / c) + 17 * (t % c)) % n = (73 * (u / c) + 17 * (u % c)) % n) :=
  ⟨⟨3, 5, [[true, false, true], [false, false, true]], by decide +kernel⟩,
   ⟨576, 2, 3, 3, ⟨.inr ⟨0, by decide, by decide⟩, by decide⟩⟩⟩

theorem witness_HeadersCarryTheirFields : ∃ (net : W16) (type : Nat) (mod : Nat) (rate : Nat) (lift : Nat) (len : Nat) (seed : Nat) (txb : Nat) (sec : Bool),
  type < 8 ∧ mod < 16 ∧ rate < 4 ∧ lift < 4 ∧ len < 2 ^ 15 ∧ seed < 2 ^ 12 ∧ txb < 16 :=
  ⟨7, 7, 15, 3, 3, 32767, 4095, 15, true, by decide +kernel⟩

theorem witness_DecodingGivesTheSentString : ∃ (h : Nat) (bytes : List Byte), bytes.length = hdrLen h + 5 :=
  ⟨hdr 0 15, List.replicate 20 5, by decide +kernel⟩

theorem witness_EncodedWordsPassTheirChecks :
    (∃ (rate : Nat) (lift : Nat) (info : Bits), rate < 4 ∧ lift < 4 ∧ info.length = infoBits rate lift) ∧
    (∃ (h : Nat), h < 2 ^ 64) :=
  ⟨⟨3, 3, List.replicate (infoBits 3 3) true, by decide +kernel⟩,
   ⟨0xFFFFFFFFFFFFFFFF, by decide +kernel⟩⟩
end Sys2Proof.Tests
end

section
/-! PROOFS. Line waveforms (chapter 5): the interleaver (R157) and the symbols, span, ending and carrier of a frame (R142, R144, R145, R147, R241). -/

open Sys2Proof Sys2Proof.Machine

namespace Sys2Proof.LineWaveforms

/-! ## The interleaver -/

theorem interleave_length (n : Nat) (words : List Bits) : (interleave n words).length = words.length * n := by
  simp [interleave]

theorem interleave_getElem? (n t : Nat) (words : List Bits) (ht : t < words.length * n) :
    (interleave n words)[t]? =
      some ((nth words (t % words.length) []).getD ((73 * (t / words.length) + 17 * (t % words.length)) % n) false) := by
  simp [interleave, ht]

/-- Every codeword length of the device, the header's 352 bits included, is coprime to 73 (R157). -/
theorem coprime_codeLength {n : Nat} (hn : n = 352 ∨ ∃ lift, lift < 4 ∧ n = codeBits lift) : Nat.Coprime n 73 := by
  obtain rfl | ⟨lift, hlift, rfl⟩ := hn
  · decide
  · interval_cases lift <;> decide

/-- Within a codeword, a stride that is coprime to its length visits no bit twice. -/
theorem eq_of_strided_mod_eq {n k a b r : Nat} (hk : Nat.Coprime n k) (ha : a < n) (hb : b < n)
    (h : (k * a + r) % n = (k * b + r) % n) : a = b := by
  have hmul : k * a ≡ k * b [MOD n] := Nat.ModEq.add_right_cancel' r h
  have hab : a ≡ b [MOD n] := Nat.ModEq.cancel_left_of_coprime hk hmul
  exact hab.eq_of_lt_of_lt ha hb

/-- Settles O57: the formula is the stream's own, and 73 is coprime to every codeword length, so no bit is carried twice. -/
theorem interleavingPermutesTheBits : Obligations.InterleavingPermutesTheBits := by
  refine ⟨fun n t words hlen ht => ?_, interleave_length, fun n c t u hn ht hu hc hj => ?_⟩
  · have hC : t % words.length < words.length := Nat.mod_lt _ (Nat.pos_of_mul_pos_right (Nat.zero_lt_of_lt ht))
    have hn : 0 < n := Nat.pos_of_mul_pos_left (Nat.zero_lt_of_lt ht)
    have hj : (73 * (t / words.length) + 17 * (t % words.length)) % n < words[t % words.length].length := by
      rw [hlen _ (List.getElem_mem hC)]
      exact Nat.mod_lt _ hn
    refine ⟨words[t % words.length], List.getElem?_eq_getElem hC, ?_⟩
    rw [interleave_getElem? n t words ht, nth, List.getD_eq_getElem _ _ hC, List.getD_eq_getElem _ _ hj, List.getElem?_eq_getElem hj]
  · have hquot : t / c = u / c :=
      eq_of_strided_mod_eq (coprime_codeLength hn) (Nat.div_lt_of_lt_mul ht) (Nat.div_lt_of_lt_mul hu) (hc ▸ hj)
    rw [← Nat.div_add_mod t c, ← Nat.div_add_mod u c, hquot, hc]

/-! ## Sizes of a frame -/

theorem symbolTicks_pos (k : Nat) : 0 < symbolTicks k := by
  simp [symbolTicks]

/-- One pilot for every 31 data symbols that are begun (R145). -/
theorem pilots_eq_ceil (d : Nat) : (ceilDiv d 31 : Rat) = ⌈(d : Rat) / 31⌉ := by
  have hceil : ⌈(d : Rat) / 31⌉ = (ceilDiv d 31 : Int) := by
    have hdiv : ⌈(d : Rat) / (31 : Nat)⌉ = -(-(d : Int) / (31 : Nat)) := Rat.ceil_natCast_div_natCast d 31
    push_cast [ceilDiv] at hdiv ⊢
    omega
  rw [hceil, Int.cast_natCast]

theorem frameSymbols_eq_ceil (mod rate lift len : Nat) :
    (frameSymbols mod rate lift len : Rat) = 320 + dataSymbols mod rate lift len + ⌈(dataSymbols mod rate lift len : Rat) / 31⌉ := by
  rw [← pilots_eq_ceil, frameSymbols]
  push_cast
  rfl

/-! ## The signal of a frame and its span -/

theorem pulse_eq_zero {x : Rat} (hx : x < -8 ∨ 8 < x) : pulse x = 0 := if_pos hx

theorem scale_zero (a : Cq) : Cq.scale 0 a = ⟨0, 0⟩ := by
  simp [Cq.scale]

theorem sum_eq_zero {xs : List Cq} (h : ∀ x ∈ xs, x = ⟨0, 0⟩) : Cq.sum xs = ⟨0, 0⟩ := by
  rw [List.eq_replicate_of_mem h, Cq.sum]
  induction xs.length with
  | zero => rfl
  | succ n ih => simpa [List.replicate_succ, Cq.add] using ih

/-- An instant outside a frame's span lies more than 8 periods from the peak of each of its symbols (R143, R145). -/
theorem far_from_peak {l t : Tick} {k n m : Nat} (hm : m < n) (ht : t < l ∨ frameEnd l k n < t) :
    ((t - (l + (m + 8) * symbolTicks k : Tick)) : Rat) / symbolTicks k < -8 ∨
      8 < ((t - (l + (m + 8) * symbolTicks k : Tick)) : Rat) / symbolTicks k := by
  have hts : (0 : Rat) < symbolTicks k := by exact_mod_cast symbolTicks_pos k
  rw [div_lt_iff₀ hts, lt_div_iff₀ hts]
  refine ht.imp (fun hbefore => ?_) fun hafter => ?_
  · have hstart : (0 : Int) ≤ m * symbolTicks k := by positivity
    have hpeak : t - (l + (m + 8) * symbolTicks k) < -8 * symbolTicks k := by linarith
    exact_mod_cast hpeak
  · have hlast : ((m + 1 : Nat) : Int) * symbolTicks k ≤ n * symbolTicks k := by gcongr; omega
    have hpeak : 8 * symbolTicks k < t - (l + (m + 8) * symbolTicks k) := by
      simp only [frameEnd] at hafter
      push_cast at hafter hlast
      linarith
    exact_mod_cast hpeak

theorem signal_eq_zero_outside_span (o : OnAir) (e : TxEntry) (nco : Nat) (t : Tick)
    (ht : t < o.launch ∨ frameEnd o.launch o.rateK o.symbols < t) : o.signal e nco t = 0 := by
  simp only [OnAir.signal]
  rw [sum_eq_zero]
  · simp [Cq.mul]
  · intro x hx
    obtain ⟨m, hm, rfl⟩ := List.mem_map.mp hx
    rw [pulse_eq_zero (far_from_peak (List.mem_range.mp hm) ht), scale_zero]

/-! ## The fade of an ending -/

theorem fade_eq_zero_after_ending {e : TxEntry} {cause : Nat} {b t : Tick} (he : e.ended = some (b, cause)) (ht : b + 750 ≤ t - e.trim) :
    e.fade t = 0 := by
  have hnot : ¬ t - e.trim - b ≤ 0 := by linarith
  have hover : 750 ≤ t - e.trim - b := by linarith
  simp [TxEntry.fade, he, hnot, hover]

theorem signal_eq_zero_after_ending (o : OnAir) {e : TxEntry} (nco : Nat) {cause : Nat} {b t : Tick} (he : e.ended = some (b, cause))
    (ht : b + 750 ≤ t - e.trim) : o.signal e nco t = 0 := by
  simp [OnAir.signal, fade_eq_zero_after_ending he ht]

/-! ## SYNC and the carrier -/

theorem symbol_of_sync (o : OnAir) {m : Nat} (hm : m < 320) :
    o.symbol m = rootOf ((64 - (m % 32) ^ 2 % 64 + if m < 256 then 0 else 32) % 64) := by
  have hsign : (if 256 ≤ m then 32 else 0) = if m < 256 then 0 else 32 := by
    split <;> split <;> omega
  rw [OnAir.symbol, if_pos hm, syncSymbol, syncPhase, hsign, pow_two]

theorem carrierPhase_toNat (f : W32) (l : Tick) : ((carrierPhase f l).toNat : Int) = (f.toNat * l) % 2 ^ 32 := by
  simp only [carrierPhase, BitVec.toNat_ofNat]
  omega

theorem theta_at_launch (o : OnAir) : o.theta o.nco = (((o.f.toNat * o.launch) % 2 ^ 32 : Int) : Rat) / 2 ^ 32 := by
  rw [OnAir.theta, ← carrierPhase_toNat]
  simp

theorem theta_advance (o : OnAir) {n : Nat} (k : Nat) (hn : o.nco ≤ n) :
    o.theta (n + k) - o.theta n = (o.f.toNat : Rat) * k / 2 ^ 64 := by
  have hgain : n + k - o.nco = n - o.nco + k := by omega
  simp only [OnAir.theta, hgain]
  push_cast
  ring

/-- Settles O56: each clause is the lemma above that names its quantity. -/
theorem framesLastAsTheirSymbolsSay : Obligations.FramesLastAsTheirSymbolsSay := by
  refine ⟨fun l k m mod rate lift len => ⟨?_, frameSymbols_eq_ceil mod rate lift len, ?_, rfl⟩, signal_eq_zero_outside_span,
    fun o e nco cause b t => signal_eq_zero_after_ending o nco, fun o m => symbol_of_sync o, theta_at_launch, fun o n k => theta_advance o k⟩
  · simp [pulsePeak, symbolTicks]
  · simp [frameEnd, symbolTicks]

end Sys2Proof.LineWaveforms
end

section
/-! PROOFS. Check units (chapter 17): a change of one unit, and the write of ABORT (R442; log 21 for the instant of the stop). -/

open Sys2Proof Sys2Proof.Machine Sys2Proof.Safety Sys2Proof.Laws

namespace Sys2Proof.CheckUnits

/-! ## A change of one unit -/

@[simp] theorem cu_advance (dt n : Nat) (s : State) : (s.advance dt).host.cu n = s.host.cu n := by
  simp [HostSide.cu]

@[simp] theorem modCu_queues (n : Nat) (f : CheckUnit → CheckUnit) (h : HostSide) : (h.modCu n f).queues = h.queues := rfl

@[simp] theorem modCu_keys (n : Nat) (f : CheckUnit → CheckUnit) (h : HostSide) : (h.modCu n f).keys = h.keys := rfl

theorem cu_modCu_same {n : Nat} {h : HostSide} (f : CheckUnit → CheckUnit) (hn : n < h.cus.length) :
    (h.modCu n f).cu n = f (h.cu n) := by
  simp [HostSide.cu, HostSide.modCu, nth, hn]

theorem cu_modCu_of_ne {m n : Nat} (hne : m ≠ n) (f : CheckUnit → CheckUnit) (h : HostSide) : (h.modCu n f).cu m = h.cu m := by
  simp [HostSide.cu, HostSide.modCu, nth, List.getD_eq_getElem?_getD, hne.symm]

theorem modCu_eq_self {n : Nat} {f : CheckUnit → CheckUnit} {h : HostSide} (hf : f (h.cu n) = h.cu n) : h.modCu n f = h := by
  have hcus : h.cus.modify n f = h.cus := by
    refine List.ext_getElem (List.length_modify ..) fun m _ hm => ?_
    rw [List.getElem_modify]
    split
    · next heq =>
      subst heq
      simpa [HostSide.cu, nth, hm] using hf
    · rfl
  rw [HostSide.modCu, hcus]

theorem onlyHost_withHost (s : State) (h : HostSide) : onlyHost s { s with host := h } :=
  ⟨rfl, rfl, rfl, rfl, rfl, rfl, rfl⟩

theorem cus_length_of_sized {s : State} (h : sized s) : s.host.cus.length = 8 := by
  obtain ⟨-, -, -, -, -, -, -, -, -, -, hcus, -⟩ := h
  exact hcus

/-! ## ABORT -/

/-- What a write of ABORT makes of one unit (R442). -/
def aborted (c : CheckUnit) : CheckUnit := if c.run.isSome then { c with run := none, status := c.status ||| 16 } else c

theorem aborted_of_running {c : CheckUnit} (hrun : c.run ≠ none) : aborted c = { c with run := none, status := c.status ||| 16 } :=
  if_pos (Option.isSome_iff_ne_none.mpr hrun)

theorem aborted_of_idle {c : CheckUnit} (hrun : c.run = none) : aborted c = c := by
  simp [aborted, hrun]

/-- Where the host side is served, CU_ABORT aborts its unit and does nothing else (R345, R442). -/
theorem exec_cuAbort {s : State} (hs : reachable s) (dt n : Nat) :
    exec (.cuAbort dt n) s = .next { s.advance dt with host := (s.advance dt).host.modCu n aborted } :=
  congrArg Host.Outcome.next (bar0H_reachable (HostSide.modCu n aborted) _ ((reachable_advance dt s).mpr hs))

/-- Settles O22: a running unit becomes idle with ABORTED set, and on an idle one the write changes nothing. -/
theorem abortStopsACheckRun : Obligations.AbortStopsACheckRun := by
  unfold Obligations.AbortStopsACheckRun
  refine ⟨fun dt n s hs hsized hn hrun => ⟨_, exec_cuAbort hs dt n, ?_, fun m hm => ?_, ?_, ?_, ?_⟩, fun dt n s hs _ _ hrun => ?_⟩
  · have hlen : n < (s.advance dt).host.cus.length := by
      simpa [cus_length_of_sized hsized] using hn
    rw [cu_modCu_same aborted hlen, cu_advance, aborted_of_running hrun]
  · rw [cu_modCu_of_ne hm, cu_advance]
  · simp
  · simp
  · exact onlyHost_withHost _ _
  · rw [exec_cuAbort hs, modCu_eq_self (aborted_of_idle (by rwa [cu_advance]))]

end Sys2Proof.CheckUnits
end
